-- ==== Sys2Proof/Word.lean ====
section
/-! DEFINITION. Word and byte types, and their plainest arithmetic (07:R90, 09:R104). -/

namespace Sys2Proof

/-- A 64-bit register value. -/
abbrev Word := BitVec 64
/-- One byte of memory or of the register window. -/
abbrev Byte := BitVec 8
/-- The number of a g, v, a or x register as an encoding holds it. -/
abbrev Reg := BitVec 5

/-- `sv(x)` of R104. -/
def sv (x : Word) : Int := x.toInt
/-- `uv(x)` of R104. -/
def uv (x : Word) : Nat := x.toNat

/-- Little-endian value of a byte list (R3). -/
def leNat : List Byte → Nat
  | [] => 0
  | b :: bs => b.toNat + 256 * leNat bs

/-- The low `n` bytes of `x`, little-endian (R3). -/
def leBytes : Nat → Nat → List Byte
  | 0, _ => []
  | n + 1, x => BitVec.ofNat 8 x :: leBytes n (x / 256)

end Sys2Proof
end

