-- ==== Sys2Proof/Syntax.lean ====
section
/-! DEFINITION. The instructions of the MQX-940-A: one constructor per row of spec/opcode_table.json: the encoded rows in its order, then the steps without an encoding in an order of the model's own.
Rows with an encoding carry the fields of their word (07:R72-R78); rows without one are the steps of
spec/95_what_each_step_holds.md, with the operands that say whose step it is (log 13). -/

namespace Sys2Proof

/-- Bits [30] version, [29] switch marker and [28] transient of a word (07:R72). -/
structure Mark where
  v : Bool
  s : Bool
  t : Bool
  deriving DecidableEq, Repr

/-- Kinds of access a translation distinguishes (17:R230). -/
inductive AccKind where
  | read | write | atomic | fetch
  deriving DecidableEq, Repr

/-- The status a request to another package comes back with (29:R324, R330). -/
inductive Reply where
  | done | domain | pinned | notile | lost
  deriving DecidableEq, Repr

/-- Requests between packages (29:R323): an access; WAKE of a line (13:R179); a record for a line's wait list, with its priority and die
(13:R178); the directory transactions of a pinned line: its pin with INIT, its release, its publication at DISSOLVE with the dirty sectors,
its write-back at a pre-emption (`away`) or a seal (03:R39, R46, R47, 21:R267);
a read that its home forwards to the member of a pinned line, for a requester's package and tag (03:R41); CWB, CINV and DISCARD of the
bytes named, and the question whether their line is pinned (13:R199). -/
inductive ReqKind where
  | acc (k : AccKind)
  | wake
  | waiter
  | pin (bar : Nat) (init : Bool)
  | unpin (bar dirty : Nat)
  | publish (bar dirty : Nat)
  | save (bar dirty : Nat) (away : Bool)
  | forward (pkg tag : Nat)
  | clean
  | inval
  | discard
  | check
  deriving DecidableEq, Repr

/-- A packet from another package: target tile coordinate, domain, sender's fabric coordinate, its package and tag, beats
(13:R180, 29:R326). -/
structure Arrival where
  coord : Nat
  dom : Nat
  sender : Nat
  pkg : Nat
  tag : Nat
  beats : List Word
  deriving DecidableEq, Repr

/-- Requests of the host to a VF's device interface (29:R339). -/
inductive TdispMsg where
  | lock | start | stop | report
  deriving DecidableEq, Repr

/-- The instructions and steps of the machine, one constructor per row of the opcode table. -/
inductive Instr where
  /-- Adds two g registers, wrapping or saturating signed or unsigned as fn[1:0] selects. (R106) -/
  | add (m : Mark) (d : Reg) (a : Reg) (b : Reg) (q : BitVec 2)
  /-- Subtracts two g registers, wrapping or saturating as fn[1:0] selects. (R106) -/
  | sub (m : Mark) (d : Reg) (a : Reg) (b : Reg) (q : BitVec 2)
  /-- Multiplies two g registers, wrapping or saturating as fn[1:0] selects. (R106) -/
  | mul (m : Mark) (d : Reg) (a : Reg) (b : Reg) (q : BitVec 2)
  /-- Delivers the upper 64 bits of the signed 128-bit product. (R106) -/
  | mulh (m : Mark) (d : Reg) (a : Reg) (b : Reg)
  /-- Delivers the upper 64 bits of the unsigned 128-bit product. (R106) -/
  | mulhn (m : Mark) (d : Reg) (a : Reg) (b : Reg)
  /-- Signed division truncating toward zero, with defined results for zero divisors and overflow. (R106) -/
  | div (m : Mark) (d : Reg) (a : Reg) (b : Reg)
  /-- Unsigned division, giving all ones for a zero divisor. (R106) -/
  | divn (m : Mark) (d : Reg) (a : Reg) (b : Reg)
  /-- Signed remainder of truncating division. (R106) -/
  | rem (m : Mark) (d : Reg) (a : Reg) (b : Reg)
  /-- Unsigned remainder. (R106) -/
  | remn (m : Mark) (d : Reg) (a : Reg) (b : Reg)
  /-- Smaller of two registers read signed. (R106) -/
  | min (m : Mark) (d : Reg) (a : Reg) (b : Reg)
  /-- Larger of two registers read signed. (R106) -/
  | max (m : Mark) (d : Reg) (a : Reg) (b : Reg)
  /-- Smaller of two registers read unsigned. (R106) -/
  | minn (m : Mark) (d : Reg) (a : Reg) (b : Reg)
  /-- Larger of two registers read unsigned. (R106) -/
  | maxn (m : Mark) (d : Reg) (a : Reg) (b : Reg)
  /-- Bitwise AND of two registers. (R107) -/
  | and (m : Mark) (d : Reg) (a : Reg) (b : Reg)
  /-- Bitwise OR of two registers. (R107) -/
  | or (m : Mark) (d : Reg) (a : Reg) (b : Reg)
  /-- Bitwise XOR of two registers. (R107) -/
  | xor (m : Mark) (d : Reg) (a : Reg) (b : Reg)
  /-- AND of the first register with the complement of the second. (R107) -/
  | andn (m : Mark) (d : Reg) (a : Reg) (b : Reg)
  /-- Shift left by a register amount, 64-bit or .w32. (R107) -/
  | shl (m : Mark) (d : Reg) (a : Reg) (b : Reg) (w : BitVec 1)
  /-- Logical shift right by a register amount, 64-bit or .w32. (R107) -/
  | shr (m : Mark) (d : Reg) (a : Reg) (b : Reg) (w : BitVec 1)
  /-- Arithmetic shift right by a register amount, 64-bit or .w32. (R107) -/
  | sra (m : Mark) (d : Reg) (a : Reg) (b : Reg) (w : BitVec 1)
  /-- Rotate left by a register amount, 64-bit or .w32. (R107) -/
  | rol (m : Mark) (d : Reg) (a : Reg) (b : Reg) (w : BitVec 1)
  /-- Counts leading zero bits. (R107) -/
  | clz (m : Mark) (d : Reg) (a : Reg) (w : BitVec 1)
  /-- Counts trailing zero bits. (R107) -/
  | ctz (m : Mark) (d : Reg) (a : Reg) (w : BitVec 1)
  /-- Counts one bits. (R107) -/
  | popc (m : Mark) (d : Reg) (a : Reg) (w : BitVec 1)
  /-- Selects a or b by whether the destination register is nonzero. (R108) -/
  | sel (m : Mark) (d : Reg) (a : Reg) (b : Reg)
  /-- Writes 1 or 0 by an eq, ne, lt or ltn comparison. (R108) -/
  | cmp (m : Mark) (d : Reg) (a : Reg) (b : Reg) (c : BitVec 2)
  /-- Sign-extends the low 8, 16 or 32 bits. (R108) -/
  | sext (m : Mark) (d : Reg) (a : Reg) (w : BitVec 2)
  /-- Zero-extends the low 8, 16 or 32 bits. (R108) -/
  | zext (m : Mark) (d : Reg) (a : Reg) (w : BitVec 2)
  /-- Extracts a bit field, zero- or sign-extended. (R108) -/
  | bfx (m : Mark) (d : Reg) (a : Reg) (b : Reg) (x : BitVec 1)
  /-- Inserts a bit field into the destination register. (R108) -/
  | bfi (m : Mark) (d : Reg) (a : Reg) (b : Reg)
  /-- Adds a sign-extended immediate. (R109) -/
  | addi (m : Mark) (d : Reg) (a : Reg) (i : BitVec 11)
  /-- ANDs a sign-extended immediate. (R109) -/
  | andi (m : Mark) (d : Reg) (a : Reg) (i : BitVec 11)
  /-- ORs a sign-extended immediate. (R109) -/
  | ori (m : Mark) (d : Reg) (a : Reg) (i : BitVec 11)
  /-- XORs a sign-extended immediate. (R109) -/
  | xori (m : Mark) (d : Reg) (a : Reg) (i : BitVec 11)
  /-- Shift left by an immediate amount. (R109) -/
  | shli (m : Mark) (d : Reg) (a : Reg) (w : BitVec 1) (n : BitVec 6)
  /-- Logical shift right by an immediate amount. (R109) -/
  | shri (m : Mark) (d : Reg) (a : Reg) (w : BitVec 1) (n : BitVec 6)
  /-- Arithmetic shift right by an immediate amount. (R109) -/
  | srai (m : Mark) (d : Reg) (a : Reg) (w : BitVec 1) (n : BitVec 6)
  /-- Writes 1 if the register is signed-less than the immediate. (R109) -/
  | cmpi (m : Mark) (d : Reg) (a : Reg) (i : BitVec 11)
  /-- Loads a sign-extended (HIMM-widenable) immediate. (R109) -/
  | li (m : Mark) (d : Reg) (i : BitVec 16)
  /-- Replaces bits 63:48 of the register with imm16. (R109) -/
  | lih (m : Mark) (d : Reg) (i : BitVec 16)
  /-- Forms the global tile-space address of a coordinate plus offset. (R110) -/
  | gadr (m : Mark) (d : Reg) (a : Reg) (i : BitVec 11)
  /-- Converts an address in the own tile slot to its local alias, or all ones. (R111) -/
  | ladr (m : Mark) (d : Reg) (a : Reg) (i : BitVec 11)
  /-- Unconditional relative branch. (R112) -/
  | br (m : Mark) (h : BitVec 2) (o : BitVec 16)
  /-- Branches if g(c) is nonzero. (R112) -/
  | bc (m : Mark) (h : BitVec 2) (c : BitVec 3) (o : BitVec 16)
  /-- Branches if g(c) is zero. (R112) -/
  | bcZ (m : Mark) (h : BitVec 2) (c : BitVec 3) (o : BitVec 16)
  /-- Branches if guard q(c) is true, holding the slot while it is pending. (R112) -/
  | bg (m : Mark) (h : BitVec 2) (c : BitVec 3) (o : BitVec 16)
  /-- Branches if guard q(c) is false, holding the slot while it is pending. (R112) -/
  | bgF (m : Mark) (h : BitVec 2) (c : BitVec 3) (o : BitVec 16)
  /-- Relative call writing the return address to g31. (R112) -/
  | call (m : Mark) (h : BitVec 2) (o : BitVec 16)
  /-- Calls a register target, writing the link. (R114) -/
  | callr (m : Mark) (d : Reg) (a : Reg)
  /-- Returns to a register target, predicted from earlier calls. (R114) -/
  | ret (m : Mark) (a : Reg)
  /-- Jumps to a register target. (R114) -/
  | jmpr (m : Mark) (a : Reg)
  /-- Jumps through a table of word offsets, or falls through when the index is out of range. (R116) -/
  | jtab (m : Mark) (d : Reg) (a : Reg) (n : BitVec 11)
  /-- Opens a hardware loop over the following L words, or skips the body on a zero count. (R117) -/
  | loop (m : Mark) (d : Reg) (l : BitVec 16)
  /-- Closes the innermost active loop. (R120) -/
  | lexit (m : Mark)
  /-- Suspension point that passes the slot to the next ready thread. (R121) -/
  | yield (m : Mark)
  /-- Writes a new lone-thread record with release and queues it. (R122) -/
  | spawn (m : Mark) (d : Reg) (a : Reg) (b : Reg) (p : BitVec 2)
  /-- Ends the thread, which leaves its slot with STATE EXITED. (R123) -/
  | exit (m : Mark)
  /-- Long-latency load of 1-8 bytes, decoded by element format. (R126) -/
  | ld (m : Mark) (d : Reg) (b : Reg) (z : BitVec 3) (o : BitVec 8)
  /-- Stores the low bytes of a register. (R126) -/
  | st (m : Mark) (d : Reg) (b : Reg) (z : BitVec 3) (o : BitVec 8)
  /-- Loads from the own tile SRAM by local alias. (R129) -/
  | ldl (m : Mark) (d : Reg) (b : Reg) (z : BitVec 3) (o : BitVec 8)
  /-- Stores to the own tile SRAM by local alias. (R129) -/
  | stl (m : Mark) (d : Reg) (b : Reg) (z : BitVec 3) (o : BitVec 8)
  /-- Indexed long-latency load. (R126) -/
  | ldx (m : Mark) (d : Reg) (b : Reg) (z : BitVec 3) (i : Reg)
  /-- Indexed store. (R126) -/
  | stx (m : Mark) (d : Reg) (b : Reg) (z : BitVec 3) (i : Reg)
  /-- Aligned load with acquire at a named scope. (R128) -/
  | lda (m : Mark) (d : Reg) (b : Reg) (z : BitVec 3) (c : BitVec 3) (o : BitVec 5)
  /-- Aligned store with release at a named scope. (R128) -/
  | strel (m : Mark) (d : Reg) (b : Reg) (z : BitVec 3) (c : BitVec 3) (o : BitVec 5)
  /-- Copies bytes as an ascending byte loop, interruptible at byte boundaries. (R131) -/
  | bmov (m : Mark) (d : Reg) (a : Reg) (b : Reg)
  /-- Fills bytes with a value as an ascending byte loop. (R131) -/
  | bfill (m : Mark) (d : Reg) (a : Reg) (b : Reg)
  /-- Loads 128 contiguous bytes into a vector, optionally decoded. (R136) -/
  | vld (m : Mark) (d : Reg) (a : Reg) (b : Reg) (l : BitVec 1)
  /-- Stores 128 contiguous bytes from a vector. (R136) -/
  | vst (m : Mark) (d : Reg) (a : Reg) (b : Reg) (l : BitVec 1)
  /-- Strided vector load. (R136) -/
  | vlds (m : Mark) (d : Reg) (a : Reg) (b : Reg) (l : BitVec 1) (w : BitVec 2)
  /-- Strided vector store. (R136) -/
  | vsts (m : Mark) (d : Reg) (a : Reg) (b : Reg) (l : BitVec 1) (w : BitVec 2)
  /-- Long-latency indexed gather. (R136) -/
  | vgth (m : Mark) (d : Reg) (a : Reg) (b : Reg) (l : BitVec 1) (w : BitVec 2)
  /-- Indexed scatter in increasing lane order. (R136) -/
  | vsct (m : Mark) (d : Reg) (a : Reg) (b : Reg) (l : BitVec 1) (w : BitVec 2)
  /-- Broadcasts a g register into every lane. (R139) -/
  | vbcst (m : Mark) (d : Reg) (a : Reg) (e : BitVec 3)
  /-- Extracts one lane into a g register. (R139) -/
  | vext (m : Mark) (d : Reg) (a : Reg) (b : Reg) (e : BitVec 3)
  /-- Lane-wise wrapping integer add. (R140) -/
  | vadd (m : Mark) (d : Reg) (a : Reg) (b : Reg) (e : BitVec 3)
  /-- Lane-wise wrapping integer subtract. (R140) -/
  | vsub (m : Mark) (d : Reg) (a : Reg) (b : Reg) (e : BitVec 3)
  /-- Lane-wise wrapping integer multiply. (R140) -/
  | vmul (m : Mark) (d : Reg) (a : Reg) (b : Reg) (e : BitVec 3)
  /-- Lane-wise wrapping multiply-add into the destination. (R140) -/
  | vmad (m : Mark) (d : Reg) (a : Reg) (b : Reg) (e : BitVec 3)
  /-- Lane-wise integer minimum. (R140) -/
  | vmin (m : Mark) (d : Reg) (a : Reg) (b : Reg) (e : BitVec 3)
  /-- Lane-wise integer maximum. (R140) -/
  | vmax (m : Mark) (d : Reg) (a : Reg) (b : Reg) (e : BitVec 3)
  /-- Lane-wise wrapping absolute value. (R140) -/
  | vabs (m : Mark) (d : Reg) (a : Reg) (e : BitVec 3)
  /-- Lane-wise wrapping negation. (R140) -/
  | vneg (m : Mark) (d : Reg) (a : Reg) (e : BitVec 3)
  /-- Bitwise AND of two vectors. (R140) -/
  | vand (m : Mark) (d : Reg) (a : Reg) (b : Reg)
  /-- Bitwise OR of two vectors. (R140) -/
  | vor (m : Mark) (d : Reg) (a : Reg) (b : Reg)
  /-- Bitwise XOR of two vectors. (R140) -/
  | vxor (m : Mark) (d : Reg) (a : Reg) (b : Reg)
  /-- Lane-wise shift left. (R140) -/
  | vshl (m : Mark) (d : Reg) (a : Reg) (b : Reg) (e : BitVec 3)
  /-- Lane-wise logical shift right. (R140) -/
  | vshr (m : Mark) (d : Reg) (a : Reg) (b : Reg) (e : BitVec 3)
  /-- Lane-wise arithmetic shift right. (R140) -/
  | vsra (m : Mark) (d : Reg) (a : Reg) (b : Reg) (e : BitVec 3)
  /-- Lane-wise compare writing an all-ones or zero mask. (R141) -/
  | vcmp (m : Mark) (d : Reg) (a : Reg) (c : BitVec 5) (e : BitVec 3)
  /-- Bitwise select of two vectors under the destination mask. (R141) -/
  | vsel (m : Mark) (d : Reg) (a : Reg) (b : Reg)
  /-- Permutes lanes by an index vector. (R139) -/
  | vperm (m : Mark) (d : Reg) (a : Reg) (b : Reg) (e : BitVec 3)
  /-- Inserts a g register value into one lane. (R139) -/
  | vins (m : Mark) (d : Reg) (a : Reg) (b : Reg) (e : BitVec 3)
  /-- Reduces all lanes into lane 0 by the kind named. (R142) -/
  | vred (m : Mark) (d : Reg) (a : Reg) (k : BitVec 5) (e : BitVec 3)
  /-- Lane-wise floating add, rounded once. (R143) -/
  | vfadd (m : Mark) (d : Reg) (a : Reg) (b : Reg) (e : BitVec 3)
  /-- Lane-wise floating subtract. (R143) -/
  | vfsub (m : Mark) (d : Reg) (a : Reg) (b : Reg) (e : BitVec 3)
  /-- Lane-wise floating multiply. (R143) -/
  | vfmul (m : Mark) (d : Reg) (a : Reg) (b : Reg) (e : BitVec 3)
  /-- Lane-wise fused multiply-add into the destination. (R143) -/
  | vfma (m : Mark) (d : Reg) (a : Reg) (b : Reg) (e : BitVec 3)
  /-- Lane-wise floating minimum. (R143) -/
  | vfmin (m : Mark) (d : Reg) (a : Reg) (b : Reg) (e : BitVec 3)
  /-- Lane-wise floating maximum. (R143) -/
  | vfmax (m : Mark) (d : Reg) (a : Reg) (b : Reg) (e : BitVec 3)
  /-- Correctly rounded lane-wise reciprocal. (R143) -/
  | vrcp (m : Mark) (d : Reg) (a : Reg) (e : BitVec 3)
  /-- Correctly rounded lane-wise reciprocal square root. (R143) -/
  | vrsq (m : Mark) (d : Reg) (a : Reg) (e : BitVec 3)
  /-- Converts lanes between integer and floating types. (R144) -/
  | vcvt (m : Mark) (d : Reg) (a : Reg) (b : Reg) (e : BitVec 3)
  /-- Narrows two vectors into one. (R145) -/
  | vpack (m : Mark) (d : Reg) (a : Reg) (b : Reg) (e : BitVec 3)
  /-- Widens one half of a vector exactly. (R145) -/
  | vunpk (m : Mark) (d : Reg) (a : Reg) (b : Reg) (e : BitVec 3)
  /-- Quantises 32 f32 lanes to an 8-bit format with an sx8 block scale. (R147) -/
  | vscl (m : Mark) (d : Reg) (a : Reg) (b : Reg) (e : BitVec 3)
  /-- Checks operands and queues a 32x32 matrix multiply-accumulate command. (R153) -/
  | mma (m : Mark) (q : BitVec 3) (c : BitVec 2) (a : Reg) (b : Reg) (k : BitVec 5)
  /-- Sends a matrix command to another tile under a capability. (R159) -/
  | mmar (m : Mark) (q : BitVec 3) (c : BitVec 2) (a : Reg) (b : Reg) (k : BitVec 5)
  /-- Queues a command that zeroes an accumulator and its flags. (R161) -/
  | mzero (m : Mark) (q : BitVec 3) (a : Reg)
  /-- Suspends until the thread's commands on the masked accumulators complete. (R161) -/
  | mwait (m : Mark) (m : BitVec 5)
  /-- Delivers an accumulator watermark sampled at the park. (R161) -/
  | mwm (m : Mark) (a : Reg) (b : Reg)
  /-- Writes one plane group from a vector to local SRAM. (R162) -/
  | mpln (m : Mark) (a : Reg) (b : Reg) (c : BitVec 5)
  /-- Queues a command pushing scale entries into the scale queue. (R163) -/
  | mscl (m : Mark) (q : BitVec 3) (a : Reg) (b : Reg) (c : BitVec 5)
  /-- Sends loft scale entries to listed tiles. (R164) -/
  | scalemc (m : Mark) (q : BitVec 3) (a : Reg) (b : Reg) (c : BitVec 5)
  /-- Converts accumulator rows to SRAM, locally or remotely. (R165) -/
  | acvt (m : Mark) (q : BitVec 3) (a : Reg) (b : Reg) (c : BitVec 5)
  /-- Drains and saves an accumulator image and releases ownership. (R166) -/
  | msave (m : Mark) (a : Reg) (b : Reg)
  /-- Restores an accumulator image and its owner and flags. (R166) -/
  | mrest (m : Mark) (a : Reg) (b : Reg)
  /-- Mints a capability, bumps the epoch and binds the host. (R158) -/
  | capmint (m : Mark) (a : Reg) (b : Reg)
  /-- Atomic wrapping add. (R168) -/
  | aadd (m : Mark) (d : Reg) (a : Reg) (b : Reg) (o : BitVec 2) (x : BitVec 2) (w : BitVec 1)
  /-- Atomic AND. (R168) -/
  | aand (m : Mark) (d : Reg) (a : Reg) (b : Reg) (o : BitVec 2) (x : BitVec 2) (w : BitVec 1)
  /-- Atomic OR. (R168) -/
  | aor (m : Mark) (d : Reg) (a : Reg) (b : Reg) (o : BitVec 2) (x : BitVec 2) (w : BitVec 1)
  /-- Atomic XOR. (R168) -/
  | axor (m : Mark) (d : Reg) (a : Reg) (b : Reg) (o : BitVec 2) (x : BitVec 2) (w : BitVec 1)
  /-- Atomic swap. (R168) -/
  | aswp (m : Mark) (d : Reg) (a : Reg) (b : Reg) (o : BitVec 2) (x : BitVec 2) (w : BitVec 1)
  /-- Atomic minimum, signed or unsigned by sub. (R168) -/
  | amin (m : Mark) (d : Reg) (a : Reg) (b : Reg) (o : BitVec 2) (x : BitVec 2) (w : BitVec 1) (n : BitVec 1)
  /-- Atomic maximum, signed or unsigned by sub. (R168) -/
  | amax (m : Mark) (d : Reg) (a : Reg) (b : Reg) (o : BitVec 2) (x : BitVec 2) (w : BitVec 1) (n : BitVec 1)
  /-- Atomic compare-and-swap. (R168) -/
  | acas (m : Mark) (d : Reg) (a : Reg) (b : Reg) (o : BitVec 2) (x : BitVec 2) (w : BitVec 1)
  /-- Atomic f32 add returning its flags. (R168) -/
  | afadd (m : Mark) (d : Reg) (a : Reg) (b : Reg) (o : BitVec 2) (x : BitVec 2)
  /-- Stores data then increments an 8-byte flag once the data are visible at fabric scope. (R171) -/
  | fst (m : Mark) (d : Reg) (a : Reg) (b : Reg) (z : BitVec 2)
  /-- Copies a block as if staged, then increments a flag. (R171) -/
  | fblk (m : Mark) (d : Reg) (a : Reg) (b : Reg)
  /-- Holds the slot until earlier accesses of the named kinds are ordered at the scope. (R172) -/
  | fence (m : Mark) (k : BitVec 5) (c : BitVec 3)
  /-- Orders local-alias and own global tile accesses against each other. (R172) -/
  | lbfence (m : Mark)
  /-- Member arrival at the superstep boundary with a vote. (R173) -/
  | sync (m : Mark) (q : BitVec 3) (a : Reg) (b : Reg)
  /-- Arrives at the gang barrier. (R177) -/
  | gbar (m : Mark)
  /-- Waits until an 8-byte word meets a condition, acquiring at a scope. (R178) -/
  | waita (m : Mark) (a : Reg) (b : Reg) (c : BitVec 5)
  /-- Wakes every waiter on the named word's line. (R179) -/
  | wake (m : Mark) (a : Reg)
  /-- Opens a packet or appends a beat. (R180) -/
  | send (m : Mark) (a : Reg) (b : Reg)
  /-- Appends the last beat and sends the packet whole with release. (R180) -/
  | sende (m : Mark) (q : BitVec 3) (a : Reg) (b : Reg)
  /-- Takes the oldest beat of the domain's receive queue, polling or holding. (R182) -/
  | recv (m : Mark) (a : Reg) (b : Reg) (c : BitVec 5)
  /-- Opens the exchange phase with the selected variant. (R174) -/
  | exch (m : Mark)
  /-- Checks a compact record and pins the member's scratch ranges. (R175) -/
  | sign (m : Mark) (a : Reg)
  /-- Member arrival at dissolution of the compact. (R176) -/
  | dissolve (m : Mark)
  /-- Sets a guard true or false from a register. (R183) -/
  | gset (m : Mark) (q : BitVec 3) (a : Reg)
  /-- Suspends until a guard is no longer pending. (R184) -/
  | gwait (m : Mark) (q : BitVec 3)
  /-- Writes the thread's checkpoint and arrives at the seal of its interval. (R200) -/
  | seal (m : Mark)
  /-- Holds the slot until a named interval is sealed. (R201) -/
  | sealw (m : Mark) (a : Reg)
  /-- Submits a copy card to the bay's copy engine and returns a handle. (R189) -/
  | job (m : Mark) (q : BitVec 3) (a : Reg) (b : Reg)
  /-- Waits for a job to end and retires it. (R191) -/
  | jobw (m : Mark) (a : Reg)
  /-- Reports a job's state and retires an ended job. (R191) -/
  | jobq (m : Mark) (a : Reg) (b : Reg)
  /-- Cancels a job. (R191) -/
  | jobx (m : Mark) (a : Reg)
  /-- Binds a region window under a window card. (R193) -/
  | wbind (m : Mark) (a : Reg) (b : Reg)
  /-- Unbinds a region window. (R194) -/
  | wdrop (m : Mark) (a : Reg)
  /-- Reports a window's state and last fill CODE. (R194) -/
  | wstat (m : Mark) (a : Reg) (b : Reg)
  /-- Submits a collective card to the die's collective engine. (R195) -/
  | coll (m : Mark) (q : BitVec 3) (a : Reg) (b : Reg)
  /-- Submits a task card to the die's task unit. (R197) -/
  | task (m : Mark) (a : Reg) (b : Reg)
  /-- Completes the task thread's node and releases its successors. (R198) -/
  | tdone (m : Mark)
  /-- Invalidates cached copies of a range, dropping dirty data. (R199) -/
  | discard (m : Mark) (a : Reg) (b : Reg)
  /-- Writes back dirty sectors of a range. (R199) -/
  | cwb (m : Mark) (a : Reg) (b : Reg)
  /-- Writes back and invalidates a range. (R199) -/
  | cinv (m : Mark) (a : Reg) (b : Reg)
  /-- Raises the software-trap cause. (R208) -/
  | trap (m : Mark) (n : BitVec 15)
  /-- Raises a service call to the next higher mode. (R208) -/
  | svc (m : Mark) (n : BitVec 15)
  /-- Returns from the executing trap mode. (R209) -/
  | eret (m : Mark)
  /-- Enters a call gate of another resident domain. (R211) -/
  | gate (m : Mark) (a : Reg)
  /-- Ends the open gate call and returns RET registers. (R212) -/
  | gret (m : Mark)
  /-- Stops and saves the thread of a named slot without queueing it. (R213) -/
  | ctxsv (m : Mark) (d : Reg) (a : Reg)
  /-- Claims and loads a record into a free slot. (R213) -/
  | ctxld (m : Mark) (d : Reg) (a : Reg)
  /-- Invalidates the partition's translations of one address. (R214) -/
  | tlbiPage (m : Mark) (a : Reg)
  /-- Invalidates every translation of a partition. (R214) -/
  | tlbiPart (m : Mark) (b : Reg)
  /-- Invalidates every translation of the package. (R214) -/
  | tlbiAll (m : Mark)
  /-- H-mode halt instruction. (R203) -/
  | halt (m : Mark)
  /-- Sets the watchdog period of a thread slot. (R215) -/
  | wdog (m : Mark) (a : Reg) (b : Reg)
  /-- Ends a thread context and its outstanding work. (R216) -/
  | kill (m : Mark) (a : Reg)
  /-- Ends every context of a domain. (R216) -/
  | killDom (m : Mark) (a : Reg)
  /-- Splits a partition into its two children. (R294) -/
  | pcfgSplit (m : Mark) (d : Reg) (a : Reg) (b : Reg)
  /-- Merges two sibling partitions into their parent. (R294) -/
  | pcfgMerge (m : Mark) (d : Reg) (a : Reg) (b : Reg)
  /-- Creates a partition at a node. (R294) -/
  | pcfgCreate (m : Mark) (d : Reg) (a : Reg) (b : Reg)
  /-- Destroys an idle unbound partition. (R294) -/
  | pcfgDestroy (m : Mark) (d : Reg) (a : Reg) (b : Reg)
  /-- Binds a function to a partition. (R294) -/
  | pcfgBind (m : Mark) (d : Reg) (a : Reg) (b : Reg)
  /-- Unbinds a function with no work. (R294) -/
  | pcfgUnbind (m : Mark) (d : Reg) (a : Reg) (b : Reg)
  /-- Loads a function's configuration block. (R218) -/
  | vfcfg (m : Mark) (d : Reg) (a : Reg) (b : Reg)
  /-- Writes a domain partition register of a tile. (R219) -/
  | domcfgWrite (m : Mark) (d : Reg) (a : Reg) (b : Reg)
  /-- Replaces WEIGHT and CWAY of a valid domain partition register. (R219) -/
  | domcfgAdjust (m : Mark) (d : Reg) (a : Reg) (b : Reg)
  /-- Invalidates a domain partition register and writes back its banks. (R219) -/
  | domcfgClear (m : Mark) (d : Reg) (a : Reg) (b : Reg)
  /-- Sets a function's L2 fill way mask in every slice. (R220) -/
  | l2msk (m : Mark) (a : Reg) (b : Reg)
  /-- Joins the package to a clock group. (R221) -/
  | clkj (m : Mark) (d : Reg) (a : Reg)
  /-- Leaves the current clock group. (R221) -/
  | clkl (m : Mark) (d : Reg)
  /-- Starts a capacity block move to a gaining partition. (R222) -/
  | memblkOffer (m : Mark) (d : Reg) (a : Reg) (b : Reg)
  /-- Returns a capacity block's move state. (R222) -/
  | memblkQuery (m : Mark) (d : Reg) (a : Reg) (b : Reg)
  /-- Cancels a block move before its scrub begins. (R222) -/
  | memblkCancel (m : Mark) (d : Reg) (a : Reg) (b : Reg)
  /-- Reads a state register into a g register. (R204) -/
  | mfs (m : Mark) (d : Reg) (r : BitVec 11)
  /-- Writes a state register from a g register. (R204) -/
  | mts (m : Mark) (a : Reg) (r : BitVec 11)
  /-- Hint word that widens the immediate of its group's instruction. (R81) -/
  | himm (v : Bool) (i : BitVec 21)
  /-- Hint word carrying irrevocable, element-format and cache-policy modifiers. (R82) -/
  | hmod (v : Bool) (r : BitVec 1) (e : BitVec 1) (f : BitVec 4) (c : BitVec 2)
  /-- Timing-only scheduling hint, including an early window fill. (R83) -/
  | hsched (v : Bool) (a : Reg) (k : BitVec 3)
  /-- A write of a capacity block's ownership register, applied only under its conditions. (R297) -/
  | bownWrite (b : Nat) (x : Word)
  /-- A function acknowledges a block move step through MBACK. (R299) -/
  | mbackAck (f : Nat) (x : Word)
  /-- Setting BF.CFG.EN trains the port and joins the domain. (R321) -/
  | bfEnable
  /-- Clearing BF.CFG.EN leaves the domain in order or is refused. (R331) -/
  | bfLeave
  /-- A write of an endpoint table entry, ignored where it breaks the map. (R332) -/
  | eptWrite (f p w : Nat) (x : Word)
  /-- The host writes its ceiling level to CK.HCTL. (R334) -/
  | hceilWrite (level : Nat)
  /-- A CK.HCTL write with EV removes a member from the clock group. (R334) -/
  | ckEvict (m : Nat)
  /-- PW.CTL write of RUN restarts clocks and ports. (R343) -/
  | pwRun
  /-- PW.CTL write of HOLD requests all arithmetic clocks stopped. (R343) -/
  | pwHold
  /-- PW.CTL write of LOW requests HOLD with ports down. (R343) -/
  | pwLow
  /-- A write of SP.TRET retires a tile with no valid domain register. (R347) -/
  | spTret (x : Word)
  /-- A write of an MMIO or VCP register with no row of its own, narrow writes merged. (R348) -/
  | registerWrite (off n : Nat) (x : Word)
  /-- The issue of a word with V = 10 or 11, an illegal major opcode or an undefined selector takes the illegal-encoding trap. (R79) -/
  | illegalEncoding (w : BitVec 32)
  /-- A fetch whose target is non-canonical or fails translation takes the trap at the target address. (R115) -/
  | instructionFetchFault (va : Word)
  /-- A tile claims a RUNNABLE record into a free slot by compare-and-swap and loads it. (R28) -/
  | recordClaim (tid : Nat)
  /-- Once outstanding results and matrix commands complete, the thread's window, state block and record are written. (R29) -/
  | leaveSlot (tid : Nat)
  /-- At the next pre-emption boundary the thread's results are written, context saved and record requeued. (R48) -/
  | preemption (tid : Nat)
  /-- The slot watchdog period elapses and the slot-watchdog trap is taken. (R33) -/
  | slotWatchdogExpiry (tid : Nat)
  /-- SENDE not issued 65,536 cycles after expiry closes the packet with an abort marker. (R33) -/
  | packetAbort (tid : Nat)
  /-- When every outstanding result of a run has returned, they are written in program order and the thread is ready. (R34) -/
  | parkComplete (tid : Nat)
  /-- A pending asynchronous cause is taken at the thread's next pre-emption boundary. (R312) -/
  | asyncCause (tid : Nat)
  /-- A remote store's acknowledgement arrives, performing it or carrying its refusal. (R324) -/
  | storeAck (tag : Nat) (st : Reply)
  /-- An access from another package arrives and is served at the target. (R326) -/
  | remoteRequest (kind : ReqKind) (pa dom : Nat) (src : Nat × Nat) (rin : Nat) (data : List Byte)
  /-- A coherence request is ordered at the line's home directory and served. (R14) -/
  | directoryRequest (kind : AccKind) (tile dom pa : Nat)
  /-- Room freed in a full larder lets a held store proceed. (R271) -/
  | larderRoom (tid : Nat)
  /-- A WAITA pending 4,096 cycles leaves its slot onto the line's wait list. (R178) -/
  | waitaSuspend (tid : Nat)
  /-- A walker completes a translation of a missed address, filling the TLB or reporting a fault. (R230) -/
  | pageWalk (tid : Nat) (kind : AccKind) (va : Word)
  /-- When all members arrived and no exchange is in flight, the boundary applies writes, vote, deferred reads and resumes. (R44) -/
  | compactBoundary (bar : Nat) (votes : List (Nat × Nat))
  /-- A pre-empted compact is pinned again from home and resumes. (R47) -/
  | compactResume (bar : Nat)
  /-- When every member has executed DISSOLVE, pins are published as owned lines and banks return to cache. (R46) -/
  | dissolveAllArrived (bar : Nat)
  /-- An exchange entry's bytes land at the destination member. (R43) -/
  | exchangeWrite (bar : Nat) (dst : Nat × Nat) (data : List Byte) (flag : Option Nat) (src : Option (Nat × Nat))
  /-- An Ethernet exchange still in flight XTO after the last arrival faults the compact. (R173) -/
  | xtimeout (bar : Nat)
  /-- The matrix unit accepts one queued or received command. (R151) -/
  | matrixAccept (tile : Nat)
  /-- When every part of a seal is done on a package, the steward sends PREPARED. (R268) -/
  | prepare (node : Nat)
  /-- A package receives COMMIT, sets CMT and acknowledges. (R268) -/
  | commit (node : Nat)
  /-- The coordinator receives an acknowledgement and, with all in, sets CMT and broadcasts SEALED. (R268) -/
  | commitAck (node pkg : Nat)
  /-- A package frees the cellar, advances RIN, resumes arrived threads and releases the larder. (R268) -/
  | sealed (node : Nat)
  /-- SEALTO expiry pre-empts resident laggards of the group. (R267) -/
  | sealTimeout (node : Nat)
  /-- A detected uncorrectable error or loss rolls the group back to its last seal. (R273) -/
  | rollback (node : Nat) (cause pkg loc : Nat)
  /-- A forced seal not committed after 64 SEALTO replays the partition. (R277) -/
  | replay (node : Nat)
  /-- A command not completed within HTO posts HANG and replays the partition. (R292) -/
  | hang (fn q : Nat)
  /-- A write to VCP.NOTIFY marks queues pending. (R280) -/
  | vcpNotify (fn : Nat) (mask : BitVec 8)
  /-- The steward serves a pending queue, checking it and starting commands up to the snapshot. (R280) -/
  | queuePass (fn q : Nat)
  /-- Command that completes at once. (R282) -/
  | nop (fn q : Nat)
  /-- Command that creates and queues N lone threads of a kernel. (R283) -/
  | launch (fn q : Nat)
  /-- Command that creates a compact's member threads on this package and sets the loft. (R284) -/
  | claunch (fn q : Nat)
  /-- Command that waits for earlier commands and writes the ring index and RIN. (R282) -/
  | qfence (fn q : Nat)
  /-- Command that waits for earlier commands and stores a value with release. (R282) -/
  | signal (fn q : Nat)
  /-- Command that holds the queue until a word reaches a value. (R282) -/
  | wait (fn q : Nat)
  /-- When every launched thread is EXITED or FAULTED the status word is written. (R283) -/
  | launchComplete (fn q : Nat)
  /-- Every 8 us all budgets renew and waiting requests proceed. (R289) -/
  | budgetPeriod
  /-- At a slice end the outgoing function is pre-empted and the next one dispatched. (R290) -/
  | sliceChange (node : Nat)
  /-- A move step's acknowledgement deadline expires and the move reverts. (R301) -/
  | moveDeadline (b : Nat)
  /-- A block's scrub completes and the move awaits the gaining guest. (R300) -/
  | scrubDone (b : Nat)
  /-- A function-level reset stops the function's work and resets its VCP page. (R310) -/
  | flr (f : Nat)
  /-- A flit arrives and is checked, negatively acknowledged on failure. (R325) -/
  | flitReceive (peer lane : Nat) (good : Bool) (tag : Nat) (st : Reply) (data : List Byte)
  /-- A flit still failing after 16 retries in 20 us is lost beyond retry. (R325) -/
  | flitLost (tag : Nat)
  /-- Every 10 us each package sends a heartbeat to every peer. (R330) -/
  | heartbeat
  /-- A package silent for 50 us, or named by the relay rule, is declared dead. (R330) -/
  | packageDead (p : Nat)
  /-- Port training completes, or fails on duplicate PKG. (R321) -/
  | linkTraining (peers : List Nat) (dup : Bool)
  /-- A transport-declared connection failure faults the compact with XTIMEOUT. (R333) -/
  | uetConnectionFailed (bar : Nat)
  /-- At each 10 us tick AGR is recomputed and CUR follows. (R335) -/
  | clockTick
  /-- A member's ceiling announcement arrives. (R335) -/
  | clockAnnouncement (m level : Nat)
  /-- Every 50 us a member repeats its ceiling. (R335) -/
  | clockHeartbeat
  /-- A member silent 250 us drops the group to level 0 and posts CLOCK_SILENT. (R337) -/
  | clockSilent (m : Nat)
  /-- A silent member is removed after 10 ms more silence. (R337) -/
  | silentRemoval (m : Nat)
  /-- CLKJ without agreement within 250 us returns status 2. (R221) -/
  | clockJoinTimeout (tid : Nat)
  /-- TJ at or above 105 C or low flow takes the package to level 0. (R344) -/
  | thermalTrip
  /-- TJ at or above 115 C stops every clock and posts OVERHEAT. (R344) -/
  | overheat (tj : Nat)
  /-- Cold reset or PERST# runs the boot sequence. (R340) -/
  | coldReset
  /-- H-mode update writes the idle slot and may raise the minimum version. (R341) -/
  | firmwareUpdate (ver : Nat) (verified raiseMin : Bool)
  /-- SPDM request answered with signed measurement blocks. (R342) -/
  | getMeasurements (index : Nat)
  /-- A requested HOLD or LOW takes effect once every partition is idle. (R343) -/
  | powerStateReached
  /-- A DRAM row with 64 correctable errors in 24 h is spared in place. (R346) -/
  | rowSpare (pa : Nat)
  /-- A BAR0 request outside the VF's IDE stream in RUN completes with UR. (R339) -/
  | unsupportedRequest (f : Nat)
  /-- GBAR completes when every non-exited gang member has arrived. (R177) -/
  | gangBarrierComplete (tile gang : Nat)
  /-- An on-package access by global tile address arrives at the target tile and is served on its SRAM bytes, or refused. (R237) -/
  | globalTileSpaceRequest (kind : AccKind) (tile off dom : Nat) (data : List Byte)
  /-- The target's acceptance or refusal of a packet returns to the sender and resolves its SENDE result guard. (R180) -/
  | sendeAcknowledgement (tid : Nat)
  /-- The targets' acceptance or refusal of scale entries returns to the scale server and resolves the SCALEMC guard. (R164) -/
  | scalemcAcknowledgement (tid : Nat)
  /-- The stewards test each lane on wavelength 0, and a lane failing three checks within 1 ms is failed and spared. (R328) -/
  | laneTest (peer lane : Nat) (good : Bool)
  /-- Sparing of a failed lane onto planes 46 or 47 completes within 200 us, and in-flight flits run on the spare. (R328) -/
  | laneSparingComplete (peer : Nat)
  /-- A TDISP message from the host moves a VF's device interface into CONFIG_LOCKED, RUN or out of ERROR, or returns its interface report. (R339) -/
  | tdispRequest (f : Nat) (msg : TdispMsg)
  /-- An IDE_KM message over SPDM on the PF's DOE mailbox programs or activates keys of the link or selective IDE streams. (R339) -/
  | ideKmRequest (stream : Nat) (go : Bool)
  /-- A PCI Express configuration request is completed with Request Retry Status during boot, or otherwise served, including SR-IOV enabling of VFs. (R340) -/
  | configurationRequest (fn off : Nat) (write : Bool) (x : BitVec 32)
  /-- A waiting chunk takes its arriving scale entry and runs. (R154) -/
  | takeScale (tile : Nat)
  /-- A command's rows are written and the watermark steps to 32. (R151) -/
  | matrixCommandComplete (tile : Nat)
  /-- A target checks a received MMAR and accepts or refuses it. (R159) -/
  | mmarReceive (tile : Nat)
  /-- The refusal or acceptance status returns and resolves the sender's guard. (R159) -/
  | mmarStatus (tid : Nat)
  /-- A target tags and queues arriving scale entries or refuses them. (R164) -/
  | scaleMessage (tile : Nat)
  /-- A target checks a remote ACVT and converts the host's rows. (R165) -/
  | acvtRemote (tile : Nat)
  /-- Converted rows arrive in the sender's SRAM and its guard resolves. (R165) -/
  | acvtReply (tid : Nat)
  /-- A target accepts a whole packet into the receive queue when room allows. (R182) -/
  | packetAccept (tid : Nat) (arr : Option Arrival)
  /-- A copy engine accepts one submission per cycle round-robin and issues a job identifier. (R13) -/
  | copyEngineAccept (eng : Nat)
  /-- An engine starts a job: acquire, card read, validation, footprint check and payload. (R186) -/
  | jobStart (eng : Nat)
  /-- After the payload, the job's completion actions run and the status is written. (R186) -/
  | completionAction (eng : Nat)
  /-- The task unit writes a pantry node's record and places its thread. (R197) -/
  | taskDispatch (die : Nat)
  /-- A window fill ends DONE or FAULT and parked threads retry or trap. (R193) -/
  | windowFillEnd (tile win : Nat)
  /-- The coordinator receives PREPARED and, when all have prepared, sends COMMIT. (R268) -/
  | prepared (node pkg : Nat)
  deriving DecidableEq, Repr

end Sys2Proof
end

