-- ==== Sys2Proof/WellFormed.lean ====
section
/-! DEFINITION. Which field values an encoding admits (07:R74-R85, 09, 11, 13, 15): the checks of R79 step 3 that
the fixed bits of a word do not already make. -/

namespace Sys2Proof

/-- The state-register numbers MFS and MTS know (15:R204). -/
def regNumberOk (n : Nat) : Bool :=
  n ≤ 0x00B || (0x010 ≤ n && n ≤ 0x012) || (0x020 ≤ n && n ≤ 0x02D) || (0x030 ≤ n && n ≤ 0x03B) ||
  (0x040 ≤ n && n ≤ 0x045) || (0x048 ≤ n && n ≤ 0x04D) || (0x060 ≤ n && n ≤ 0x06F) || n == 0x070 ||
  (0x080 ≤ n && n ≤ 0x08F) || (0x400 ≤ n && n ≤ 0x600)

/-- T = 1 is read in version 1 only, and there only some forms admit it (07:R73, R85). -/
def Mark.tOk (m : Mark) : Bool := !(m.v && m.t)


/-- The field values that the spec gives the row a meaning for (07:R79 step 3). A step of the machine that no word
encodes has no such fields. -/
def Instr.wellFormed (i : Instr) : Bool :=
  match i with
  | .add _ _ _ _ q => decide (q.toNat ≠ 3)
  | .sub _ _ _ _ q => decide (q.toNat ≠ 3)
  | .mul _ _ _ _ q => decide (q.toNat ≠ 3)
  | .mulh _ _ _ _ => true
  | .mulhn _ _ _ _ => true
  | .div _ _ _ _ => true
  | .divn _ _ _ _ => true
  | .rem _ _ _ _ => true
  | .remn _ _ _ _ => true
  | .min _ _ _ _ => true
  | .max _ _ _ _ => true
  | .minn _ _ _ _ => true
  | .maxn _ _ _ _ => true
  | .and _ _ _ _ => true
  | .or _ _ _ _ => true
  | .xor _ _ _ _ => true
  | .andn _ _ _ _ => true
  | .shl _ _ _ _ _ => true
  | .shr _ _ _ _ _ => true
  | .sra _ _ _ _ _ => true
  | .rol _ _ _ _ _ => true
  | .clz _ _ _ _ => true
  | .ctz _ _ _ _ => true
  | .popc _ _ _ _ => true
  | .sel _ _ _ _ => true
  | .cmp _ _ _ _ _ => true
  | .sext _ _ _ w => decide (w.toNat ≠ 3)
  | .zext _ _ _ w => decide (w.toNat ≠ 3)
  | .bfx _ _ _ _ _ => true
  | .bfi _ _ _ _ => true
  | .addi _ _ _ _ => true
  | .andi _ _ _ _ => true
  | .ori _ _ _ _ => true
  | .xori _ _ _ _ => true
  | .shli _ _ _ w n => decide ((w.toNat = 1 → n.toNat ≤ 31))
  | .shri _ _ _ w n => decide ((w.toNat = 1 → n.toNat ≤ 31))
  | .srai _ _ _ w n => decide ((w.toNat = 1 → n.toNat ≤ 31))
  | .cmpi _ _ _ _ => true
  | .li _ _ _ => true
  | .lih _ _ _ => true
  | .gadr _ _ _ _ => true
  | .ladr _ _ _ _ => true
  | .br m h _ => decide (h.toNat ≠ 3 ∧ m.tOk = true)
  | .bc m h c _ => decide (h.toNat ≠ 3 ∧ c.toNat ≠ 0 ∧ m.tOk = true)
  | .bcZ m h c _ => decide (h.toNat ≠ 3 ∧ c.toNat ≠ 0 ∧ m.tOk = true)
  | .bg m h _ _ => decide (h.toNat ≠ 3 ∧ m.tOk = true)
  | .bgF m h _ _ => decide (h.toNat ≠ 3 ∧ m.tOk = true)
  | .call m h _ => decide (h.toNat ≠ 3 ∧ m.tOk = true)
  | .callr m _ _ => decide (m.tOk = true)
  | .ret m _ => decide (m.tOk = true)
  | .jmpr m _ => decide (m.tOk = true)
  | .jtab m _ _ _ => decide (m.tOk = true)
  | .loop m d l => decide (d.toNat ≠ 0 ∧ 1 ≤ l.toNat ∧ l.toNat ≤ 8192 ∧ m.tOk = true)
  | .lexit m => decide (m.tOk = true)
  | .yield m => decide (m.tOk = true)
  | .spawn m _ _ _ _ => decide (m.tOk = true)
  | .exit m => decide (m.tOk = true)
  | .ld m _ _ z _ => decide (z.toNat ≠ 7 ∧ m.tOk = true)
  | .st m _ _ z _ => decide (z.toNat ≤ 3 ∧ m.tOk = true)
  | .ldl m _ _ z _ => decide (z.toNat ≠ 7 ∧ m.tOk = true)
  | .stl m _ _ z _ => decide (z.toNat ≤ 3 ∧ m.tOk = true)
  | .ldx m _ _ z _ => decide (z.toNat ≠ 7 ∧ m.tOk = true)
  | .stx m _ _ z _ => decide (z.toNat ≤ 3 ∧ m.tOk = true)
  | .lda m _ _ z c _ => decide (z.toNat ≠ 7 ∧ c.toNat ≠ 7 ∧ m.tOk = true)
  | .strel m _ _ z c _ => decide (z.toNat ≤ 3 ∧ c.toNat ≠ 7 ∧ m.tOk = true)
  | .bmov m d a b => decide (d.toNat ≠ 0 ∧ a.toNat ≠ 0 ∧ b.toNat ≠ 0 ∧ d ≠ a ∧ d ≠ b ∧ a ≠ b ∧ m.tOk = true)
  | .bfill m d a b => decide (d.toNat ≠ 0 ∧ b.toNat ≠ 0 ∧ d ≠ b ∧ a ≠ d ∧ a ≠ b ∧ m.tOk = true)
  | .vld m _ _ _ _ => decide (m.tOk = true)
  | .vst m _ _ _ _ => decide (m.tOk = true)
  | .vlds m _ _ _ _ _ => decide (m.tOk = true)
  | .vsts m _ _ _ _ _ => decide (m.tOk = true)
  | .vgth m _ _ _ _ _ => decide (m.tOk = true)
  | .vsct m _ _ _ _ _ => decide (m.tOk = true)
  | .vbcst m _ _ _ => decide (m.tOk = true)
  | .vext m _ _ _ _ => decide (m.tOk = true)
  | .vadd _ _ _ _ _ => true
  | .vsub _ _ _ _ _ => true
  | .vmul _ _ _ _ _ => true
  | .vmad _ _ _ _ _ => true
  | .vmin _ _ _ _ _ => true
  | .vmax _ _ _ _ _ => true
  | .vabs _ _ _ e => decide (e.toNat < 4)
  | .vneg _ _ _ _ => true
  | .vand _ _ _ _ => true
  | .vor _ _ _ _ => true
  | .vxor _ _ _ _ => true
  | .vshl _ _ _ _ _ => true
  | .vshr _ _ _ _ _ => true
  | .vsra _ _ _ _ _ => true
  | .vcmp _ _ _ c e => decide ((c.toNat ≤ 5 ∨ (16 ≤ c.toNat ∧ c.toNat ≤ 22 ∧ e.toNat < 3)))
  | .vsel _ _ _ _ => true
  | .vperm _ _ _ _ _ => true
  | .vins _ _ _ _ _ => true
  | .vred _ _ _ k e => decide ((k.toNat ≤ 5 ∨ (16 ≤ k.toNat ∧ k.toNat ≤ 18 ∧ e.toNat < 3)))
  | .vfadd _ _ _ _ e => decide (e.toNat < 3)
  | .vfsub _ _ _ _ e => decide (e.toNat < 3)
  | .vfmul _ _ _ _ e => decide (e.toNat < 3)
  | .vfma _ _ _ _ e => decide (e.toNat < 3)
  | .vfmin _ _ _ _ e => decide (e.toNat < 3)
  | .vfmax _ _ _ _ e => decide (e.toNat < 3)
  | .vrcp _ _ _ e => decide (e.toNat < 3)
  | .vrsq _ _ _ e => decide (e.toNat < 3)
  | .vcvt _ _ _ b e => decide (b.toNat / 16 * 8 + e.toNat ≤ 10 ∧ b.toNat % 16 ≤ 10)
  | .vpack _ _ _ _ _ => true
  | .vunpk _ _ _ b _ => decide (b.toNat < 2)
  | .vscl _ _ _ b e => decide (b.toNat ≤ 0x1E ∧ b.toNat % 8 ≠ 7 ∧ e.toNat ≤ 1)
  | .mma m _ _ _ _ _ => decide (m.tOk = true)
  | .mmar m _ _ _ _ k => decide (k.toNat ≠ 31 ∧ m.tOk = true)
  | .mzero m _ a => decide (a.toNat < 4 ∧ m.tOk = true)
  | .mwait m m5 => decide (m5.toNat < 16 ∧ m.tOk = true)
  | .mwm m _ b => decide (b.toNat < 4 ∧ m.tOk = true)
  | .mpln m _ _ _ => decide (m.tOk = true)
  | .mscl m _ _ _ c => decide (c.toNat < 4 ∧ m.tOk = true)
  | .scalemc m _ _ _ _ => decide (m.tOk = true)
  | .acvt m _ _ _ _ => decide (m.tOk = true)
  | .msave m _ b => decide (b.toNat < 4 ∧ m.tOk = true)
  | .mrest m _ b => decide (b.toNat < 4 ∧ m.tOk = true)
  | .capmint m _ _ => decide (m.tOk = true)
  | .aadd m _ _ _ _ _ _ => decide (m.tOk = true)
  | .aand m _ _ _ _ _ _ => decide (m.tOk = true)
  | .aor m _ _ _ _ _ _ => decide (m.tOk = true)
  | .axor m _ _ _ _ _ _ => decide (m.tOk = true)
  | .aswp m _ _ _ _ _ _ => decide (m.tOk = true)
  | .amin m _ _ _ _ _ _ _ => decide (m.tOk = true)
  | .amax m _ _ _ _ _ _ _ => decide (m.tOk = true)
  | .acas m _ _ _ _ _ _ => decide (m.tOk = true)
  | .afadd m _ _ _ _ _ => decide (m.tOk = true)
  | .fst m _ _ _ _ => decide (m.tOk = true)
  | .fblk m d a b => decide (b.toNat ≠ 31 ∧ d.toNat ≠ 0 ∧ a.toNat ≠ 0 ∧ b.toNat ≠ 0 ∧ d ≠ a ∧ d ≠ b ∧ a ≠ b ∧ d.toNat ≠ b.toNat + 1 ∧ a.toNat ≠ b.toNat + 1 ∧ m.tOk = true)
  | .fence m k c => decide (k.toNat ≤ 2 ∧ c.toNat ≠ 7 ∧ m.tOk = true)
  | .lbfence m => decide (m.tOk = true)
  | .sync m _ _ b => decide (b.toNat ≤ 2 ∧ m.tOk = true)
  | .gbar m => decide (m.tOk = true)
  | .waita m _ _ c => decide (c.toNat / 4 ≠ 7 ∧ m.tOk = true)
  | .wake m _ => decide (m.tOk = true)
  | .send m _ _ => decide (m.tOk = true)
  | .sende m _ _ _ => decide (m.tOk = true)
  | .recv m _ _ c => decide (c.toNat ≤ 1 ∧ m.tOk = true)
  | .exch m => decide (m.tOk = true)
  | .sign m _ => decide (m.tOk = true)
  | .dissolve m => decide (m.tOk = true)
  | .gset m _ _ => decide (m.tOk = true)
  | .gwait m _ => decide (m.tOk = true)
  | .seal m => decide (m.tOk = true)
  | .sealw m _ => decide (m.tOk = true)
  | .job m _ _ _ => decide (m.tOk = true)
  | .jobw m _ => decide (m.tOk = true)
  | .jobq m _ _ => decide (m.tOk = true)
  | .jobx m _ => decide (m.tOk = true)
  | .wbind m _ _ => decide (m.tOk = true)
  | .wdrop m _ => decide (m.tOk = true)
  | .wstat m _ _ => decide (m.tOk = true)
  | .coll m _ _ _ => decide (m.tOk = true)
  | .task m _ _ => decide (m.tOk = true)
  | .tdone m => decide (m.tOk = true)
  | .discard m _ _ => decide (m.tOk = true)
  | .cwb m _ _ => decide (m.tOk = true)
  | .cinv m _ _ => decide (m.tOk = true)
  | .trap m _ => decide (m.tOk = true)
  | .svc m _ => decide (m.tOk = true)
  | .eret m => decide (m.tOk = true)
  | .gate m _ => decide (m.tOk = true)
  | .gret m => decide (m.tOk = true)
  | .ctxsv m _ _ => decide (m.tOk = true)
  | .ctxld m _ _ => decide (m.tOk = true)
  | .tlbiPage m _ => decide (m.tOk = true)
  | .tlbiPart m _ => decide (m.tOk = true)
  | .tlbiAll m => decide (m.tOk = true)
  | .halt m => decide (m.tOk = true)
  | .wdog m _ _ => decide (m.tOk = true)
  | .kill m _ => decide (m.tOk = true)
  | .killDom m _ => decide (m.tOk = true)
  | .pcfgSplit m _ _ _ => decide (m.tOk = true)
  | .pcfgMerge m _ _ _ => decide (m.tOk = true)
  | .pcfgCreate m _ _ _ => decide (m.tOk = true)
  | .pcfgDestroy m _ _ _ => decide (m.tOk = true)
  | .pcfgBind m _ _ _ => decide (m.tOk = true)
  | .pcfgUnbind m _ _ _ => decide (m.tOk = true)
  | .vfcfg m _ _ _ => decide (m.tOk = true)
  | .domcfgWrite m _ _ _ => decide (m.tOk = true)
  | .domcfgAdjust m _ _ _ => decide (m.tOk = true)
  | .domcfgClear m _ _ _ => decide (m.tOk = true)
  | .l2msk m _ _ => decide (m.tOk = true)
  | .clkj m _ _ => decide (m.tOk = true)
  | .clkl m _ => decide (m.tOk = true)
  | .memblkOffer m _ _ _ => decide (m.tOk = true)
  | .memblkQuery m _ _ _ => decide (m.tOk = true)
  | .memblkCancel m _ _ _ => decide (m.tOk = true)
  | .mfs m _ r => decide (regNumberOk r.toNat = true ∧ m.tOk = true)
  | .mts m _ r => decide (regNumberOk r.toNat = true ∧ m.tOk = true)
  | .himm _ _ => true
  | .hmod _ r e f c => decide ((r.toNat ≠ 0 ∨ e.toNat ≠ 0 ∨ c.toNat ≠ 0) ∧ (e.toNat = 0 → f.toNat = 0))
  | .hsched _ a k => decide (k.toNat ≤ 4 ∧ (k.toNat ≠ 4 → a.toNat = 0))
  | .bownWrite _ _ => true
  | .mbackAck _ _ => true
  | .bfEnable => true
  | .bfLeave => true
  | .eptWrite _ _ _ _ => true
  | .hceilWrite _ => true
  | .ckEvict _ => true
  | .pwRun => true
  | .pwHold => true
  | .pwLow => true
  | .spTret _ => true
  | .registerWrite _ _ _ => true
  | .illegalEncoding _ => true
  | .instructionFetchFault _ => true
  | .recordClaim _ => true
  | .leaveSlot _ => true
  | .preemption _ => true
  | .slotWatchdogExpiry _ => true
  | .packetAbort _ => true
  | .parkComplete _ => true
  | .asyncCause _ => true
  | .storeAck _ _ => true
  | .remoteRequest _ _ _ _ _ _ => true
  | .directoryRequest _ _ _ _ => true
  | .larderRoom _ => true
  | .waitaSuspend _ => true
  | .pageWalk _ _ _ => true
  | .compactBoundary _ _ => true
  | .compactResume _ => true
  | .dissolveAllArrived _ => true
  | .exchangeWrite _ _ _ _ _ => true
  | .xtimeout _ => true
  | .matrixAccept _ => true
  | .prepare _ => true
  | .commit _ => true
  | .commitAck _ _ => true
  | .sealed _ => true
  | .sealTimeout _ => true
  | .rollback _ _ _ _ => true
  | .replay _ => true
  | .hang _ _ => true
  | .vcpNotify _ _ => true
  | .queuePass _ _ => true
  | .nop _ _ => true
  | .launch _ _ => true
  | .claunch _ _ => true
  | .qfence _ _ => true
  | .signal _ _ => true
  | .wait _ _ => true
  | .launchComplete _ _ => true
  | .budgetPeriod => true
  | .sliceChange _ => true
  | .moveDeadline _ => true
  | .scrubDone _ => true
  | .flr _ => true
  | .flitReceive _ _ _ _ _ _ => true
  | .flitLost _ => true
  | .heartbeat => true
  | .packageDead _ => true
  | .linkTraining _ _ => true
  | .uetConnectionFailed _ => true
  | .clockTick => true
  | .clockAnnouncement _ _ => true
  | .clockHeartbeat => true
  | .clockSilent _ => true
  | .silentRemoval _ => true
  | .clockJoinTimeout _ => true
  | .thermalTrip => true
  | .overheat _ => true
  | .coldReset => true
  | .firmwareUpdate _ _ _ => true
  | .getMeasurements _ => true
  | .powerStateReached => true
  | .rowSpare _ => true
  | .unsupportedRequest _ => true
  | .gangBarrierComplete _ _ => true
  | .globalTileSpaceRequest _ _ _ _ _ => true
  | .sendeAcknowledgement _ => true
  | .scalemcAcknowledgement _ => true
  | .laneTest _ _ _ => true
  | .laneSparingComplete _ => true
  | .tdispRequest _ _ => true
  | .ideKmRequest _ _ => true
  | .configurationRequest _ _ _ _ => true
  | .takeScale _ => true
  | .matrixCommandComplete _ => true
  | .mmarReceive _ => true
  | .mmarStatus _ => true
  | .scaleMessage _ => true
  | .acvtRemote _ => true
  | .acvtReply _ => true
  | .packetAccept _ _ => true
  | .copyEngineAccept _ => true
  | .jobStart _ => true
  | .completionAction _ => true
  | .taskDispatch _ => true
  | .windowFillEnd _ _ => true
  | .prepared _ _ => true

/-- The encoding admits these field values. -/
abbrev Instr.WellFormed (i : Instr) : Prop := i.wellFormed = true

/-- Rows that a word encodes. -/
def Instr.isWord (i : Instr) : Bool :=
  match i with
  | .add _ _ _ _ _ => true
  | .sub _ _ _ _ _ => true
  | .mul _ _ _ _ _ => true
  | .mulh _ _ _ _ => true
  | .mulhn _ _ _ _ => true
  | .div _ _ _ _ => true
  | .divn _ _ _ _ => true
  | .rem _ _ _ _ => true
  | .remn _ _ _ _ => true
  | .min _ _ _ _ => true
  | .max _ _ _ _ => true
  | .minn _ _ _ _ => true
  | .maxn _ _ _ _ => true
  | .and _ _ _ _ => true
  | .or _ _ _ _ => true
  | .xor _ _ _ _ => true
  | .andn _ _ _ _ => true
  | .shl _ _ _ _ _ => true
  | .shr _ _ _ _ _ => true
  | .sra _ _ _ _ _ => true
  | .rol _ _ _ _ _ => true
  | .clz _ _ _ _ => true
  | .ctz _ _ _ _ => true
  | .popc _ _ _ _ => true
  | .sel _ _ _ _ => true
  | .cmp _ _ _ _ _ => true
  | .sext _ _ _ _ => true
  | .zext _ _ _ _ => true
  | .bfx _ _ _ _ _ => true
  | .bfi _ _ _ _ => true
  | .addi _ _ _ _ => true
  | .andi _ _ _ _ => true
  | .ori _ _ _ _ => true
  | .xori _ _ _ _ => true
  | .shli _ _ _ _ _ => true
  | .shri _ _ _ _ _ => true
  | .srai _ _ _ _ _ => true
  | .cmpi _ _ _ _ => true
  | .li _ _ _ => true
  | .lih _ _ _ => true
  | .gadr _ _ _ _ => true
  | .ladr _ _ _ _ => true
  | .br _ _ _ => true
  | .bc _ _ _ _ => true
  | .bcZ _ _ _ _ => true
  | .bg _ _ _ _ => true
  | .bgF _ _ _ _ => true
  | .call _ _ _ => true
  | .callr _ _ _ => true
  | .ret _ _ => true
  | .jmpr _ _ => true
  | .jtab _ _ _ _ => true
  | .loop _ _ _ => true
  | .lexit _ => true
  | .yield _ => true
  | .spawn _ _ _ _ _ => true
  | .exit _ => true
  | .ld _ _ _ _ _ => true
  | .st _ _ _ _ _ => true
  | .ldl _ _ _ _ _ => true
  | .stl _ _ _ _ _ => true
  | .ldx _ _ _ _ _ => true
  | .stx _ _ _ _ _ => true
  | .lda _ _ _ _ _ _ => true
  | .strel _ _ _ _ _ _ => true
  | .bmov _ _ _ _ => true
  | .bfill _ _ _ _ => true
  | .vld _ _ _ _ _ => true
  | .vst _ _ _ _ _ => true
  | .vlds _ _ _ _ _ _ => true
  | .vsts _ _ _ _ _ _ => true
  | .vgth _ _ _ _ _ _ => true
  | .vsct _ _ _ _ _ _ => true
  | .vbcst _ _ _ _ => true
  | .vext _ _ _ _ _ => true
  | .vadd _ _ _ _ _ => true
  | .vsub _ _ _ _ _ => true
  | .vmul _ _ _ _ _ => true
  | .vmad _ _ _ _ _ => true
  | .vmin _ _ _ _ _ => true
  | .vmax _ _ _ _ _ => true
  | .vabs _ _ _ _ => true
  | .vneg _ _ _ _ => true
  | .vand _ _ _ _ => true
  | .vor _ _ _ _ => true
  | .vxor _ _ _ _ => true
  | .vshl _ _ _ _ _ => true
  | .vshr _ _ _ _ _ => true
  | .vsra _ _ _ _ _ => true
  | .vcmp _ _ _ _ _ => true
  | .vsel _ _ _ _ => true
  | .vperm _ _ _ _ _ => true
  | .vins _ _ _ _ _ => true
  | .vred _ _ _ _ _ => true
  | .vfadd _ _ _ _ _ => true
  | .vfsub _ _ _ _ _ => true
  | .vfmul _ _ _ _ _ => true
  | .vfma _ _ _ _ _ => true
  | .vfmin _ _ _ _ _ => true
  | .vfmax _ _ _ _ _ => true
  | .vrcp _ _ _ _ => true
  | .vrsq _ _ _ _ => true
  | .vcvt _ _ _ _ _ => true
  | .vpack _ _ _ _ _ => true
  | .vunpk _ _ _ _ _ => true
  | .vscl _ _ _ _ _ => true
  | .mma _ _ _ _ _ _ => true
  | .mmar _ _ _ _ _ _ => true
  | .mzero _ _ _ => true
  | .mwait _ _ => true
  | .mwm _ _ _ => true
  | .mpln _ _ _ _ => true
  | .mscl _ _ _ _ _ => true
  | .scalemc _ _ _ _ _ => true
  | .acvt _ _ _ _ _ => true
  | .msave _ _ _ => true
  | .mrest _ _ _ => true
  | .capmint _ _ _ => true
  | .aadd _ _ _ _ _ _ _ => true
  | .aand _ _ _ _ _ _ _ => true
  | .aor _ _ _ _ _ _ _ => true
  | .axor _ _ _ _ _ _ _ => true
  | .aswp _ _ _ _ _ _ _ => true
  | .amin _ _ _ _ _ _ _ _ => true
  | .amax _ _ _ _ _ _ _ _ => true
  | .acas _ _ _ _ _ _ _ => true
  | .afadd _ _ _ _ _ _ => true
  | .fst _ _ _ _ _ => true
  | .fblk _ _ _ _ => true
  | .fence _ _ _ => true
  | .lbfence _ => true
  | .sync _ _ _ _ => true
  | .gbar _ => true
  | .waita _ _ _ _ => true
  | .wake _ _ => true
  | .send _ _ _ => true
  | .sende _ _ _ _ => true
  | .recv _ _ _ _ => true
  | .exch _ => true
  | .sign _ _ => true
  | .dissolve _ => true
  | .gset _ _ _ => true
  | .gwait _ _ => true
  | .seal _ => true
  | .sealw _ _ => true
  | .job _ _ _ _ => true
  | .jobw _ _ => true
  | .jobq _ _ _ => true
  | .jobx _ _ => true
  | .wbind _ _ _ => true
  | .wdrop _ _ => true
  | .wstat _ _ _ => true
  | .coll _ _ _ _ => true
  | .task _ _ _ => true
  | .tdone _ => true
  | .discard _ _ _ => true
  | .cwb _ _ _ => true
  | .cinv _ _ _ => true
  | .trap _ _ => true
  | .svc _ _ => true
  | .eret _ => true
  | .gate _ _ => true
  | .gret _ => true
  | .ctxsv _ _ _ => true
  | .ctxld _ _ _ => true
  | .tlbiPage _ _ => true
  | .tlbiPart _ _ => true
  | .tlbiAll _ => true
  | .halt _ => true
  | .wdog _ _ _ => true
  | .kill _ _ => true
  | .killDom _ _ => true
  | .pcfgSplit _ _ _ _ => true
  | .pcfgMerge _ _ _ _ => true
  | .pcfgCreate _ _ _ _ => true
  | .pcfgDestroy _ _ _ _ => true
  | .pcfgBind _ _ _ _ => true
  | .pcfgUnbind _ _ _ _ => true
  | .vfcfg _ _ _ _ => true
  | .domcfgWrite _ _ _ _ => true
  | .domcfgAdjust _ _ _ _ => true
  | .domcfgClear _ _ _ _ => true
  | .l2msk _ _ _ => true
  | .clkj _ _ _ => true
  | .clkl _ _ => true
  | .memblkOffer _ _ _ _ => true
  | .memblkQuery _ _ _ _ => true
  | .memblkCancel _ _ _ _ => true
  | .mfs _ _ _ => true
  | .mts _ _ _ => true
  | .himm _ _ => true
  | .hmod _ _ _ _ _ => true
  | .hsched _ _ _ => true
  | .bownWrite _ _ => false
  | .mbackAck _ _ => false
  | .bfEnable => false
  | .bfLeave => false
  | .eptWrite _ _ _ _ => false
  | .hceilWrite _ => false
  | .ckEvict _ => false
  | .pwRun => false
  | .pwHold => false
  | .pwLow => false
  | .spTret _ => false
  | .registerWrite _ _ _ => false
  | .illegalEncoding _ => false
  | .instructionFetchFault _ => false
  | .recordClaim _ => false
  | .leaveSlot _ => false
  | .preemption _ => false
  | .slotWatchdogExpiry _ => false
  | .packetAbort _ => false
  | .parkComplete _ => false
  | .asyncCause _ => false
  | .storeAck _ _ => false
  | .remoteRequest _ _ _ _ _ _ => false
  | .directoryRequest _ _ _ _ => false
  | .larderRoom _ => false
  | .waitaSuspend _ => false
  | .pageWalk _ _ _ => false
  | .compactBoundary _ _ => false
  | .compactResume _ => false
  | .dissolveAllArrived _ => false
  | .exchangeWrite _ _ _ _ _ => false
  | .xtimeout _ => false
  | .matrixAccept _ => false
  | .prepare _ => false
  | .commit _ => false
  | .commitAck _ _ => false
  | .sealed _ => false
  | .sealTimeout _ => false
  | .rollback _ _ _ _ => false
  | .replay _ => false
  | .hang _ _ => false
  | .vcpNotify _ _ => false
  | .queuePass _ _ => false
  | .nop _ _ => false
  | .launch _ _ => false
  | .claunch _ _ => false
  | .qfence _ _ => false
  | .signal _ _ => false
  | .wait _ _ => false
  | .launchComplete _ _ => false
  | .budgetPeriod => false
  | .sliceChange _ => false
  | .moveDeadline _ => false
  | .scrubDone _ => false
  | .flr _ => false
  | .flitReceive _ _ _ _ _ _ => false
  | .flitLost _ => false
  | .heartbeat => false
  | .packageDead _ => false
  | .linkTraining _ _ => false
  | .uetConnectionFailed _ => false
  | .clockTick => false
  | .clockAnnouncement _ _ => false
  | .clockHeartbeat => false
  | .clockSilent _ => false
  | .silentRemoval _ => false
  | .clockJoinTimeout _ => false
  | .thermalTrip => false
  | .overheat _ => false
  | .coldReset => false
  | .firmwareUpdate _ _ _ => false
  | .getMeasurements _ => false
  | .powerStateReached => false
  | .rowSpare _ => false
  | .unsupportedRequest _ => false
  | .gangBarrierComplete _ _ => false
  | .globalTileSpaceRequest _ _ _ _ _ => false
  | .sendeAcknowledgement _ => false
  | .scalemcAcknowledgement _ => false
  | .laneTest _ _ _ => false
  | .laneSparingComplete _ => false
  | .tdispRequest _ _ => false
  | .ideKmRequest _ _ => false
  | .configurationRequest _ _ _ _ => false
  | .takeScale _ => false
  | .matrixCommandComplete _ => false
  | .mmarReceive _ => false
  | .mmarStatus _ => false
  | .scaleMessage _ => false
  | .acvtRemote _ => false
  | .acvtReply _ => false
  | .packetAccept _ _ => false
  | .copyEngineAccept _ => false
  | .jobStart _ => false
  | .completionAction _ => false
  | .taskDispatch _ => false
  | .windowFillEnd _ _ => false
  | .prepared _ _ => false

end Sys2Proof
end

