-- ==== Sys2Proof/Decode.lean ====
section
/-! DEFINITION. Decoding of instruction words and their encoder (07:R72-R79), as arithmetic on the word's value: field
[hi:lo] is the value divided by 2^lo, modulo 2^(hi - lo + 1). -/

namespace Sys2Proof

/-- Why a word is refused, in the order of R79 steps 1 to 3. -/
inductive DecodeError where
  | version   -- V is 10 or 11
  | selector  -- illegal major opcode, undefined selector, or nonzero reserved field
  | field     -- undefined qualifier or coded field
  deriving DecidableEq, Repr

/-- The `n` bits of `w` from bit `lo` (R3, R98 `bits`). -/
def fld (w lo n : Nat) : Nat := w / 2 ^ lo % 2 ^ n

/-- V, S and T of a word (R72). -/
def markOf (w : Nat) : Mark := ⟨fld w 30 1 == 1, fld w 29 1 == 1, fld w 28 1 == 1⟩

/-- Rows of major opcode 0x00 (R77). -/
def decodeOp00 (w : Nat) : Option Instr :=
  if fld w 2 4 == 0 then some (.add (markOf w) (.ofNat 5 (fld w 16 5)) (.ofNat 5 (fld w 11 5)) (.ofNat 5 (fld w 6 5)) (.ofNat 2 (fld w 0 2)))
  else if fld w 2 4 == 1 then some (.sub (markOf w) (.ofNat 5 (fld w 16 5)) (.ofNat 5 (fld w 11 5)) (.ofNat 5 (fld w 6 5)) (.ofNat 2 (fld w 0 2)))
  else if fld w 2 4 == 2 then some (.mul (markOf w) (.ofNat 5 (fld w 16 5)) (.ofNat 5 (fld w 11 5)) (.ofNat 5 (fld w 6 5)) (.ofNat 2 (fld w 0 2)))
  else if fld w 0 6 == 12 then some (.mulh (markOf w) (.ofNat 5 (fld w 16 5)) (.ofNat 5 (fld w 11 5)) (.ofNat 5 (fld w 6 5)))
  else if fld w 0 6 == 16 then some (.mulhn (markOf w) (.ofNat 5 (fld w 16 5)) (.ofNat 5 (fld w 11 5)) (.ofNat 5 (fld w 6 5)))
  else if fld w 0 6 == 20 then some (.div (markOf w) (.ofNat 5 (fld w 16 5)) (.ofNat 5 (fld w 11 5)) (.ofNat 5 (fld w 6 5)))
  else if fld w 0 6 == 24 then some (.divn (markOf w) (.ofNat 5 (fld w 16 5)) (.ofNat 5 (fld w 11 5)) (.ofNat 5 (fld w 6 5)))
  else if fld w 0 6 == 28 then some (.rem (markOf w) (.ofNat 5 (fld w 16 5)) (.ofNat 5 (fld w 11 5)) (.ofNat 5 (fld w 6 5)))
  else if fld w 0 6 == 32 then some (.remn (markOf w) (.ofNat 5 (fld w 16 5)) (.ofNat 5 (fld w 11 5)) (.ofNat 5 (fld w 6 5)))
  else if fld w 0 6 == 36 then some (.min (markOf w) (.ofNat 5 (fld w 16 5)) (.ofNat 5 (fld w 11 5)) (.ofNat 5 (fld w 6 5)))
  else if fld w 0 6 == 40 then some (.max (markOf w) (.ofNat 5 (fld w 16 5)) (.ofNat 5 (fld w 11 5)) (.ofNat 5 (fld w 6 5)))
  else if fld w 0 6 == 44 then some (.minn (markOf w) (.ofNat 5 (fld w 16 5)) (.ofNat 5 (fld w 11 5)) (.ofNat 5 (fld w 6 5)))
  else if fld w 0 6 == 48 then some (.maxn (markOf w) (.ofNat 5 (fld w 16 5)) (.ofNat 5 (fld w 11 5)) (.ofNat 5 (fld w 6 5)))
  else none

/-- Rows of major opcode 0x01 (R77). -/
def decodeOp01 (w : Nat) : Option Instr :=
  if fld w 0 6 == 0 then some (.and (markOf w) (.ofNat 5 (fld w 16 5)) (.ofNat 5 (fld w 11 5)) (.ofNat 5 (fld w 6 5)))
  else if fld w 0 6 == 4 then some (.or (markOf w) (.ofNat 5 (fld w 16 5)) (.ofNat 5 (fld w 11 5)) (.ofNat 5 (fld w 6 5)))
  else if fld w 0 6 == 8 then some (.xor (markOf w) (.ofNat 5 (fld w 16 5)) (.ofNat 5 (fld w 11 5)) (.ofNat 5 (fld w 6 5)))
  else if fld w 0 6 == 12 then some (.andn (markOf w) (.ofNat 5 (fld w 16 5)) (.ofNat 5 (fld w 11 5)) (.ofNat 5 (fld w 6 5)))
  else if fld w 1 5 == 8 then some (.shl (markOf w) (.ofNat 5 (fld w 16 5)) (.ofNat 5 (fld w 11 5)) (.ofNat 5 (fld w 6 5)) (.ofNat 1 (fld w 0 1)))
  else if fld w 1 5 == 10 then some (.shr (markOf w) (.ofNat 5 (fld w 16 5)) (.ofNat 5 (fld w 11 5)) (.ofNat 5 (fld w 6 5)) (.ofNat 1 (fld w 0 1)))
  else if fld w 1 5 == 12 then some (.sra (markOf w) (.ofNat 5 (fld w 16 5)) (.ofNat 5 (fld w 11 5)) (.ofNat 5 (fld w 6 5)) (.ofNat 1 (fld w 0 1)))
  else if fld w 1 5 == 14 then some (.rol (markOf w) (.ofNat 5 (fld w 16 5)) (.ofNat 5 (fld w 11 5)) (.ofNat 5 (fld w 6 5)) (.ofNat 1 (fld w 0 1)))
  else if fld w 1 10 == 16 then some (.clz (markOf w) (.ofNat 5 (fld w 16 5)) (.ofNat 5 (fld w 11 5)) (.ofNat 1 (fld w 0 1)))
  else if fld w 1 10 == 18 then some (.ctz (markOf w) (.ofNat 5 (fld w 16 5)) (.ofNat 5 (fld w 11 5)) (.ofNat 1 (fld w 0 1)))
  else if fld w 1 10 == 20 then some (.popc (markOf w) (.ofNat 5 (fld w 16 5)) (.ofNat 5 (fld w 11 5)) (.ofNat 1 (fld w 0 1)))
  else if fld w 0 6 == 44 then some (.sel (markOf w) (.ofNat 5 (fld w 16 5)) (.ofNat 5 (fld w 11 5)) (.ofNat 5 (fld w 6 5)))
  else if fld w 2 4 == 12 then some (.cmp (markOf w) (.ofNat 5 (fld w 16 5)) (.ofNat 5 (fld w 11 5)) (.ofNat 5 (fld w 6 5)) (.ofNat 2 (fld w 0 2)))
  else if fld w 2 9 == 13 then some (.sext (markOf w) (.ofNat 5 (fld w 16 5)) (.ofNat 5 (fld w 11 5)) (.ofNat 2 (fld w 0 2)))
  else if fld w 2 9 == 14 then some (.zext (markOf w) (.ofNat 5 (fld w 16 5)) (.ofNat 5 (fld w 11 5)) (.ofNat 2 (fld w 0 2)))
  else if fld w 1 5 == 30 then some (.bfx (markOf w) (.ofNat 5 (fld w 16 5)) (.ofNat 5 (fld w 11 5)) (.ofNat 5 (fld w 6 5)) (.ofNat 1 (fld w 0 1)))
  else none

/-- Rows of major opcode 0x02 (R77). -/
def decodeOp02 (w : Nat) : Option Instr :=
  if fld w 0 6 == 0 then some (.bfi (markOf w) (.ofNat 5 (fld w 16 5)) (.ofNat 5 (fld w 11 5)) (.ofNat 5 (fld w 6 5)))
  else none

/-- Rows of major opcode 0x10 (R77). -/
def decodeOp10 (w : Nat) : Option Instr :=
  some (.addi (markOf w) (.ofNat 5 (fld w 16 5)) (.ofNat 5 (fld w 11 5)) (.ofNat 11 (fld w 0 11)))

/-- Rows of major opcode 0x11 (R77). -/
def decodeOp11 (w : Nat) : Option Instr :=
  some (.andi (markOf w) (.ofNat 5 (fld w 16 5)) (.ofNat 5 (fld w 11 5)) (.ofNat 11 (fld w 0 11)))

/-- Rows of major opcode 0x12 (R77). -/
def decodeOp12 (w : Nat) : Option Instr :=
  some (.ori (markOf w) (.ofNat 5 (fld w 16 5)) (.ofNat 5 (fld w 11 5)) (.ofNat 11 (fld w 0 11)))

/-- Rows of major opcode 0x13 (R77). -/
def decodeOp13 (w : Nat) : Option Instr :=
  some (.xori (markOf w) (.ofNat 5 (fld w 16 5)) (.ofNat 5 (fld w 11 5)) (.ofNat 11 (fld w 0 11)))

/-- Rows of major opcode 0x14 (R77). -/
def decodeOp14 (w : Nat) : Option Instr :=
  if fld w 7 4 == 0 then some (.shli (markOf w) (.ofNat 5 (fld w 16 5)) (.ofNat 5 (fld w 11 5)) (.ofNat 1 (fld w 6 1)) (.ofNat 6 (fld w 0 6)))
  else none

/-- Rows of major opcode 0x15 (R77). -/
def decodeOp15 (w : Nat) : Option Instr :=
  if fld w 7 4 == 0 then some (.shri (markOf w) (.ofNat 5 (fld w 16 5)) (.ofNat 5 (fld w 11 5)) (.ofNat 1 (fld w 6 1)) (.ofNat 6 (fld w 0 6)))
  else none

/-- Rows of major opcode 0x16 (R77). -/
def decodeOp16 (w : Nat) : Option Instr :=
  if fld w 7 4 == 0 then some (.srai (markOf w) (.ofNat 5 (fld w 16 5)) (.ofNat 5 (fld w 11 5)) (.ofNat 1 (fld w 6 1)) (.ofNat 6 (fld w 0 6)))
  else none

/-- Rows of major opcode 0x17 (R77). -/
def decodeOp17 (w : Nat) : Option Instr :=
  some (.cmpi (markOf w) (.ofNat 5 (fld w 16 5)) (.ofNat 5 (fld w 11 5)) (.ofNat 11 (fld w 0 11)))

/-- Rows of major opcode 0x18 (R77). -/
def decodeOp18 (w : Nat) : Option Instr :=
  some (.li (markOf w) (.ofNat 5 (fld w 16 5)) (.ofNat 16 (fld w 0 16)))

/-- Rows of major opcode 0x19 (R77). -/
def decodeOp19 (w : Nat) : Option Instr :=
  some (.lih (markOf w) (.ofNat 5 (fld w 16 5)) (.ofNat 16 (fld w 0 16)))

/-- Rows of major opcode 0x1A (R77). -/
def decodeOp1A (w : Nat) : Option Instr :=
  some (.gadr (markOf w) (.ofNat 5 (fld w 16 5)) (.ofNat 5 (fld w 11 5)) (.ofNat 11 (fld w 0 11)))

/-- Rows of major opcode 0x1B (R77). -/
def decodeOp1B (w : Nat) : Option Instr :=
  some (.ladr (markOf w) (.ofNat 5 (fld w 16 5)) (.ofNat 5 (fld w 11 5)) (.ofNat 11 (fld w 0 11)))

/-- Rows of major opcode 0x20 (R77). -/
def decodeOp20 (w : Nat) : Option Instr :=
  if fld w 16 3 == 0 then some (.br (markOf w) (.ofNat 2 (fld w 19 2)) (.ofNat 16 (fld w 0 16)))
  else none

/-- Rows of major opcode 0x21 (R77). -/
def decodeOp21 (w : Nat) : Option Instr :=
  some (.bc (markOf w) (.ofNat 2 (fld w 19 2)) (.ofNat 3 (fld w 16 3)) (.ofNat 16 (fld w 0 16)))

/-- Rows of major opcode 0x22 (R77). -/
def decodeOp22 (w : Nat) : Option Instr :=
  some (.bcZ (markOf w) (.ofNat 2 (fld w 19 2)) (.ofNat 3 (fld w 16 3)) (.ofNat 16 (fld w 0 16)))

/-- Rows of major opcode 0x23 (R77). -/
def decodeOp23 (w : Nat) : Option Instr :=
  some (.bg (markOf w) (.ofNat 2 (fld w 19 2)) (.ofNat 3 (fld w 16 3)) (.ofNat 16 (fld w 0 16)))

/-- Rows of major opcode 0x24 (R77). -/
def decodeOp24 (w : Nat) : Option Instr :=
  some (.bgF (markOf w) (.ofNat 2 (fld w 19 2)) (.ofNat 3 (fld w 16 3)) (.ofNat 16 (fld w 0 16)))

/-- Rows of major opcode 0x25 (R77). -/
def decodeOp25 (w : Nat) : Option Instr :=
  if fld w 16 3 == 0 then some (.call (markOf w) (.ofNat 2 (fld w 19 2)) (.ofNat 16 (fld w 0 16)))
  else none

/-- Rows of major opcode 0x26 (R77). -/
def decodeOp26 (w : Nat) : Option Instr :=
  if fld w 0 11 == 0 then some (.callr (markOf w) (.ofNat 5 (fld w 16 5)) (.ofNat 5 (fld w 11 5)))
  else none

/-- Rows of major opcode 0x27 (R77). -/
def decodeOp27 (w : Nat) : Option Instr :=
  if fld w 0 11 == 0 && fld w 16 5 == 0 then some (.ret (markOf w) (.ofNat 5 (fld w 11 5)))
  else none

/-- Rows of major opcode 0x28 (R77). -/
def decodeOp28 (w : Nat) : Option Instr :=
  if fld w 0 11 == 0 && fld w 16 5 == 0 then some (.jmpr (markOf w) (.ofNat 5 (fld w 11 5)))
  else none

/-- Rows of major opcode 0x29 (R77). -/
def decodeOp29 (w : Nat) : Option Instr :=
  some (.jtab (markOf w) (.ofNat 5 (fld w 16 5)) (.ofNat 5 (fld w 11 5)) (.ofNat 11 (fld w 0 11)))

/-- Rows of major opcode 0x2A (R77). -/
def decodeOp2A (w : Nat) : Option Instr :=
  some (.loop (markOf w) (.ofNat 5 (fld w 16 5)) (.ofNat 16 (fld w 0 16)))

/-- Rows of major opcode 0x2B (R77). -/
def decodeOp2B (w : Nat) : Option Instr :=
  if fld w 0 21 == 0 then some (.lexit (markOf w))
  else none

/-- Rows of major opcode 0x2C (R77). -/
def decodeOp2C (w : Nat) : Option Instr :=
  if fld w 0 21 == 0 then some (.yield (markOf w))
  else none

/-- Rows of major opcode 0x2D (R77). -/
def decodeOp2D (w : Nat) : Option Instr :=
  if fld w 2 4 == 0 then some (.spawn (markOf w) (.ofNat 5 (fld w 16 5)) (.ofNat 5 (fld w 11 5)) (.ofNat 5 (fld w 6 5)) (.ofNat 2 (fld w 0 2)))
  else none

/-- Rows of major opcode 0x2E (R77). -/
def decodeOp2E (w : Nat) : Option Instr :=
  if fld w 0 21 == 0 then some (.exit (markOf w))
  else none

/-- Rows of major opcode 0x30 (R77). -/
def decodeOp30 (w : Nat) : Option Instr :=
  some (.ld (markOf w) (.ofNat 5 (fld w 16 5)) (.ofNat 5 (fld w 11 5)) (.ofNat 3 (fld w 8 3)) (.ofNat 8 (fld w 0 8)))

/-- Rows of major opcode 0x31 (R77). -/
def decodeOp31 (w : Nat) : Option Instr :=
  some (.st (markOf w) (.ofNat 5 (fld w 16 5)) (.ofNat 5 (fld w 11 5)) (.ofNat 3 (fld w 8 3)) (.ofNat 8 (fld w 0 8)))

/-- Rows of major opcode 0x32 (R77). -/
def decodeOp32 (w : Nat) : Option Instr :=
  some (.ldl (markOf w) (.ofNat 5 (fld w 16 5)) (.ofNat 5 (fld w 11 5)) (.ofNat 3 (fld w 8 3)) (.ofNat 8 (fld w 0 8)))

/-- Rows of major opcode 0x33 (R77). -/
def decodeOp33 (w : Nat) : Option Instr :=
  some (.stl (markOf w) (.ofNat 5 (fld w 16 5)) (.ofNat 5 (fld w 11 5)) (.ofNat 3 (fld w 8 3)) (.ofNat 8 (fld w 0 8)))

/-- Rows of major opcode 0x34 (R77). -/
def decodeOp34 (w : Nat) : Option Instr :=
  if fld w 0 3 == 0 then some (.ldx (markOf w) (.ofNat 5 (fld w 16 5)) (.ofNat 5 (fld w 11 5)) (.ofNat 3 (fld w 8 3)) (.ofNat 5 (fld w 3 5)))
  else none

/-- Rows of major opcode 0x35 (R77). -/
def decodeOp35 (w : Nat) : Option Instr :=
  if fld w 0 3 == 0 then some (.stx (markOf w) (.ofNat 5 (fld w 16 5)) (.ofNat 5 (fld w 11 5)) (.ofNat 3 (fld w 8 3)) (.ofNat 5 (fld w 3 5)))
  else none

/-- Rows of major opcode 0x36 (R77). -/
def decodeOp36 (w : Nat) : Option Instr :=
  some (.lda (markOf w) (.ofNat 5 (fld w 16 5)) (.ofNat 5 (fld w 11 5)) (.ofNat 3 (fld w 8 3)) (.ofNat 3 (fld w 5 3)) (.ofNat 5 (fld w 0 5)))

/-- Rows of major opcode 0x37 (R77). -/
def decodeOp37 (w : Nat) : Option Instr :=
  some (.strel (markOf w) (.ofNat 5 (fld w 16 5)) (.ofNat 5 (fld w 11 5)) (.ofNat 3 (fld w 8 3)) (.ofNat 3 (fld w 5 3)) (.ofNat 5 (fld w 0 5)))

/-- Rows of major opcode 0x38 (R77). -/
def decodeOp38 (w : Nat) : Option Instr :=
  if fld w 0 6 == 0 then some (.bmov (markOf w) (.ofNat 5 (fld w 16 5)) (.ofNat 5 (fld w 11 5)) (.ofNat 5 (fld w 6 5)))
  else none

/-- Rows of major opcode 0x39 (R77). -/
def decodeOp39 (w : Nat) : Option Instr :=
  if fld w 0 6 == 0 then some (.bfill (markOf w) (.ofNat 5 (fld w 16 5)) (.ofNat 5 (fld w 11 5)) (.ofNat 5 (fld w 6 5)))
  else none

/-- Rows of major opcode 0x40 (R77). -/
def decodeOp40 (w : Nat) : Option Instr :=
  if fld w 0 5 == 0 then some (.vld (markOf w) (.ofNat 5 (fld w 16 5)) (.ofNat 5 (fld w 11 5)) (.ofNat 5 (fld w 6 5)) (.ofNat 1 (fld w 5 1)))
  else if fld w 0 5 == 1 then some (.vst (markOf w) (.ofNat 5 (fld w 16 5)) (.ofNat 5 (fld w 11 5)) (.ofNat 5 (fld w 6 5)) (.ofNat 1 (fld w 5 1)))
  else if fld w 0 3 == 2 then some (.vlds (markOf w) (.ofNat 5 (fld w 16 5)) (.ofNat 5 (fld w 11 5)) (.ofNat 5 (fld w 6 5)) (.ofNat 1 (fld w 5 1)) (.ofNat 2 (fld w 3 2)))
  else if fld w 0 3 == 3 then some (.vsts (markOf w) (.ofNat 5 (fld w 16 5)) (.ofNat 5 (fld w 11 5)) (.ofNat 5 (fld w 6 5)) (.ofNat 1 (fld w 5 1)) (.ofNat 2 (fld w 3 2)))
  else if fld w 0 3 == 4 then some (.vgth (markOf w) (.ofNat 5 (fld w 16 5)) (.ofNat 5 (fld w 11 5)) (.ofNat 5 (fld w 6 5)) (.ofNat 1 (fld w 5 1)) (.ofNat 2 (fld w 3 2)))
  else if fld w 0 3 == 5 then some (.vsct (markOf w) (.ofNat 5 (fld w 16 5)) (.ofNat 5 (fld w 11 5)) (.ofNat 5 (fld w 6 5)) (.ofNat 1 (fld w 5 1)) (.ofNat 2 (fld w 3 2)))
  else if fld w 0 3 == 6 && fld w 6 5 == 0 then some (.vbcst (markOf w) (.ofNat 5 (fld w 16 5)) (.ofNat 5 (fld w 11 5)) (.ofNat 3 (fld w 3 3)))
  else if fld w 0 3 == 7 then some (.vext (markOf w) (.ofNat 5 (fld w 16 5)) (.ofNat 5 (fld w 11 5)) (.ofNat 5 (fld w 6 5)) (.ofNat 3 (fld w 3 3)))
  else none

/-- Rows of major opcode 0x41 (R77). -/
def decodeOp41 (w : Nat) : Option Instr :=
  if fld w 0 3 == 0 then some (.vadd (markOf w) (.ofNat 5 (fld w 16 5)) (.ofNat 5 (fld w 11 5)) (.ofNat 5 (fld w 6 5)) (.ofNat 3 (fld w 3 3)))
  else if fld w 0 3 == 1 then some (.vsub (markOf w) (.ofNat 5 (fld w 16 5)) (.ofNat 5 (fld w 11 5)) (.ofNat 5 (fld w 6 5)) (.ofNat 3 (fld w 3 3)))
  else if fld w 0 3 == 2 then some (.vmul (markOf w) (.ofNat 5 (fld w 16 5)) (.ofNat 5 (fld w 11 5)) (.ofNat 5 (fld w 6 5)) (.ofNat 3 (fld w 3 3)))
  else if fld w 0 3 == 3 then some (.vmad (markOf w) (.ofNat 5 (fld w 16 5)) (.ofNat 5 (fld w 11 5)) (.ofNat 5 (fld w 6 5)) (.ofNat 3 (fld w 3 3)))
  else if fld w 0 3 == 4 then some (.vmin (markOf w) (.ofNat 5 (fld w 16 5)) (.ofNat 5 (fld w 11 5)) (.ofNat 5 (fld w 6 5)) (.ofNat 3 (fld w 3 3)))
  else if fld w 0 3 == 5 then some (.vmax (markOf w) (.ofNat 5 (fld w 16 5)) (.ofNat 5 (fld w 11 5)) (.ofNat 5 (fld w 6 5)) (.ofNat 3 (fld w 3 3)))
  else if fld w 0 3 == 6 && fld w 6 5 == 0 then some (.vabs (markOf w) (.ofNat 5 (fld w 16 5)) (.ofNat 5 (fld w 11 5)) (.ofNat 3 (fld w 3 3)))
  else if fld w 0 3 == 7 && fld w 6 5 == 0 then some (.vneg (markOf w) (.ofNat 5 (fld w 16 5)) (.ofNat 5 (fld w 11 5)) (.ofNat 3 (fld w 3 3)))
  else none

/-- Rows of major opcode 0x42 (R77). -/
def decodeOp42 (w : Nat) : Option Instr :=
  if fld w 0 6 == 0 then some (.vand (markOf w) (.ofNat 5 (fld w 16 5)) (.ofNat 5 (fld w 11 5)) (.ofNat 5 (fld w 6 5)))
  else if fld w 0 6 == 1 then some (.vor (markOf w) (.ofNat 5 (fld w 16 5)) (.ofNat 5 (fld w 11 5)) (.ofNat 5 (fld w 6 5)))
  else if fld w 0 6 == 2 then some (.vxor (markOf w) (.ofNat 5 (fld w 16 5)) (.ofNat 5 (fld w 11 5)) (.ofNat 5 (fld w 6 5)))
  else if fld w 0 3 == 3 then some (.vshl (markOf w) (.ofNat 5 (fld w 16 5)) (.ofNat 5 (fld w 11 5)) (.ofNat 5 (fld w 6 5)) (.ofNat 3 (fld w 3 3)))
  else if fld w 0 3 == 4 then some (.vshr (markOf w) (.ofNat 5 (fld w 16 5)) (.ofNat 5 (fld w 11 5)) (.ofNat 5 (fld w 6 5)) (.ofNat 3 (fld w 3 3)))
  else if fld w 0 3 == 5 then some (.vsra (markOf w) (.ofNat 5 (fld w 16 5)) (.ofNat 5 (fld w 11 5)) (.ofNat 5 (fld w 6 5)) (.ofNat 3 (fld w 3 3)))
  else if fld w 0 3 == 6 then some (.vcmp (markOf w) (.ofNat 5 (fld w 16 5)) (.ofNat 5 (fld w 11 5)) (.ofNat 5 (fld w 6 5)) (.ofNat 3 (fld w 3 3)))
  else if fld w 0 6 == 7 then some (.vsel (markOf w) (.ofNat 5 (fld w 16 5)) (.ofNat 5 (fld w 11 5)) (.ofNat 5 (fld w 6 5)))
  else none

/-- Rows of major opcode 0x43 (R77). -/
def decodeOp43 (w : Nat) : Option Instr :=
  if fld w 0 3 == 0 then some (.vperm (markOf w) (.ofNat 5 (fld w 16 5)) (.ofNat 5 (fld w 11 5)) (.ofNat 5 (fld w 6 5)) (.ofNat 3 (fld w 3 3)))
  else if fld w 0 3 == 1 then some (.vins (markOf w) (.ofNat 5 (fld w 16 5)) (.ofNat 5 (fld w 11 5)) (.ofNat 5 (fld w 6 5)) (.ofNat 3 (fld w 3 3)))
  else if fld w 0 3 == 2 then some (.vred (markOf w) (.ofNat 5 (fld w 16 5)) (.ofNat 5 (fld w 11 5)) (.ofNat 5 (fld w 6 5)) (.ofNat 3 (fld w 3 3)))
  else if fld w 0 3 == 3 then some (.vfadd (markOf w) (.ofNat 5 (fld w 16 5)) (.ofNat 5 (fld w 11 5)) (.ofNat 5 (fld w 6 5)) (.ofNat 3 (fld w 3 3)))
  else if fld w 0 3 == 4 then some (.vfsub (markOf w) (.ofNat 5 (fld w 16 5)) (.ofNat 5 (fld w 11 5)) (.ofNat 5 (fld w 6 5)) (.ofNat 3 (fld w 3 3)))
  else if fld w 0 3 == 5 then some (.vfmul (markOf w) (.ofNat 5 (fld w 16 5)) (.ofNat 5 (fld w 11 5)) (.ofNat 5 (fld w 6 5)) (.ofNat 3 (fld w 3 3)))
  else if fld w 0 3 == 6 then some (.vfma (markOf w) (.ofNat 5 (fld w 16 5)) (.ofNat 5 (fld w 11 5)) (.ofNat 5 (fld w 6 5)) (.ofNat 3 (fld w 3 3)))
  else if fld w 0 3 == 7 then some (.vfmin (markOf w) (.ofNat 5 (fld w 16 5)) (.ofNat 5 (fld w 11 5)) (.ofNat 5 (fld w 6 5)) (.ofNat 3 (fld w 3 3)))
  else none

/-- Rows of major opcode 0x44 (R77). -/
def decodeOp44 (w : Nat) : Option Instr :=
  if fld w 0 3 == 0 then some (.vfmax (markOf w) (.ofNat 5 (fld w 16 5)) (.ofNat 5 (fld w 11 5)) (.ofNat 5 (fld w 6 5)) (.ofNat 3 (fld w 3 3)))
  else if fld w 0 3 == 1 && fld w 6 5 == 0 then some (.vrcp (markOf w) (.ofNat 5 (fld w 16 5)) (.ofNat 5 (fld w 11 5)) (.ofNat 3 (fld w 3 3)))
  else if fld w 0 3 == 2 && fld w 6 5 == 0 then some (.vrsq (markOf w) (.ofNat 5 (fld w 16 5)) (.ofNat 5 (fld w 11 5)) (.ofNat 3 (fld w 3 3)))
  else if fld w 0 3 == 3 then some (.vcvt (markOf w) (.ofNat 5 (fld w 16 5)) (.ofNat 5 (fld w 11 5)) (.ofNat 5 (fld w 6 5)) (.ofNat 3 (fld w 3 3)))
  else if fld w 0 3 == 4 then some (.vpack (markOf w) (.ofNat 5 (fld w 16 5)) (.ofNat 5 (fld w 11 5)) (.ofNat 5 (fld w 6 5)) (.ofNat 3 (fld w 3 3)))
  else if fld w 0 3 == 5 then some (.vunpk (markOf w) (.ofNat 5 (fld w 16 5)) (.ofNat 5 (fld w 11 5)) (.ofNat 5 (fld w 6 5)) (.ofNat 3 (fld w 3 3)))
  else if fld w 0 3 == 6 then some (.vscl (markOf w) (.ofNat 5 (fld w 16 5)) (.ofNat 5 (fld w 11 5)) (.ofNat 5 (fld w 6 5)) (.ofNat 3 (fld w 3 3)))
  else none

/-- Rows of major opcode 0x50 (R77). -/
def decodeOp50 (w : Nat) : Option Instr :=
  if fld w 0 1 == 0 then some (.mma (markOf w) (.ofNat 3 (fld w 18 3)) (.ofNat 2 (fld w 16 2)) (.ofNat 5 (fld w 11 5)) (.ofNat 5 (fld w 6 5)) (.ofNat 5 (fld w 1 5)))
  else none

/-- Rows of major opcode 0x51 (R77). -/
def decodeOp51 (w : Nat) : Option Instr :=
  if fld w 0 1 == 0 then some (.mmar (markOf w) (.ofNat 3 (fld w 18 3)) (.ofNat 2 (fld w 16 2)) (.ofNat 5 (fld w 11 5)) (.ofNat 5 (fld w 6 5)) (.ofNat 5 (fld w 1 5)))
  else none

/-- Rows of major opcode 0x52 (R77). -/
def decodeOp52 (w : Nat) : Option Instr :=
  if fld w 0 13 == 0 then some (.mzero (markOf w) (.ofNat 3 (fld w 18 3)) (.ofNat 5 (fld w 13 5)))
  else if fld w 0 13 == 1 && fld w 18 3 == 0 then some (.mwait (markOf w) (.ofNat 5 (fld w 13 5)))
  else if fld w 0 8 == 2 && fld w 18 3 == 0 then some (.mwm (markOf w) (.ofNat 5 (fld w 13 5)) (.ofNat 5 (fld w 8 5)))
  else if fld w 0 3 == 3 && fld w 18 3 == 0 then some (.mpln (markOf w) (.ofNat 5 (fld w 13 5)) (.ofNat 5 (fld w 8 5)) (.ofNat 5 (fld w 3 5)))
  else if fld w 0 3 == 4 then some (.mscl (markOf w) (.ofNat 3 (fld w 18 3)) (.ofNat 5 (fld w 13 5)) (.ofNat 5 (fld w 8 5)) (.ofNat 5 (fld w 3 5)))
  else if fld w 0 3 == 5 then some (.scalemc (markOf w) (.ofNat 3 (fld w 18 3)) (.ofNat 5 (fld w 13 5)) (.ofNat 5 (fld w 8 5)) (.ofNat 5 (fld w 3 5)))
  else if fld w 0 3 == 6 then some (.acvt (markOf w) (.ofNat 3 (fld w 18 3)) (.ofNat 5 (fld w 13 5)) (.ofNat 5 (fld w 8 5)) (.ofNat 5 (fld w 3 5)))
  else if fld w 0 8 == 7 && fld w 18 3 == 0 then some (.msave (markOf w) (.ofNat 5 (fld w 13 5)) (.ofNat 5 (fld w 8 5)))
  else none

/-- Rows of major opcode 0x53 (R77). -/
def decodeOp53 (w : Nat) : Option Instr :=
  if fld w 0 8 == 0 && fld w 18 3 == 0 then some (.mrest (markOf w) (.ofNat 5 (fld w 13 5)) (.ofNat 5 (fld w 8 5)))
  else if fld w 0 8 == 1 && fld w 18 3 == 0 then some (.capmint (markOf w) (.ofNat 5 (fld w 13 5)) (.ofNat 5 (fld w 8 5)))
  else none

/-- Rows of major opcode 0x58 (R77). -/
def decodeOp58 (w : Nat) : Option Instr :=
  if fld w 0 1 == 0 then some (.aadd (markOf w) (.ofNat 5 (fld w 16 5)) (.ofNat 5 (fld w 11 5)) (.ofNat 5 (fld w 6 5)) (.ofNat 2 (fld w 4 2)) (.ofNat 2 (fld w 2 2)) (.ofNat 1 (fld w 1 1)))
  else none

/-- Rows of major opcode 0x59 (R77). -/
def decodeOp59 (w : Nat) : Option Instr :=
  if fld w 0 1 == 0 then some (.aand (markOf w) (.ofNat 5 (fld w 16 5)) (.ofNat 5 (fld w 11 5)) (.ofNat 5 (fld w 6 5)) (.ofNat 2 (fld w 4 2)) (.ofNat 2 (fld w 2 2)) (.ofNat 1 (fld w 1 1)))
  else if fld w 0 1 == 1 then some (.aor (markOf w) (.ofNat 5 (fld w 16 5)) (.ofNat 5 (fld w 11 5)) (.ofNat 5 (fld w 6 5)) (.ofNat 2 (fld w 4 2)) (.ofNat 2 (fld w 2 2)) (.ofNat 1 (fld w 1 1)))
  else none

/-- Rows of major opcode 0x5A (R77). -/
def decodeOp5A (w : Nat) : Option Instr :=
  if fld w 0 1 == 0 then some (.axor (markOf w) (.ofNat 5 (fld w 16 5)) (.ofNat 5 (fld w 11 5)) (.ofNat 5 (fld w 6 5)) (.ofNat 2 (fld w 4 2)) (.ofNat 2 (fld w 2 2)) (.ofNat 1 (fld w 1 1)))
  else if fld w 0 1 == 1 then some (.aswp (markOf w) (.ofNat 5 (fld w 16 5)) (.ofNat 5 (fld w 11 5)) (.ofNat 5 (fld w 6 5)) (.ofNat 2 (fld w 4 2)) (.ofNat 2 (fld w 2 2)) (.ofNat 1 (fld w 1 1)))
  else none

/-- Rows of major opcode 0x5B (R77). -/
def decodeOp5B (w : Nat) : Option Instr :=
  some (.amin (markOf w) (.ofNat 5 (fld w 16 5)) (.ofNat 5 (fld w 11 5)) (.ofNat 5 (fld w 6 5)) (.ofNat 2 (fld w 4 2)) (.ofNat 2 (fld w 2 2)) (.ofNat 1 (fld w 1 1)) (.ofNat 1 (fld w 0 1)))

/-- Rows of major opcode 0x5C (R77). -/
def decodeOp5C (w : Nat) : Option Instr :=
  some (.amax (markOf w) (.ofNat 5 (fld w 16 5)) (.ofNat 5 (fld w 11 5)) (.ofNat 5 (fld w 6 5)) (.ofNat 2 (fld w 4 2)) (.ofNat 2 (fld w 2 2)) (.ofNat 1 (fld w 1 1)) (.ofNat 1 (fld w 0 1)))

/-- Rows of major opcode 0x5D (R77). -/
def decodeOp5D (w : Nat) : Option Instr :=
  if fld w 0 1 == 0 then some (.acas (markOf w) (.ofNat 5 (fld w 16 5)) (.ofNat 5 (fld w 11 5)) (.ofNat 5 (fld w 6 5)) (.ofNat 2 (fld w 4 2)) (.ofNat 2 (fld w 2 2)) (.ofNat 1 (fld w 1 1)))
  else none

/-- Rows of major opcode 0x5E (R77). -/
def decodeOp5E (w : Nat) : Option Instr :=
  if fld w 0 2 == 2 then some (.afadd (markOf w) (.ofNat 5 (fld w 16 5)) (.ofNat 5 (fld w 11 5)) (.ofNat 5 (fld w 6 5)) (.ofNat 2 (fld w 4 2)) (.ofNat 2 (fld w 2 2)))
  else none

/-- Rows of major opcode 0x5F (R77). -/
def decodeOp5F (w : Nat) : Option Instr :=
  if fld w 0 2 == 0 && fld w 4 2 == 0 then some (.fst (markOf w) (.ofNat 5 (fld w 16 5)) (.ofNat 5 (fld w 11 5)) (.ofNat 5 (fld w 6 5)) (.ofNat 2 (fld w 2 2)))
  else if fld w 0 6 == 16 then some (.fblk (markOf w) (.ofNat 5 (fld w 16 5)) (.ofNat 5 (fld w 11 5)) (.ofNat 5 (fld w 6 5)))
  else if fld w 0 1 == 0 && fld w 4 12 == 2 then some (.fence (markOf w) (.ofNat 5 (fld w 16 5)) (.ofNat 3 (fld w 1 3)))
  else if fld w 0 21 == 48 then some (.lbfence (markOf w))
  else none

/-- Rows of major opcode 0x60 (R77). -/
def decodeOp60 (w : Nat) : Option Instr :=
  if fld w 0 8 == 0 then some (.sync (markOf w) (.ofNat 3 (fld w 18 3)) (.ofNat 5 (fld w 13 5)) (.ofNat 5 (fld w 8 5)))
  else if fld w 0 21 == 1 then some (.gbar (markOf w))
  else if fld w 0 3 == 2 && fld w 18 3 == 0 then some (.waita (markOf w) (.ofNat 5 (fld w 13 5)) (.ofNat 5 (fld w 8 5)) (.ofNat 5 (fld w 3 5)))
  else if fld w 0 13 == 3 && fld w 18 3 == 0 then some (.wake (markOf w) (.ofNat 5 (fld w 13 5)))
  else if fld w 0 8 == 4 && fld w 18 3 == 0 then some (.send (markOf w) (.ofNat 5 (fld w 13 5)) (.ofNat 5 (fld w 8 5)))
  else if fld w 0 8 == 5 then some (.sende (markOf w) (.ofNat 3 (fld w 18 3)) (.ofNat 5 (fld w 13 5)) (.ofNat 5 (fld w 8 5)))
  else if fld w 0 3 == 6 && fld w 18 3 == 0 then some (.recv (markOf w) (.ofNat 5 (fld w 13 5)) (.ofNat 5 (fld w 8 5)) (.ofNat 5 (fld w 3 5)))
  else if fld w 0 21 == 7 then some (.exch (markOf w))
  else none

/-- Rows of major opcode 0x61 (R77). -/
def decodeOp61 (w : Nat) : Option Instr :=
  if fld w 0 13 == 0 && fld w 18 3 == 0 then some (.sign (markOf w) (.ofNat 5 (fld w 13 5)))
  else if fld w 0 21 == 1 then some (.dissolve (markOf w))
  else if fld w 0 13 == 2 then some (.gset (markOf w) (.ofNat 3 (fld w 18 3)) (.ofNat 5 (fld w 13 5)))
  else if fld w 0 18 == 3 then some (.gwait (markOf w) (.ofNat 3 (fld w 18 3)))
  else if fld w 0 21 == 4 then some (.seal (markOf w))
  else if fld w 0 13 == 5 && fld w 18 3 == 0 then some (.sealw (markOf w) (.ofNat 5 (fld w 13 5)))
  else none

/-- Rows of major opcode 0x62 (R77). -/
def decodeOp62 (w : Nat) : Option Instr :=
  if fld w 0 8 == 0 then some (.job (markOf w) (.ofNat 3 (fld w 18 3)) (.ofNat 5 (fld w 13 5)) (.ofNat 5 (fld w 8 5)))
  else if fld w 0 13 == 1 && fld w 18 3 == 0 then some (.jobw (markOf w) (.ofNat 5 (fld w 13 5)))
  else if fld w 0 8 == 2 && fld w 18 3 == 0 then some (.jobq (markOf w) (.ofNat 5 (fld w 13 5)) (.ofNat 5 (fld w 8 5)))
  else if fld w 0 13 == 3 && fld w 18 3 == 0 then some (.jobx (markOf w) (.ofNat 5 (fld w 13 5)))
  else if fld w 0 8 == 4 && fld w 18 3 == 0 then some (.wbind (markOf w) (.ofNat 5 (fld w 13 5)) (.ofNat 5 (fld w 8 5)))
  else if fld w 0 13 == 5 && fld w 18 3 == 0 then some (.wdrop (markOf w) (.ofNat 5 (fld w 13 5)))
  else if fld w 0 8 == 6 && fld w 18 3 == 0 then some (.wstat (markOf w) (.ofNat 5 (fld w 13 5)) (.ofNat 5 (fld w 8 5)))
  else if fld w 0 8 == 7 then some (.coll (markOf w) (.ofNat 3 (fld w 18 3)) (.ofNat 5 (fld w 13 5)) (.ofNat 5 (fld w 8 5)))
  else none

/-- Rows of major opcode 0x63 (R77). -/
def decodeOp63 (w : Nat) : Option Instr :=
  if fld w 0 8 == 0 && fld w 18 3 == 0 then some (.task (markOf w) (.ofNat 5 (fld w 13 5)) (.ofNat 5 (fld w 8 5)))
  else if fld w 0 21 == 1 then some (.tdone (markOf w))
  else if fld w 0 8 == 2 && fld w 18 3 == 0 then some (.discard (markOf w) (.ofNat 5 (fld w 13 5)) (.ofNat 5 (fld w 8 5)))
  else if fld w 0 8 == 3 && fld w 18 3 == 0 then some (.cwb (markOf w) (.ofNat 5 (fld w 13 5)) (.ofNat 5 (fld w 8 5)))
  else if fld w 0 8 == 4 && fld w 18 3 == 0 then some (.cinv (markOf w) (.ofNat 5 (fld w 13 5)) (.ofNat 5 (fld w 8 5)))
  else none

/-- Rows of major opcode 0x68 (R77). -/
def decodeOp68 (w : Nat) : Option Instr :=
  if fld w 0 6 == 0 then some (.trap (markOf w) (.ofNat 15 (fld w 6 15)))
  else if fld w 0 6 == 4 then some (.svc (markOf w) (.ofNat 15 (fld w 6 15)))
  else if fld w 0 21 == 8 then some (.eret (markOf w))
  else if fld w 0 11 == 12 && fld w 16 5 == 0 then some (.gate (markOf w) (.ofNat 5 (fld w 11 5)))
  else if fld w 0 21 == 16 then some (.gret (markOf w))
  else if fld w 0 11 == 20 then some (.ctxsv (markOf w) (.ofNat 5 (fld w 16 5)) (.ofNat 5 (fld w 11 5)))
  else if fld w 0 11 == 24 then some (.ctxld (markOf w) (.ofNat 5 (fld w 16 5)) (.ofNat 5 (fld w 11 5)))
  else if fld w 0 11 == 28 && fld w 16 5 == 0 then some (.tlbiPage (markOf w) (.ofNat 5 (fld w 11 5)))
  else if fld w 0 6 == 29 && fld w 11 10 == 0 then some (.tlbiPart (markOf w) (.ofNat 5 (fld w 6 5)))
  else if fld w 0 21 == 30 then some (.tlbiAll (markOf w))
  else if fld w 0 21 == 32 then some (.halt (markOf w))
  else if fld w 0 6 == 36 && fld w 16 5 == 0 then some (.wdog (markOf w) (.ofNat 5 (fld w 11 5)) (.ofNat 5 (fld w 6 5)))
  else if fld w 0 11 == 40 && fld w 16 5 == 0 then some (.kill (markOf w) (.ofNat 5 (fld w 11 5)))
  else if fld w 0 11 == 41 && fld w 16 5 == 0 then some (.killDom (markOf w) (.ofNat 5 (fld w 11 5)))
  else if fld w 0 6 == 44 then some (.pcfgSplit (markOf w) (.ofNat 5 (fld w 16 5)) (.ofNat 5 (fld w 11 5)) (.ofNat 5 (fld w 6 5)))
  else if fld w 0 6 == 48 then some (.vfcfg (markOf w) (.ofNat 5 (fld w 16 5)) (.ofNat 5 (fld w 11 5)) (.ofNat 5 (fld w 6 5)))
  else if fld w 0 6 == 52 then some (.domcfgWrite (markOf w) (.ofNat 5 (fld w 16 5)) (.ofNat 5 (fld w 11 5)) (.ofNat 5 (fld w 6 5)))
  else if fld w 0 6 == 56 && fld w 16 5 == 0 then some (.l2msk (markOf w) (.ofNat 5 (fld w 11 5)) (.ofNat 5 (fld w 6 5)))
  else if fld w 0 11 == 60 then some (.clkj (markOf w) (.ofNat 5 (fld w 16 5)) (.ofNat 5 (fld w 11 5)))
  else none

/-- Rows of major opcode 0x69 (R77). -/
def decodeOp69 (w : Nat) : Option Instr :=
  if fld w 0 16 == 0 then some (.clkl (markOf w) (.ofNat 5 (fld w 16 5)))
  else if fld w 0 6 == 4 then some (.memblkOffer (markOf w) (.ofNat 5 (fld w 16 5)) (.ofNat 5 (fld w 11 5)) (.ofNat 5 (fld w 6 5)))
  else none

/-- Rows of major opcode 0x6A (R77). -/
def decodeOp6A (w : Nat) : Option Instr :=
  if fld w 11 5 == 0 then some (.mfs (markOf w) (.ofNat 5 (fld w 16 5)) (.ofNat 11 (fld w 0 11)))
  else none

/-- Rows of major opcode 0x6B (R77). -/
def decodeOp6B (w : Nat) : Option Instr :=
  if fld w 16 5 == 0 then some (.mts (markOf w) (.ofNat 5 (fld w 11 5)) (.ofNat 11 (fld w 0 11)))
  else none

/-- Rows of major opcode 0x70 (R77). -/
def decodeOp70 (w : Nat) : Option Instr :=
  if fld w 28 2 == 0 then some (.himm (fld w 30 1 == 1) (.ofNat 21 (fld w 0 21)))
  else none

/-- Rows of major opcode 0x71 (R77). -/
def decodeOp71 (w : Nat) : Option Instr :=
  if fld w 2 2 == 0 && fld w 10 11 == 0 && fld w 28 2 == 0 then some (.hmod (fld w 30 1 == 1) (.ofNat 1 (fld w 9 1)) (.ofNat 1 (fld w 8 1)) (.ofNat 4 (fld w 4 4)) (.ofNat 2 (fld w 0 2)))
  else none

/-- Rows of major opcode 0x72 (R77). -/
def decodeOp72 (w : Nat) : Option Instr :=
  if fld w 8 13 == 0 && fld w 28 2 == 0 then some (.hsched (fld w 30 1 == 1) (.ofNat 5 (fld w 3 5)) (.ofNat 3 (fld w 0 3)))
  else none

/-- The row that the fixed bits of a word below V select (R77, R79 steps 2 and 3). -/
def decodeRow (w : Nat) : Option Instr :=
  match fld w 21 7 with
  | 0x00 => decodeOp00 w
  | 0x01 => decodeOp01 w
  | 0x02 => decodeOp02 w
  | 0x10 => decodeOp10 w
  | 0x11 => decodeOp11 w
  | 0x12 => decodeOp12 w
  | 0x13 => decodeOp13 w
  | 0x14 => decodeOp14 w
  | 0x15 => decodeOp15 w
  | 0x16 => decodeOp16 w
  | 0x17 => decodeOp17 w
  | 0x18 => decodeOp18 w
  | 0x19 => decodeOp19 w
  | 0x1A => decodeOp1A w
  | 0x1B => decodeOp1B w
  | 0x20 => decodeOp20 w
  | 0x21 => decodeOp21 w
  | 0x22 => decodeOp22 w
  | 0x23 => decodeOp23 w
  | 0x24 => decodeOp24 w
  | 0x25 => decodeOp25 w
  | 0x26 => decodeOp26 w
  | 0x27 => decodeOp27 w
  | 0x28 => decodeOp28 w
  | 0x29 => decodeOp29 w
  | 0x2A => decodeOp2A w
  | 0x2B => decodeOp2B w
  | 0x2C => decodeOp2C w
  | 0x2D => decodeOp2D w
  | 0x2E => decodeOp2E w
  | 0x30 => decodeOp30 w
  | 0x31 => decodeOp31 w
  | 0x32 => decodeOp32 w
  | 0x33 => decodeOp33 w
  | 0x34 => decodeOp34 w
  | 0x35 => decodeOp35 w
  | 0x36 => decodeOp36 w
  | 0x37 => decodeOp37 w
  | 0x38 => decodeOp38 w
  | 0x39 => decodeOp39 w
  | 0x40 => decodeOp40 w
  | 0x41 => decodeOp41 w
  | 0x42 => decodeOp42 w
  | 0x43 => decodeOp43 w
  | 0x44 => decodeOp44 w
  | 0x50 => decodeOp50 w
  | 0x51 => decodeOp51 w
  | 0x52 => decodeOp52 w
  | 0x53 => decodeOp53 w
  | 0x58 => decodeOp58 w
  | 0x59 => decodeOp59 w
  | 0x5A => decodeOp5A w
  | 0x5B => decodeOp5B w
  | 0x5C => decodeOp5C w
  | 0x5D => decodeOp5D w
  | 0x5E => decodeOp5E w
  | 0x5F => decodeOp5F w
  | 0x60 => decodeOp60 w
  | 0x61 => decodeOp61 w
  | 0x62 => decodeOp62 w
  | 0x63 => decodeOp63 w
  | 0x68 => decodeOp68 w
  | 0x69 => decodeOp69 w
  | 0x6A => decodeOp6A w
  | 0x6B => decodeOp6B w
  | 0x70 => decodeOp70 w
  | 0x71 => decodeOp71 w
  | 0x72 => decodeOp72 w
  | _ => none

/-- The decoder, R79 steps 1 to 3. -/
def decodeWord (w : Nat) : Except DecodeError Instr :=
  if fld w 31 1 == 1 then .error .version
  else match decodeRow w with
    | none => .error .selector
    | some i => if i.wellFormed then .ok i else .error .field

/-- The word of a table row whose bits are `w`: every instruction is one 32-bit word, stored little-endian (R72), and is
read back from its four bytes. -/
def decodeTableWord (nbits w : Nat) : Option Instr :=
  match decodeWord (leNat (leBytes 4 (w % 2 ^ nbits))) with
  | .ok i => some i
  | .error _ => none

/-- The word has OP 0x70, 0x71 or 0x72, whatever its other bits: a hint word for the rules of hint groups (R80). -/
def isHintWord (w : Nat) : Bool := 0x70 ≤ fld w 21 7 && fld w 21 7 ≤ 0x72

/-- V, S and T as bits of the word. -/
def Mark.bits (m : Mark) : Nat := m.v.toNat * 2 ^ 30 + m.s.toNat * 2 ^ 29 + m.t.toNat * 2 ^ 28

/-- A field at its place in the word. -/
def fieldAt {n : Nat} (x : BitVec n) (lo : Nat) : Nat := x.toNat * 2 ^ lo

/-- A row's word: its fixed bits, its mark and its placed fields. -/
def encRow (fixed : Nat) (mark : Nat) (fields : List Nat) : Option Nat := some (fixed + mark + fields.sum)

/-- The encoder: the word of an instruction; a step that no word encodes has none. -/
def encode (i : Instr) : Option Nat :=
  match i with
  | .add mk d a b q => encRow 0x00000000 mk.bits [fieldAt d 16, fieldAt a 11, fieldAt b 6, fieldAt q 0]
  | .sub mk d a b q => encRow 0x00000004 mk.bits [fieldAt d 16, fieldAt a 11, fieldAt b 6, fieldAt q 0]
  | .mul mk d a b q => encRow 0x00000008 mk.bits [fieldAt d 16, fieldAt a 11, fieldAt b 6, fieldAt q 0]
  | .mulh mk d a b => encRow 0x0000000C mk.bits [fieldAt d 16, fieldAt a 11, fieldAt b 6]
  | .mulhn mk d a b => encRow 0x00000010 mk.bits [fieldAt d 16, fieldAt a 11, fieldAt b 6]
  | .div mk d a b => encRow 0x00000014 mk.bits [fieldAt d 16, fieldAt a 11, fieldAt b 6]
  | .divn mk d a b => encRow 0x00000018 mk.bits [fieldAt d 16, fieldAt a 11, fieldAt b 6]
  | .rem mk d a b => encRow 0x0000001C mk.bits [fieldAt d 16, fieldAt a 11, fieldAt b 6]
  | .remn mk d a b => encRow 0x00000020 mk.bits [fieldAt d 16, fieldAt a 11, fieldAt b 6]
  | .min mk d a b => encRow 0x00000024 mk.bits [fieldAt d 16, fieldAt a 11, fieldAt b 6]
  | .max mk d a b => encRow 0x00000028 mk.bits [fieldAt d 16, fieldAt a 11, fieldAt b 6]
  | .minn mk d a b => encRow 0x0000002C mk.bits [fieldAt d 16, fieldAt a 11, fieldAt b 6]
  | .maxn mk d a b => encRow 0x00000030 mk.bits [fieldAt d 16, fieldAt a 11, fieldAt b 6]
  | .and mk d a b => encRow 0x00200000 mk.bits [fieldAt d 16, fieldAt a 11, fieldAt b 6]
  | .or mk d a b => encRow 0x00200004 mk.bits [fieldAt d 16, fieldAt a 11, fieldAt b 6]
  | .xor mk d a b => encRow 0x00200008 mk.bits [fieldAt d 16, fieldAt a 11, fieldAt b 6]
  | .andn mk d a b => encRow 0x0020000C mk.bits [fieldAt d 16, fieldAt a 11, fieldAt b 6]
  | .shl mk d a b w => encRow 0x00200010 mk.bits [fieldAt d 16, fieldAt a 11, fieldAt b 6, fieldAt w 0]
  | .shr mk d a b w => encRow 0x00200014 mk.bits [fieldAt d 16, fieldAt a 11, fieldAt b 6, fieldAt w 0]
  | .sra mk d a b w => encRow 0x00200018 mk.bits [fieldAt d 16, fieldAt a 11, fieldAt b 6, fieldAt w 0]
  | .rol mk d a b w => encRow 0x0020001C mk.bits [fieldAt d 16, fieldAt a 11, fieldAt b 6, fieldAt w 0]
  | .clz mk d a w => encRow 0x00200020 mk.bits [fieldAt d 16, fieldAt a 11, fieldAt w 0]
  | .ctz mk d a w => encRow 0x00200024 mk.bits [fieldAt d 16, fieldAt a 11, fieldAt w 0]
  | .popc mk d a w => encRow 0x00200028 mk.bits [fieldAt d 16, fieldAt a 11, fieldAt w 0]
  | .sel mk d a b => encRow 0x0020002C mk.bits [fieldAt d 16, fieldAt a 11, fieldAt b 6]
  | .cmp mk d a b c => encRow 0x00200030 mk.bits [fieldAt d 16, fieldAt a 11, fieldAt b 6, fieldAt c 0]
  | .sext mk d a w => encRow 0x00200034 mk.bits [fieldAt d 16, fieldAt a 11, fieldAt w 0]
  | .zext mk d a w => encRow 0x00200038 mk.bits [fieldAt d 16, fieldAt a 11, fieldAt w 0]
  | .bfx mk d a b x => encRow 0x0020003C mk.bits [fieldAt d 16, fieldAt a 11, fieldAt b 6, fieldAt x 0]
  | .bfi mk d a b => encRow 0x00400000 mk.bits [fieldAt d 16, fieldAt a 11, fieldAt b 6]
  | .addi mk d a i => encRow 0x02000000 mk.bits [fieldAt d 16, fieldAt a 11, fieldAt i 0]
  | .andi mk d a i => encRow 0x02200000 mk.bits [fieldAt d 16, fieldAt a 11, fieldAt i 0]
  | .ori mk d a i => encRow 0x02400000 mk.bits [fieldAt d 16, fieldAt a 11, fieldAt i 0]
  | .xori mk d a i => encRow 0x02600000 mk.bits [fieldAt d 16, fieldAt a 11, fieldAt i 0]
  | .shli mk d a w n => encRow 0x02800000 mk.bits [fieldAt d 16, fieldAt a 11, fieldAt w 6, fieldAt n 0]
  | .shri mk d a w n => encRow 0x02A00000 mk.bits [fieldAt d 16, fieldAt a 11, fieldAt w 6, fieldAt n 0]
  | .srai mk d a w n => encRow 0x02C00000 mk.bits [fieldAt d 16, fieldAt a 11, fieldAt w 6, fieldAt n 0]
  | .cmpi mk d a i => encRow 0x02E00000 mk.bits [fieldAt d 16, fieldAt a 11, fieldAt i 0]
  | .li mk d i => encRow 0x03000000 mk.bits [fieldAt d 16, fieldAt i 0]
  | .lih mk d i => encRow 0x03200000 mk.bits [fieldAt d 16, fieldAt i 0]
  | .gadr mk d a i => encRow 0x03400000 mk.bits [fieldAt d 16, fieldAt a 11, fieldAt i 0]
  | .ladr mk d a i => encRow 0x03600000 mk.bits [fieldAt d 16, fieldAt a 11, fieldAt i 0]
  | .br mk h o => encRow 0x04000000 mk.bits [fieldAt h 19, fieldAt o 0]
  | .bc mk h c o => encRow 0x04200000 mk.bits [fieldAt h 19, fieldAt c 16, fieldAt o 0]
  | .bcZ mk h c o => encRow 0x04400000 mk.bits [fieldAt h 19, fieldAt c 16, fieldAt o 0]
  | .bg mk h c o => encRow 0x04600000 mk.bits [fieldAt h 19, fieldAt c 16, fieldAt o 0]
  | .bgF mk h c o => encRow 0x04800000 mk.bits [fieldAt h 19, fieldAt c 16, fieldAt o 0]
  | .call mk h o => encRow 0x04A00000 mk.bits [fieldAt h 19, fieldAt o 0]
  | .callr mk d a => encRow 0x04C00000 mk.bits [fieldAt d 16, fieldAt a 11]
  | .ret mk a => encRow 0x04E00000 mk.bits [fieldAt a 11]
  | .jmpr mk a => encRow 0x05000000 mk.bits [fieldAt a 11]
  | .jtab mk d a n => encRow 0x05200000 mk.bits [fieldAt d 16, fieldAt a 11, fieldAt n 0]
  | .loop mk d l => encRow 0x05400000 mk.bits [fieldAt d 16, fieldAt l 0]
  | .lexit mk => encRow 0x05600000 mk.bits []
  | .yield mk => encRow 0x05800000 mk.bits []
  | .spawn mk d a b p => encRow 0x05A00000 mk.bits [fieldAt d 16, fieldAt a 11, fieldAt b 6, fieldAt p 0]
  | .exit mk => encRow 0x05C00000 mk.bits []
  | .ld mk d b z o => encRow 0x06000000 mk.bits [fieldAt d 16, fieldAt b 11, fieldAt z 8, fieldAt o 0]
  | .st mk d b z o => encRow 0x06200000 mk.bits [fieldAt d 16, fieldAt b 11, fieldAt z 8, fieldAt o 0]
  | .ldl mk d b z o => encRow 0x06400000 mk.bits [fieldAt d 16, fieldAt b 11, fieldAt z 8, fieldAt o 0]
  | .stl mk d b z o => encRow 0x06600000 mk.bits [fieldAt d 16, fieldAt b 11, fieldAt z 8, fieldAt o 0]
  | .ldx mk d b z i => encRow 0x06800000 mk.bits [fieldAt d 16, fieldAt b 11, fieldAt z 8, fieldAt i 3]
  | .stx mk d b z i => encRow 0x06A00000 mk.bits [fieldAt d 16, fieldAt b 11, fieldAt z 8, fieldAt i 3]
  | .lda mk d b z c o => encRow 0x06C00000 mk.bits [fieldAt d 16, fieldAt b 11, fieldAt z 8, fieldAt c 5, fieldAt o 0]
  | .strel mk d b z c o => encRow 0x06E00000 mk.bits [fieldAt d 16, fieldAt b 11, fieldAt z 8, fieldAt c 5, fieldAt o 0]
  | .bmov mk d a b => encRow 0x07000000 mk.bits [fieldAt d 16, fieldAt a 11, fieldAt b 6]
  | .bfill mk d a b => encRow 0x07200000 mk.bits [fieldAt d 16, fieldAt a 11, fieldAt b 6]
  | .vld mk d a b l => encRow 0x08000000 mk.bits [fieldAt d 16, fieldAt a 11, fieldAt b 6, fieldAt l 5]
  | .vst mk d a b l => encRow 0x08000001 mk.bits [fieldAt d 16, fieldAt a 11, fieldAt b 6, fieldAt l 5]
  | .vlds mk d a b l w => encRow 0x08000002 mk.bits [fieldAt d 16, fieldAt a 11, fieldAt b 6, fieldAt l 5, fieldAt w 3]
  | .vsts mk d a b l w => encRow 0x08000003 mk.bits [fieldAt d 16, fieldAt a 11, fieldAt b 6, fieldAt l 5, fieldAt w 3]
  | .vgth mk d a b l w => encRow 0x08000004 mk.bits [fieldAt d 16, fieldAt a 11, fieldAt b 6, fieldAt l 5, fieldAt w 3]
  | .vsct mk d a b l w => encRow 0x08000005 mk.bits [fieldAt d 16, fieldAt a 11, fieldAt b 6, fieldAt l 5, fieldAt w 3]
  | .vbcst mk d a e => encRow 0x08000006 mk.bits [fieldAt d 16, fieldAt a 11, fieldAt e 3]
  | .vext mk d a b e => encRow 0x08000007 mk.bits [fieldAt d 16, fieldAt a 11, fieldAt b 6, fieldAt e 3]
  | .vadd mk d a b e => encRow 0x08200000 mk.bits [fieldAt d 16, fieldAt a 11, fieldAt b 6, fieldAt e 3]
  | .vsub mk d a b e => encRow 0x08200001 mk.bits [fieldAt d 16, fieldAt a 11, fieldAt b 6, fieldAt e 3]
  | .vmul mk d a b e => encRow 0x08200002 mk.bits [fieldAt d 16, fieldAt a 11, fieldAt b 6, fieldAt e 3]
  | .vmad mk d a b e => encRow 0x08200003 mk.bits [fieldAt d 16, fieldAt a 11, fieldAt b 6, fieldAt e 3]
  | .vmin mk d a b e => encRow 0x08200004 mk.bits [fieldAt d 16, fieldAt a 11, fieldAt b 6, fieldAt e 3]
  | .vmax mk d a b e => encRow 0x08200005 mk.bits [fieldAt d 16, fieldAt a 11, fieldAt b 6, fieldAt e 3]
  | .vabs mk d a e => encRow 0x08200006 mk.bits [fieldAt d 16, fieldAt a 11, fieldAt e 3]
  | .vneg mk d a e => encRow 0x08200007 mk.bits [fieldAt d 16, fieldAt a 11, fieldAt e 3]
  | .vand mk d a b => encRow 0x08400000 mk.bits [fieldAt d 16, fieldAt a 11, fieldAt b 6]
  | .vor mk d a b => encRow 0x08400001 mk.bits [fieldAt d 16, fieldAt a 11, fieldAt b 6]
  | .vxor mk d a b => encRow 0x08400002 mk.bits [fieldAt d 16, fieldAt a 11, fieldAt b 6]
  | .vshl mk d a b e => encRow 0x08400003 mk.bits [fieldAt d 16, fieldAt a 11, fieldAt b 6, fieldAt e 3]
  | .vshr mk d a b e => encRow 0x08400004 mk.bits [fieldAt d 16, fieldAt a 11, fieldAt b 6, fieldAt e 3]
  | .vsra mk d a b e => encRow 0x08400005 mk.bits [fieldAt d 16, fieldAt a 11, fieldAt b 6, fieldAt e 3]
  | .vcmp mk d a c e => encRow 0x08400006 mk.bits [fieldAt d 16, fieldAt a 11, fieldAt c 6, fieldAt e 3]
  | .vsel mk d a b => encRow 0x08400007 mk.bits [fieldAt d 16, fieldAt a 11, fieldAt b 6]
  | .vperm mk d a b e => encRow 0x08600000 mk.bits [fieldAt d 16, fieldAt a 11, fieldAt b 6, fieldAt e 3]
  | .vins mk d a b e => encRow 0x08600001 mk.bits [fieldAt d 16, fieldAt a 11, fieldAt b 6, fieldAt e 3]
  | .vred mk d a k e => encRow 0x08600002 mk.bits [fieldAt d 16, fieldAt a 11, fieldAt k 6, fieldAt e 3]
  | .vfadd mk d a b e => encRow 0x08600003 mk.bits [fieldAt d 16, fieldAt a 11, fieldAt b 6, fieldAt e 3]
  | .vfsub mk d a b e => encRow 0x08600004 mk.bits [fieldAt d 16, fieldAt a 11, fieldAt b 6, fieldAt e 3]
  | .vfmul mk d a b e => encRow 0x08600005 mk.bits [fieldAt d 16, fieldAt a 11, fieldAt b 6, fieldAt e 3]
  | .vfma mk d a b e => encRow 0x08600006 mk.bits [fieldAt d 16, fieldAt a 11, fieldAt b 6, fieldAt e 3]
  | .vfmin mk d a b e => encRow 0x08600007 mk.bits [fieldAt d 16, fieldAt a 11, fieldAt b 6, fieldAt e 3]
  | .vfmax mk d a b e => encRow 0x08800000 mk.bits [fieldAt d 16, fieldAt a 11, fieldAt b 6, fieldAt e 3]
  | .vrcp mk d a e => encRow 0x08800001 mk.bits [fieldAt d 16, fieldAt a 11, fieldAt e 3]
  | .vrsq mk d a e => encRow 0x08800002 mk.bits [fieldAt d 16, fieldAt a 11, fieldAt e 3]
  | .vcvt mk d a b e => encRow 0x08800003 mk.bits [fieldAt d 16, fieldAt a 11, fieldAt b 6, fieldAt e 3]
  | .vpack mk d a b e => encRow 0x08800004 mk.bits [fieldAt d 16, fieldAt a 11, fieldAt b 6, fieldAt e 3]
  | .vunpk mk d a b e => encRow 0x08800005 mk.bits [fieldAt d 16, fieldAt a 11, fieldAt b 6, fieldAt e 3]
  | .vscl mk d a b e => encRow 0x08800006 mk.bits [fieldAt d 16, fieldAt a 11, fieldAt b 6, fieldAt e 3]
  | .mma mk q c a b k => encRow 0x0A000000 mk.bits [fieldAt q 18, fieldAt c 16, fieldAt a 11, fieldAt b 6, fieldAt k 1]
  | .mmar mk q c a b k => encRow 0x0A200000 mk.bits [fieldAt q 18, fieldAt c 16, fieldAt a 11, fieldAt b 6, fieldAt k 1]
  | .mzero mk q a => encRow 0x0A400000 mk.bits [fieldAt q 18, fieldAt a 13]
  | .mwait mk m5 => encRow 0x0A400001 mk.bits [fieldAt m5 13]
  | .mwm mk a b => encRow 0x0A400002 mk.bits [fieldAt a 13, fieldAt b 8]
  | .mpln mk a b c => encRow 0x0A400003 mk.bits [fieldAt a 13, fieldAt b 8, fieldAt c 3]
  | .mscl mk q a b c => encRow 0x0A400004 mk.bits [fieldAt q 18, fieldAt a 13, fieldAt b 8, fieldAt c 3]
  | .scalemc mk q a b c => encRow 0x0A400005 mk.bits [fieldAt q 18, fieldAt a 13, fieldAt b 8, fieldAt c 3]
  | .acvt mk q a b c => encRow 0x0A400006 mk.bits [fieldAt q 18, fieldAt a 13, fieldAt b 8, fieldAt c 3]
  | .msave mk a b => encRow 0x0A400007 mk.bits [fieldAt a 13, fieldAt b 8]
  | .mrest mk a b => encRow 0x0A600000 mk.bits [fieldAt a 13, fieldAt b 8]
  | .capmint mk a b => encRow 0x0A600001 mk.bits [fieldAt a 13, fieldAt b 8]
  | .aadd mk d a b o x w => encRow 0x0B000000 mk.bits [fieldAt d 16, fieldAt a 11, fieldAt b 6, fieldAt o 4, fieldAt x 2, fieldAt w 1]
  | .aand mk d a b o x w => encRow 0x0B200000 mk.bits [fieldAt d 16, fieldAt a 11, fieldAt b 6, fieldAt o 4, fieldAt x 2, fieldAt w 1]
  | .aor mk d a b o x w => encRow 0x0B200001 mk.bits [fieldAt d 16, fieldAt a 11, fieldAt b 6, fieldAt o 4, fieldAt x 2, fieldAt w 1]
  | .axor mk d a b o x w => encRow 0x0B400000 mk.bits [fieldAt d 16, fieldAt a 11, fieldAt b 6, fieldAt o 4, fieldAt x 2, fieldAt w 1]
  | .aswp mk d a b o x w => encRow 0x0B400001 mk.bits [fieldAt d 16, fieldAt a 11, fieldAt b 6, fieldAt o 4, fieldAt x 2, fieldAt w 1]
  | .amin mk d a b o x w n => encRow 0x0B600000 mk.bits [fieldAt d 16, fieldAt a 11, fieldAt b 6, fieldAt o 4, fieldAt x 2, fieldAt w 1, fieldAt n 0]
  | .amax mk d a b o x w n => encRow 0x0B800000 mk.bits [fieldAt d 16, fieldAt a 11, fieldAt b 6, fieldAt o 4, fieldAt x 2, fieldAt w 1, fieldAt n 0]
  | .acas mk d a b o x w => encRow 0x0BA00000 mk.bits [fieldAt d 16, fieldAt a 11, fieldAt b 6, fieldAt o 4, fieldAt x 2, fieldAt w 1]
  | .afadd mk d a b o x => encRow 0x0BC00002 mk.bits [fieldAt d 16, fieldAt a 11, fieldAt b 6, fieldAt o 4, fieldAt x 2]
  | .fst mk d a b z => encRow 0x0BE00000 mk.bits [fieldAt d 16, fieldAt a 11, fieldAt b 6, fieldAt z 2]
  | .fblk mk d a b => encRow 0x0BE00010 mk.bits [fieldAt d 16, fieldAt a 11, fieldAt b 6]
  | .fence mk k c => encRow 0x0BE00020 mk.bits [fieldAt k 16, fieldAt c 1]
  | .lbfence mk => encRow 0x0BE00030 mk.bits []
  | .sync mk q a b => encRow 0x0C000000 mk.bits [fieldAt q 18, fieldAt a 13, fieldAt b 8]
  | .gbar mk => encRow 0x0C000001 mk.bits []
  | .waita mk a b c => encRow 0x0C000002 mk.bits [fieldAt a 13, fieldAt b 8, fieldAt c 3]
  | .wake mk a => encRow 0x0C000003 mk.bits [fieldAt a 13]
  | .send mk a b => encRow 0x0C000004 mk.bits [fieldAt a 13, fieldAt b 8]
  | .sende mk q a b => encRow 0x0C000005 mk.bits [fieldAt q 18, fieldAt a 13, fieldAt b 8]
  | .recv mk a b c => encRow 0x0C000006 mk.bits [fieldAt a 13, fieldAt b 8, fieldAt c 3]
  | .exch mk => encRow 0x0C000007 mk.bits []
  | .sign mk a => encRow 0x0C200000 mk.bits [fieldAt a 13]
  | .dissolve mk => encRow 0x0C200001 mk.bits []
  | .gset mk q a => encRow 0x0C200002 mk.bits [fieldAt q 18, fieldAt a 13]
  | .gwait mk q => encRow 0x0C200003 mk.bits [fieldAt q 18]
  | .seal mk => encRow 0x0C200004 mk.bits []
  | .sealw mk a => encRow 0x0C200005 mk.bits [fieldAt a 13]
  | .job mk q a b => encRow 0x0C400000 mk.bits [fieldAt q 18, fieldAt a 13, fieldAt b 8]
  | .jobw mk a => encRow 0x0C400001 mk.bits [fieldAt a 13]
  | .jobq mk a b => encRow 0x0C400002 mk.bits [fieldAt a 13, fieldAt b 8]
  | .jobx mk a => encRow 0x0C400003 mk.bits [fieldAt a 13]
  | .wbind mk a b => encRow 0x0C400004 mk.bits [fieldAt a 13, fieldAt b 8]
  | .wdrop mk a => encRow 0x0C400005 mk.bits [fieldAt a 13]
  | .wstat mk a b => encRow 0x0C400006 mk.bits [fieldAt a 13, fieldAt b 8]
  | .coll mk q a b => encRow 0x0C400007 mk.bits [fieldAt q 18, fieldAt a 13, fieldAt b 8]
  | .task mk a b => encRow 0x0C600000 mk.bits [fieldAt a 13, fieldAt b 8]
  | .tdone mk => encRow 0x0C600001 mk.bits []
  | .discard mk a b => encRow 0x0C600002 mk.bits [fieldAt a 13, fieldAt b 8]
  | .cwb mk a b => encRow 0x0C600003 mk.bits [fieldAt a 13, fieldAt b 8]
  | .cinv mk a b => encRow 0x0C600004 mk.bits [fieldAt a 13, fieldAt b 8]
  | .trap mk n => encRow 0x0D000000 mk.bits [fieldAt n 6]
  | .svc mk n => encRow 0x0D000004 mk.bits [fieldAt n 6]
  | .eret mk => encRow 0x0D000008 mk.bits []
  | .gate mk a => encRow 0x0D00000C mk.bits [fieldAt a 11]
  | .gret mk => encRow 0x0D000010 mk.bits []
  | .ctxsv mk d a => encRow 0x0D000014 mk.bits [fieldAt d 16, fieldAt a 11]
  | .ctxld mk d a => encRow 0x0D000018 mk.bits [fieldAt d 16, fieldAt a 11]
  | .tlbiPage mk a => encRow 0x0D00001C mk.bits [fieldAt a 11]
  | .tlbiPart mk b => encRow 0x0D00001D mk.bits [fieldAt b 6]
  | .tlbiAll mk => encRow 0x0D00001E mk.bits []
  | .halt mk => encRow 0x0D000020 mk.bits []
  | .wdog mk a b => encRow 0x0D000024 mk.bits [fieldAt a 11, fieldAt b 6]
  | .kill mk a => encRow 0x0D000028 mk.bits [fieldAt a 11]
  | .killDom mk a => encRow 0x0D000029 mk.bits [fieldAt a 11]
  | .pcfgSplit mk d a b => encRow 0x0D00002C mk.bits [fieldAt d 16, fieldAt a 11, fieldAt b 6]
  | .pcfgMerge mk d a b => encRow 0x0D00002C mk.bits [fieldAt d 16, fieldAt a 11, fieldAt b 6]
  | .pcfgCreate mk d a b => encRow 0x0D00002C mk.bits [fieldAt d 16, fieldAt a 11, fieldAt b 6]
  | .pcfgDestroy mk d a b => encRow 0x0D00002C mk.bits [fieldAt d 16, fieldAt a 11, fieldAt b 6]
  | .pcfgBind mk d a b => encRow 0x0D00002C mk.bits [fieldAt d 16, fieldAt a 11, fieldAt b 6]
  | .pcfgUnbind mk d a b => encRow 0x0D00002C mk.bits [fieldAt d 16, fieldAt a 11, fieldAt b 6]
  | .vfcfg mk d a b => encRow 0x0D000030 mk.bits [fieldAt d 16, fieldAt a 11, fieldAt b 6]
  | .domcfgWrite mk d a b => encRow 0x0D000034 mk.bits [fieldAt d 16, fieldAt a 11, fieldAt b 6]
  | .domcfgAdjust mk d a b => encRow 0x0D000034 mk.bits [fieldAt d 16, fieldAt a 11, fieldAt b 6]
  | .domcfgClear mk d a b => encRow 0x0D000034 mk.bits [fieldAt d 16, fieldAt a 11, fieldAt b 6]
  | .l2msk mk a b => encRow 0x0D000038 mk.bits [fieldAt a 11, fieldAt b 6]
  | .clkj mk d a => encRow 0x0D00003C mk.bits [fieldAt d 16, fieldAt a 11]
  | .clkl mk d => encRow 0x0D200000 mk.bits [fieldAt d 16]
  | .memblkOffer mk d a b => encRow 0x0D200004 mk.bits [fieldAt d 16, fieldAt a 11, fieldAt b 6]
  | .memblkQuery mk d a b => encRow 0x0D200004 mk.bits [fieldAt d 16, fieldAt a 11, fieldAt b 6]
  | .memblkCancel mk d a b => encRow 0x0D200004 mk.bits [fieldAt d 16, fieldAt a 11, fieldAt b 6]
  | .mfs mk d r => encRow 0x0D400000 mk.bits [fieldAt d 16, fieldAt r 0]
  | .mts mk a r => encRow 0x0D600000 mk.bits [fieldAt a 11, fieldAt r 0]
  | .himm v i => encRow 0x0E000000 (v.toNat * 2 ^ 30) [fieldAt i 0]
  | .hmod v r e f c => encRow 0x0E200000 (v.toNat * 2 ^ 30) [fieldAt r 9, fieldAt e 8, fieldAt f 4, fieldAt c 0]
  | .hsched v a k => encRow 0x0E400000 (v.toNat * 2 ^ 30) [fieldAt a 3, fieldAt k 0]
  | .bownWrite _ _ => none
  | .mbackAck _ _ => none
  | .bfEnable => none
  | .bfLeave => none
  | .eptWrite _ _ _ _ => none
  | .hceilWrite _ => none
  | .ckEvict _ => none
  | .pwRun => none
  | .pwHold => none
  | .pwLow => none
  | .spTret _ => none
  | .registerWrite _ _ _ => none
  | .illegalEncoding _ => none
  | .instructionFetchFault _ => none
  | .recordClaim _ => none
  | .leaveSlot _ => none
  | .preemption _ => none
  | .slotWatchdogExpiry _ => none
  | .packetAbort _ => none
  | .parkComplete _ => none
  | .asyncCause _ => none
  | .storeAck _ _ => none
  | .remoteRequest _ _ _ _ _ _ => none
  | .directoryRequest _ _ _ _ => none
  | .larderRoom _ => none
  | .waitaSuspend _ => none
  | .pageWalk _ _ _ => none
  | .compactBoundary _ _ => none
  | .compactResume _ => none
  | .dissolveAllArrived _ => none
  | .exchangeWrite _ _ _ _ _ => none
  | .xtimeout _ => none
  | .matrixAccept _ => none
  | .prepare _ => none
  | .commit _ => none
  | .commitAck _ _ => none
  | .sealed _ => none
  | .sealTimeout _ => none
  | .rollback _ _ _ _ => none
  | .replay _ => none
  | .hang _ _ => none
  | .vcpNotify _ _ => none
  | .queuePass _ _ => none
  | .nop _ _ => none
  | .launch _ _ => none
  | .claunch _ _ => none
  | .qfence _ _ => none
  | .signal _ _ => none
  | .wait _ _ => none
  | .launchComplete _ _ => none
  | .budgetPeriod => none
  | .sliceChange _ => none
  | .moveDeadline _ => none
  | .scrubDone _ => none
  | .flr _ => none
  | .flitReceive _ _ _ _ _ _ => none
  | .flitLost _ => none
  | .heartbeat => none
  | .packageDead _ => none
  | .linkTraining _ _ => none
  | .uetConnectionFailed _ => none
  | .clockTick => none
  | .clockAnnouncement _ _ => none
  | .clockHeartbeat => none
  | .clockSilent _ => none
  | .silentRemoval _ => none
  | .clockJoinTimeout _ => none
  | .thermalTrip => none
  | .overheat _ => none
  | .coldReset => none
  | .firmwareUpdate _ _ _ => none
  | .getMeasurements _ => none
  | .powerStateReached => none
  | .rowSpare _ => none
  | .unsupportedRequest _ => none
  | .gangBarrierComplete _ _ => none
  | .globalTileSpaceRequest _ _ _ _ _ => none
  | .sendeAcknowledgement _ => none
  | .scalemcAcknowledgement _ => none
  | .laneTest _ _ _ => none
  | .laneSparingComplete _ => none
  | .tdispRequest _ _ => none
  | .ideKmRequest _ _ => none
  | .configurationRequest _ _ _ _ => none
  | .takeScale _ => none
  | .matrixCommandComplete _ => none
  | .mmarReceive _ => none
  | .mmarStatus _ => none
  | .scaleMessage _ => none
  | .acvtRemote _ => none
  | .acvtReply _ => none
  | .packetAccept _ _ => none
  | .copyEngineAccept _ => none
  | .jobStart _ => none
  | .completionAction _ => none
  | .taskDispatch _ => none
  | .windowFillEnd _ _ => none
  | .prepared _ _ => none

end Sys2Proof
end

