-- ==== Sys2Proof/Machine/Numbers.lean ====
section
/-! DEFINITION. Number formats and arithmetic (05:R49-R71): exact values, decoding, rounding with flags, integer
clamping. Every operation returns its flags beside its result, in the layout of TS.FX (R62). -/

namespace Sys2Proof.Machine

/-- Flags in the layout of TS.FX [5:0] (R62). -/
abbrev Flags := BitVec 6
def fNX : Flags := 1
def fUF : Flags := 2
def fOF : Flags := 4
def fDZ : Flags := 8
def fNV : Flags := 16
def fSAT : Flags := 32

/-- `bits(x, h, l)` of R98. -/
def bits (x h l : Nat) : Nat := x / 2 ^ l % 2 ^ (h + 1 - l)
/-- `wrap(x, W)` of R71 on integers. -/
def wrapI (x : Int) (w : Nat) : Nat := (x % (2 ^ w : Nat)).toNat
/-- A `w`-bit pattern read as two's complement. -/
def sInt (w x : Nat) : Int := if x % 2 ^ w < 2 ^ (w - 1) then (x % 2 ^ w : Nat) else (x % 2 ^ w : Nat) - (2 ^ w : Nat)
/-- A `w`-bit pattern read as signed when `sg`, else as unsigned. -/
def readInt (w : Nat) (sg : Bool) (x : Nat) : Int := if sg then sInt w x else (x % 2 ^ w : Nat)
/-- `sext(x, n)` of R98, as a pattern of `w` bits. -/
def sextN (n w x : Nat) : Nat := wrapI (sInt n x) w

/-- `satint(x, W, sg)` of R59. -/
def satint (x : Int) (w : Nat) (sg : Bool) : Nat × Flags :=
  let lo : Int := if sg then -(2 ^ (w - 1) : Nat) else 0
  let hi : Int := if sg then (2 ^ (w - 1) : Nat) - 1 else (2 ^ w : Nat) - 1
  if x < lo then (wrapI lo w, fSAT) else if hi < x then (wrapI hi w, fSAT) else (wrapI x w, 0)

/-- Number formats of R49. `f8 k e` is f8pk (e: the extended-finite form), `n8 k e` the unsigned one. -/
inductive Fmt where
  | f8 (k : Nat) (ext : Bool)
  | n8 (k : Nat) (ext : Bool)
  | f16 | bf16 | f32 | sx8
  deriving DecidableEq, Repr

/-- Bits of a code. -/
def Fmt.width : Fmt → Nat
  | .f8 _ _ => 8 | .n8 _ _ => 8 | .f16 => 16 | .bf16 => 16 | .f32 => 32 | .sx8 => 8
/-- Trailing significand bits T (R49). -/
def Fmt.trail : Fmt → Nat
  | .f8 k _ => k - 1 | .n8 k _ => k - 1 | .f16 => 10 | .bf16 => 7 | .f32 => 23 | .sx8 => 0
/-- Bias B (R49). -/
def Fmt.bias : Fmt → Nat
  | .f8 k _ => 2 ^ (7 - k) | .n8 k _ => 2 ^ (8 - k) | .f16 => 15 | .bf16 => 127 | .f32 => 127 | .sx8 => 127
/-- EMIN of R56. -/
def Fmt.emin (f : Fmt) : Int := if f = .sx8 then -127 else 1 - f.bias
def Fmt.signed : Fmt → Bool
  | .n8 _ _ => false | .sx8 => false | _ => true
/-- HASINF of R57. -/
def Fmt.hasInf : Fmt → Bool
  | .f8 _ e => !e | .n8 _ e => !e | .sx8 => false | _ => true
/-- Magnitude bits of the infinity code. -/
def Fmt.infMag : Fmt → Nat
  | .f8 _ _ => 0x7F | .n8 _ _ => 0xFE | .f16 => 0x7C00 | .bf16 => 0x7F80 | .f32 => 0x7F800000 | .sx8 => 0
/-- Magnitude bits of the largest finite code (MAXC of R57). -/
def Fmt.maxMag : Fmt → Nat
  | .f8 _ e => if e then 0x7F else 0x7E | .n8 _ e => if e then 0xFE else 0xFD
  | .f16 => 0x7BFF | .bf16 => 0x7F7F | .f32 => 0x7F7FFFFF | .sx8 => 254
/-- The NaN code results take (R49, R52). -/
def Fmt.nanCode : Fmt → Nat
  | .f8 _ _ => 0x80 | .n8 _ _ => 0xFF | .f16 => 0x7E00 | .bf16 => 0x7FC0 | .f32 => 0x7FC00000 | .sx8 => 255
/-- Precision p of R66: significand bits with the implicit one. -/
def Fmt.prec (f : Fmt) : Nat := f.trail + 1

/-- An exact value: NaN (signalling or not), an infinity, or sign and `m * 2^e` (R55). -/
inductive Num where
  | nan (signalling : Bool)
  | inf (neg : Bool)
  | fin (neg : Bool) (m : Nat) (e : Int)
  deriving DecidableEq, Repr

def Num.isNan : Num → Bool
  | .nan _ => true | _ => false
def Num.isSnan : Num → Bool
  | .nan s => s | _ => false
def Num.isZero : Num → Bool
  | .fin _ m _ => m == 0 | _ => false
/-- `signbit` of R71. -/
def Num.neg? : Num → Bool
  | .nan _ => false | .inf n => n | .fin n _ _ => n
def Num.negate : Num → Num
  | .nan s => .nan s | .inf n => .inf (!n) | .fin n m e => .fin (!n) m e
/-- NV for a signalling NaN operand (R52). -/
def Num.snanFlag (x : Num) : Flags := if x.isSnan then fNV else 0

/-- The value of an IEEE-shaped code with `eb` exponent bits and `t` trailing bits (R52). -/
def ieeeVal (eb t bias c : Nat) : Num :=
  let f := bits c (t - 1) 0
  let e := bits c (t + eb - 1) t
  let s := bits c (t + eb) (t + eb) == 1
  if e == 2 ^ eb - 1 then (if f == 0 then .inf s else .nan (bits c (t - 1) (t - 1) == 0))
  else if e == 0 then .fin s f (1 - bias - t)
  else .fin s (2 ^ t + f) (e - bias - t)

/-- `val(f, c)` of R50, R52 and R53. -/
def Fmt.val (f : Fmt) (c : Nat) : Num :=
  match f with
  | .f16 => ieeeVal 5 10 15 c
  | .bf16 => ieeeVal 8 7 127 c
  | .f32 => ieeeVal 8 23 127 c
  | .sx8 => if c == 255 then .nan false else .fin false 1 ((c : Int) - 127)
  | _ =>
    let s := f.signed && bits c 7 7 == 1
    let m := if f.signed then bits c 6 0 else bits c 7 0
    if c == f.nanCode then .nan false
    else if f.hasInf && m == f.infMag then .inf s
    else
      let e := m / 2 ^ f.trail
      let fr := m % 2 ^ f.trail
      if e == 0 then .fin s fr (1 - f.bias - f.trail)
      else .fin s (2 ^ f.trail + fr) (e - f.bias - f.trail)

/-- An exact nonzero magnitude to be rounded: `m * 2^e`, its reciprocal, or its reciprocal square root (R60). -/
inductive Mag where
  | dy (m : Nat) (e : Int)
  | rcp (m : Nat) (e : Int)
  | rsq (m : Nat) (e : Int)
  deriving DecidableEq, Repr

/-- Integer square root by binary digits, `k` of them. -/
def isqrtBits (n : Nat) : Nat → Nat → Nat
  | 0, r => r
  | k + 1, r => let c := r + 2 ^ k
                isqrtBits n k (if c * c ≤ n then c else r)
def isqrt (n : Nat) : Nat := isqrtBits n (n.log2 / 2 + 1) 0

/-- floor(log2 x) of a magnitude. -/
def Mag.log2 : Mag → Int
  | .dy m e => m.log2 + e
  | .rcp m e => if 2 ^ m.log2 = m then -e - m.log2 else -e - m.log2 - 1
  | .rsq m e => (if 2 ^ m.log2 = m then -e - m.log2 else -e - m.log2 - 1) / 2

/-- floor(x * 2^k), and whether that is exact. -/
def Mag.floorScaled (x : Mag) (k : Int) : Nat × Bool :=
  match x with
  | .dy m e =>
    let h := e + k
    if 0 ≤ h then (m * 2 ^ h.toNat, true) else (m / 2 ^ (-h).toNat, m % 2 ^ (-h).toNat == 0)
  | .rcp m e =>
    let h := k - e
    if 0 ≤ h then (2 ^ h.toNat / m, 2 ^ h.toNat % m == 0) else (0, false)
  | .rsq m e =>
    let h := 2 * k - e
    if 0 ≤ h then
      let r := isqrt (2 ^ h.toNat / m)
      (r, r * r * m == 2 ^ h.toNat)
    else (0, false)

/-- Rounding to the unbounded grid (R56): the index of the neighbour taken, whether it differs from the value, and
whether the value lies below the smallest normal. -/
def gridIdx (f : Fmt) (x : Mag) : Nat × Bool × Bool :=
  let l := x.log2
  let q := if l < f.emin then f.emin else l
  let (h, exact) := x.floorScaled (f.trail - q + 1)
  let lo := h / 2
  let idx (y : Nat) : Nat := (q - f.emin).toNat * 2 ^ f.trail + y - (if f = .sx8 then 1 else 0)
  let up := h % 2 == 1 && (!exact || idx lo % 2 == 1)
  (idx (if up then lo + 1 else lo), !(h % 2 == 0 && exact), decide (l < f.emin))

/-- The rounded value is zero (its index is 0 and the format has a zero). -/
def roundsToZero (f : Fmt) (x : Mag) : Bool := (gridIdx f x).1 == 0

/-- Code with sign `s` of a magnitude index. -/
def Fmt.withSign (f : Fmt) (s : Bool) (m : Nat) : Nat :=
  if s && f.signed then m + 2 ^ (f.width - 1) else m

/-- `enc(f, x)` of R57 for a nonzero finite magnitude with sign `s`. -/
def encMag (f : Fmt) (s : Bool) (x : Mag) : Nat × Flags :=
  if f = .sx8 ∧ s then (255, fNV)
  else
    let (i, inexact, tiny) := gridIdx f x
    if !f.signed && s && i != 0 then (f.nanCode, fNV)
    else
      let fl : Flags := if inexact then (if tiny then fNX ||| fUF else fNX) else 0
      if f.maxMag < i then
        (f.withSign s (if f.hasInf then f.infMag else f.maxMag), fl ||| fOF ||| fNX)
      else if i == 0 then
        -- the 8-bit formats have a single zero; sx8 code 0 is its smallest value
        ((if f.width = 8 then 0 else f.withSign s 0), fl)
      else (f.withSign s i, fl)

/-- `enc(f, x)` of R57. -/
def enc (f : Fmt) (x : Num) : Nat × Flags :=
  match x with
  | .nan _ => (f.nanCode, 0)
  | .inf s =>
    if f = .sx8 ∧ s then (255, fNV)
    else if !f.signed && s then (f.nanCode, fNV)
    else if f.hasInf then (f.withSign s f.infMag, 0)
    else (f.withSign s f.maxMag, fOF ||| fNX)
  | .fin s m e =>
    if m = 0 then
      if f = .sx8 then (255, fNV)
      else ((if f.width = 8 then 0 else f.withSign s 0), 0)
    else encMag f s (.dy m e)

/-- Signed integer mantissa at exponent `e0`, for `e0` not above the value's own exponent. -/
def scaledInt (neg : Bool) (m : Nat) (e e0 : Int) : Int :=
  let v : Int := (m * 2 ^ (e - e0).toNat : Nat)
  if neg then -v else v

/-- Exact sum (R60), with the flags decided before rounding. -/
def Num.add (x y : Num) : Num × Flags :=
  match x, y with
  | .nan a, .nan b => (.nan false, if a || b then fNV else 0)
  | .nan a, _ => (.nan false, if a then fNV else 0)
  | _, .nan b => (.nan false, if b then fNV else 0)
  | .inf a, .inf b => if a = b then (.inf a, 0) else (.nan false, fNV)
  | .inf a, .fin _ _ _ => (.inf a, 0)
  | .fin _ _ _, .inf b => (.inf b, 0)
  | .fin a m e, .fin b n g =>
    let e0 := if e < g then e else g
    let v := scaledInt a m e e0 + scaledInt b n g e0
    if v = 0 then (.fin (a && b) 0 e0, 0) else (.fin (decide (v < 0)) v.natAbs e0, 0)

/-- Exact product (R60). -/
def Num.mul (x y : Num) : Num × Flags :=
  match x, y with
  | .nan a, .nan b => (.nan false, if a || b then fNV else 0)
  | .nan a, _ => (.nan false, if a then fNV else 0)
  | _, .nan b => (.nan false, if b then fNV else 0)
  | .inf a, .inf b => (.inf (a != b), 0)
  | .inf a, .fin b n _ => if n = 0 then (.nan false, fNV) else (.inf (a != b), 0)
  | .fin a m _, .inf b => if m = 0 then (.nan false, fNV) else (.inf (a != b), 0)
  | .fin a m e, .fin b n g => (.fin (a != b) (m * n) (e + g), 0)

/-- Exact fused multiply-add d + x * y (R60): flags of every case that applies. -/
def Num.fma (d x y : Num) : Num × Flags :=
  let (p, fp) := x.mul y
  let (r, fr) := d.add p
  (r, fp ||| fr)

/-- Reciprocal in format `f` (R60). -/
def recip (f : Fmt) (x : Num) : Nat × Flags :=
  match x with
  | .nan s => (f.nanCode, if s then fNV else 0)
  | .inf s => enc f (.fin s 0 0)
  | .fin s m e => if m = 0 then ((enc f (.inf s)).1, fDZ) else encMag f s (.rcp m e)

/-- Reciprocal square root in format `f` (R60). -/
def rsqrt (f : Fmt) (x : Num) : Nat × Flags :=
  match x with
  | .nan s => (f.nanCode, if s then fNV else 0)
  | .inf s => if s then (f.nanCode, fNV) else enc f (.fin false 0 0)
  | .fin s m e =>
    if m = 0 then ((enc f (.inf s)).1, fDZ)
    else if s then (f.nanCode, fNV) else encMag f false (.rsq m e)

/-- x < y for values that are not NaN; -0 equals +0. -/
def Num.lt (x y : Num) : Bool :=
  match x, y with
  | .nan _, _ => false
  | _, .nan _ => false
  | .inf a, .inf b => a && !b
  | .inf a, .fin _ _ _ => a
  | .fin _ _ _, .inf b => !b
  | .fin a m e, .fin b n g =>
    let e0 := if e < g then e else g
    decide (scaledInt a m e e0 < scaledInt b n g e0)
/-- Equal values; -0 equals +0, a NaN equals nothing. -/
def Num.eqv (x y : Num) : Bool := !x.isNan && !y.isNan && !x.lt y && !y.lt x

/-- `fmin` of R61 (`fmax` when `mx`): -0 orders below +0. -/
def fminmax (mx : Bool) (x y : Num) : Num × Flags :=
  if x.isNan || y.isNan then (.nan false, x.snanFlag ||| y.snanFlag)
  else
    let below := x.lt y || (!y.lt x && x.neg? && !y.neg?)
    (if below != mx then x else y, 0)

/-- Round a finite value to the nearest integer, ties to even. -/
def roundInt (neg : Bool) (m : Nat) (e : Int) : Int :=
  let n : Nat :=
    if 0 ≤ e then m * 2 ^ e.toNat
    else
      let d := 2 ^ (-e).toNat
      let q := m / d
      let r := m % d
      if d < 2 * r || (2 * r == d && q % 2 == 1) then q + 1 else q
  if neg then -(n : Int) else n

/-- `toint(x, W, sg)` of R58. -/
def toint (x : Num) (w : Nat) (sg : Bool) : Nat × Flags :=
  match x with
  | .nan _ => (0, fNV)
  | .inf s => if s then (if sg then 2 ^ (w - 1) else 0, fNV) else (if sg then 2 ^ (w - 1) - 1 else 2 ^ w - 1, fNV)
  | .fin s m e =>
    let n := roundInt s m e
    let (r, fl) := satint n w sg
    if fl = 0 then (r, if (Num.fin s m e).eqv (.fin (decide (n < 0)) n.natAbs 0) then 0 else fNX) else (r, fNV)

/-- Exact sum of finite values; -0 only when every term is -0 (R67 step 2). -/
def sumFin : List Num → Num
  | [] => .fin true 0 0
  | x :: xs => (x.add (sumFin xs)).1

/-- Exact sum of a list of products or elements (R67 steps 1 to 3): NaN with NV when both infinities meet, NV for a
signalling NaN. The flags of the products themselves are the caller's. -/
def sumExact (l : List Num) : Num × Flags :=
  let pos := l.any (· == .inf false)
  let neg := l.any (· == .inf true)
  let fl : Flags := if (pos && neg) || l.any Num.isSnan then fNV else 0
  if l.any Num.isNan || (pos && neg) then (.nan false, fl)
  else if pos then (.inf false, fl) else if neg then (.inf true, fl)
  else (sumFin l, fl)

/-- Contribution of a chunk sum under its two scales (R68). -/
def scaleSum (s sa sb : Num) : Num × Flags :=
  if sa.isNan || sb.isNan then (.nan false, fNV)
  else if sa.isZero || sb.isZero then
    match s with
    | .fin _ _ _ => (.fin false 0 0, 0)
    | _ => (.nan false, fNV)
  else ((s.mul (sa.mul sb).1).1, 0)

/-- One chunk addition for a floating pair (R67 step 4). -/
def chunkAddF (acc : Nat) (s sa sb : Num) : Nat × Flags :=
  let (c, f1) := scaleSum s sa sb
  let (t, f2) := (Fmt.f32.val acc).add c
  let (r, f3) := enc .f32 t
  (r, f1 ||| f2 ||| f3)

/-- One chunk addition for an integer pair (R69). -/
def chunkAddI (acc : Nat) (s : Int) : Nat × Flags := satint (sInt 32 acc + s) 32 true

/-- What a matrix format code names (R146). -/
inductive Mfc where
  | flt (f : Fmt)
  | planeInt (w : Nat)          -- i1-i8
  | elem (bytes : Nat) (sg : Bool)   -- i8-i32, n8-n32 elements (ACVT only)
  deriving DecidableEq, Repr

/-- Decoding of a matrix format code; `none` for a reserved one (R146). -/
def mfc (c : Nat) : Option Mfc :=
  if c ≤ 0x06 then some (.flt (.f8 (c + 1) false))
  else if 0x08 ≤ c ∧ c ≤ 0x0E then some (.flt (.f8 (c - 7) true))
  else if 0x10 ≤ c ∧ c ≤ 0x16 then some (.flt (.n8 (c - 15) false))
  else if 0x18 ≤ c ∧ c ≤ 0x1E then some (.flt (.n8 (c - 23) true))
  else if c = 0x20 then some (.flt .f16) else if c = 0x21 then some (.flt .bf16) else if c = 0x22 then some (.flt .f32)
  else if 0x28 ≤ c ∧ c ≤ 0x2F then some (.planeInt (c - 0x27))
  else if 0x30 ≤ c ∧ c ≤ 0x32 then some (.elem (2 ^ (c - 0x30)) true)
  else if 0x34 ≤ c ∧ c ≤ 0x36 then some (.elem (2 ^ (c - 0x34)) false)
  else none

/-- Precision p of R66. -/
def Mfc.prec : Mfc → Nat
  | .flt f => f.prec | .planeInt w => w | .elem b _ => 8 * b
/-- Bytes of one element code in memory. -/
def Mfc.bytes : Mfc → Nat
  | .flt f => f.width / 8 | .planeInt _ => 1 | .elem b _ => b

/-- Value of a plane-integer code (R54): i1 is 0 or 1, the others two's complement. -/
def planeIntVal (w c : Nat) : Int := if w = 1 then (c % 2 : Nat) else sInt w c

/-- Element formats of pages and of HMOD (R233). -/
inductive Ef where
  | raw
  | flt (f : Fmt)
  | int (w : Nat)
  deriving DecidableEq, Repr

def efOf (c : Nat) : Ef :=
  match c with
  | 0 => .raw | 8 => .flt (.f8 3 true) | 9 => .flt (.f8 4 true) | 10 => .flt (.n8 4 true) | 11 => .flt .sx8
  | 12 => .flt .f16 | 13 => .flt .bf16 | 14 => .int 4 | 15 => .int 8
  | k => if k ≤ 7 then .flt (.f8 k false) else .raw

/-- Bytes of a code of the format; 0 for raw, which decodes nothing (R127, R137). -/
def Ef.bytes : Ef → Nat
  | .raw => 0 | .flt .f32 => 0 | .flt f => f.width / 8 | .int _ => 1

/-- The decoded 32-bit value of a code: exact, no flag (R127, R137). For iW the value is the sign-extended pattern at the
width `w` asked for. -/
def Ef.decode (f : Ef) (w c : Nat) : Nat :=
  match f with
  | .raw => c
  | .flt g => (enc .f32 (g.val c)).1
  | .int k => if k = 1 then c % 2 else sextN k w c

end Sys2Proof.Machine
end

