-- ==== Sys2Proof/Machine/Lanes.lean ====
section
/-! DEFINITION. Lane results and flags of the vector forms as functions of the operands' bytes (11:R133-R147). -/

namespace Sys2Proof.Machine
open Sys2Proof

/-- Lane `e` of width `w` bytes (R133). -/
def lane (bs : List Byte) (w e : Nat) : Nat := leNat ((bs.drop (w * e)).take w)
/-- `n` lanes of `w` bytes and the OR of their flags, from lane `e` on. -/
def lanesFrom (w : Nat) (f : Nat → Nat × Flags) : Nat → Nat → List Byte × Flags
  | _, 0 => ([], 0)
  | e, n + 1 =>
    let r := f e
    let rest := lanesFrom w f (e + 1) n
    (leBytes w r.1 ++ rest.1, r.2 ||| rest.2)
/-- A vector of `n` lanes, the bytes after them zero. -/
def lanes (w n : Nat) (f : Nat → Nat × Flags) : List Byte × Flags :=
  let r := lanesFrom w f 0 n
  (r.1 ++ List.replicate (128 - w * n) 0, r.2)

/-- Integer column of R75: lane width and signedness. -/
def etW (e : BitVec 3) : Nat := 2 ^ (e.toNat % 4)
def etS (e : BitVec 3) : Bool := e.toNat < 4
/-- Floating column of R75. -/
def etF (e : BitVec 3) : Fmt := if e = 0 then .f32 else if e = 1 then .f16 else .bf16
def fmtBytes (f : Fmt) : Nat := f.width / 8

/-- A form of two integer lanes without flags (R140). -/
def intLanes (w : Nat) (f : Nat → Nat → Nat) (va vb : List Byte) : List Byte × Flags :=
  lanes w (128 / w) (fun e => (f (lane va w e) (lane vb w e) % 2 ^ (8 * w), 0))
/-- Smaller or larger of two codes (R140). -/
def minmaxN (w : Nat) (sg mx : Bool) (x y : Nat) : Nat :=
  if (readInt w sg x < readInt w sg y) != mx then x else y
/-- A form of two floating lanes (R143). -/
def fltLanes (f : Fmt) (g : Num → Num → Num × Flags) (va vb : List Byte) : List Byte × Flags :=
  let w := fmtBytes f
  lanes w (128 / w) (fun e =>
    let r := g (f.val (lane va w e)) (f.val (lane vb w e))
    let c := enc f r.1
    (c.1, r.2 ||| c.2))

/-- Condition of VCMP (R141) and its flags. -/
def vcmpLane (c : Nat) (e : BitVec 3) (x y : Nat) : Bool × Flags :=
  if c < 16 then
    let w := 8 * etW e
    let a := readInt w (etS e) x
    let b := readInt w (etS e) y
    (match c with
      | 0 => a == b | 1 => a != b | 2 => decide (a < b) | 3 => decide (a ≤ b) | 4 => decide (b < a) | _ => decide (b ≤ a), 0)
  else
    let f := etF e
    let a := f.val x
    let b := f.val y
    (match c with
      | 16 => a.eqv b | 17 => !a.eqv b | 18 => a.lt b | 19 => a.lt b || a.eqv b | 20 => b.lt a | 21 => b.lt a || a.eqv b
      | _ => a.isNan || b.isNan, a.snanFlag ||| b.snanFlag)

/-- VRED of `n` lanes (R142): the value of lane 0, with the lane width. -/
def vredVal (k : Nat) (e : BitVec 3) (va : List Byte) : Nat × Nat × Flags :=
  if k < 16 then
    let w := etW e
    let xs := (List.range (128 / w)).map (lane va w)
    (w, match k with
      | 0 => xs.sum % 2 ^ (8 * w)
      | 1 => xs.tail.foldl (minmaxN (8 * w) (etS e) false) (xs.headD 0)
      | 2 => xs.tail.foldl (minmaxN (8 * w) (etS e) true) (xs.headD 0)
      | 3 => xs.foldl (· &&& ·) (2 ^ (8 * w) - 1)
      | 4 => xs.foldl (· ||| ·) 0
      | _ => xs.foldl (· ^^^ ·) 0, 0)
  else
    let f := etF e
    let w := fmtBytes f
    let xs := (List.range (128 / w)).map (fun i => f.val (lane va w i))
    if k = 16 then
      let s := sumExact xs
      let c := enc f s.1
      (w, c.1, s.2 ||| c.2)
    else
      let r := xs.tail.foldl (fun (a : Num × Flags) x => let m := fminmax (k == 18) a.1 x; (m.1, a.2 ||| m.2))
        (xs.headD (.nan false), (xs.headD (.nan false)).snanFlag)
      (w, (enc f r.1).1, r.2)

/-- Type codes of VCVT (R144): integer with width in bits and signedness, or a floating format. -/
def tcOf (c : Nat) : (Nat × Bool) ⊕ Fmt :=
  if c < 8 then .inl (8 * 2 ^ (c % 4), c < 4)
  else if c = 8 then .inr .f32 else if c = 9 then .inr .f16 else .inr .bf16
def tcBytes (c : Nat) : Nat :=
  match tcOf c with
  | .inl (w, _) => w / 8
  | .inr f => fmtBytes f
/-- The exact value of an integer. -/
def Num.ofInt (x : Int) : Num := .fin (decide (x < 0)) x.natAbs 0
/-- One conversion of VCVT (R144). -/
def convert (ts td x : Nat) : Nat × Flags :=
  match tcOf ts, tcOf td with
  | .inl (w, sg), .inl (wd, sd) => satint (readInt w sg x) wd sd
  | .inl (w, sg), .inr f => enc f (Num.ofInt (readInt w sg x))
  | .inr f, .inl (wd, sd) =>
    let r := toint (f.val x) wd sd
    (r.1, r.2 ||| (f.val x).snanFlag)
  | .inr f, .inr g =>
    let r := enc g (f.val x)
    (r.1, r.2 ||| (f.val x).snanFlag)

/-- Source and destination type codes of VPACK, by et (R145); VUNPK reads them the other way. -/
def packCodes (e : BitVec 3) : Nat × Nat :=
  match e.toNat with
  | 0 => (1, 0) | 1 => (2, 1) | 2 => (3, 2) | 3 => (8, 9) | 4 => (5, 4) | 5 => (6, 5) | 6 => (7, 6) | _ => (8, 10)

/-- The largest scale code test of VSCL: `m * 2^(127 - c) <= MAXV(f)` on exact magnitudes (R147). -/
def scaledFits (m : Nat) (e : Int) (f : Fmt) (c : Nat) : Bool :=
  match f.val f.maxMag with
  | .fin _ n g =>
    let e1 := e + 127 - c
    let e0 := if e1 < g then e1 else g
    decide (m * 2 ^ (e1 - e0).toNat ≤ n * 2 ^ (g - e0).toNat)
  | _ => false
/-- Smallest code from `c` on, of `n` tried, that fits; else 254. -/
def scaleCode (m : Nat) (e : Int) (f : Fmt) : Nat → Nat → Nat
  | _, 0 => 254
  | c, n + 1 => if scaledFits m e f c then c else scaleCode m e f (c + 1) n
/-- VSCL's block (R147). -/
def vsclBytes (code et : Nat) (va : List Byte) : List Byte × Flags :=
  match mfc code with
  | some (.flt f) =>
    let xs := (List.range 32).map (fun e => Fmt.f32.val (lane va 4 e))
    let m := xs.foldl (fun (a : Num) x => match x with
      | .fin _ n g => if a.lt (.fin false n g) then .fin false n g else a
      | _ => a) (.fin false 0 0)
    let c : Nat := match m with
      | .fin _ n g => if et = 1 ∨ n = 0 then 127 else scaleCode n g f 0 255
      | _ => 127
    let r := lanesFrom 1 (fun e =>
      let x := Fmt.f32.val (lane va 4 e)
      let y := match x with
        | .fin s n g => Num.fin s n (g + 127 - c)
        | y => y
      let q := enc f y
      (q.1, q.2 ||| x.snanFlag)) 0 32
    (r.1 ++ [BitVec.ofNat 8 c] ++ List.replicate 95 0, r.2)
  | _ => (List.replicate 128 0, 0)

/-- The result of a register vector form from the bytes of va, vb and vd; for VEXT the eight bytes for g(d), with the index
in `vb`; for VINS the value in `va` and the index in `vb` (R139-R147). -/
def vecEval (i : Instr) (va vb vd : List Byte) : List Byte × Flags :=
  match i with
  | .vext _ _ _ _ e =>
    let w := etW e
    (leBytes 8 (let x := lane va w (leNat vb % (128 / w)); if etS e then sextN (8 * w) 64 x else x), 0)
  | .vins _ _ _ _ e =>
    let w := etW e
    let k := leNat vb % (128 / w)
    lanes w (128 / w) (fun j => (if j = k then leNat (va.take w) else lane vd w j, 0))
  | .vperm _ _ _ _ e =>
    let w := etW e
    lanes w (128 / w) (fun j => let k := lane vb w j; (if k < 128 / w then lane va w k else 0, 0))
  | .vadd _ _ _ _ e => intLanes (etW e) (· + ·) va vb
  | .vsub _ _ _ _ e => intLanes (etW e) (fun x y => x + 2 ^ (8 * etW e) - y) va vb
  | .vmul _ _ _ _ e => intLanes (etW e) (· * ·) va vb
  | .vmad _ _ _ _ e =>
    let w := etW e
    lanes w (128 / w) (fun j => ((lane vd w j + lane va w j * lane vb w j) % 2 ^ (8 * w), 0))
  | .vmin _ _ _ _ e => intLanes (etW e) (minmaxN (8 * etW e) (etS e) false) va vb
  | .vmax _ _ _ _ e => intLanes (etW e) (minmaxN (8 * etW e) (etS e) true) va vb
  | .vabs _ _ _ e => intLanes (etW e) (fun x _ => (sInt (8 * etW e) x).natAbs) va va
  | .vneg _ _ _ e => intLanes (etW e) (fun x _ => 2 ^ (8 * etW e) - x) va va
  | .vand _ _ _ _ => intLanes 1 (· &&& ·) va vb
  | .vor _ _ _ _ => intLanes 1 (· ||| ·) va vb
  | .vxor _ _ _ _ => intLanes 1 (· ^^^ ·) va vb
  | .vshl _ _ _ _ e => intLanes (etW e) (fun x y => x * 2 ^ (y % (8 * etW e))) va vb
  | .vshr _ _ _ _ e => intLanes (etW e) (fun x y => x / 2 ^ (y % (8 * etW e))) va vb
  | .vsra _ _ _ _ e => intLanes (etW e) (fun x y => wrapI (sInt (8 * etW e) x / (2 ^ (y % (8 * etW e)) : Nat)) (8 * etW e)) va vb
  | .vcmp _ _ _ c e =>
    let w := if c.toNat < 16 then etW e else fmtBytes (etF e)
    lanes w (128 / w) (fun j =>
      let r := vcmpLane c.toNat e (lane vd w j) (lane va w j)
      (if r.1 then 2 ^ (8 * w) - 1 else 0, r.2))
  | .vsel _ _ _ _ =>
    lanes 1 128 (fun j => let m := lane vd 1 j; ((m &&& lane va 1 j) ||| ((255 - m) &&& lane vb 1 j), 0))
  | .vred _ _ _ k e =>
    let r := vredVal k.toNat e va
    (leBytes r.1 r.2.1 ++ List.replicate (128 - r.1) 0, r.2.2)
  | .vfadd _ _ _ _ e => fltLanes (etF e) Num.add va vb
  | .vfsub _ _ _ _ e => fltLanes (etF e) (fun x y => x.add y.negate) va vb
  | .vfmul _ _ _ _ e => fltLanes (etF e) Num.mul va vb
  | .vfma _ _ _ _ e =>
    let f := etF e
    let w := fmtBytes f
    lanes w (128 / w) (fun j =>
      let r := Num.fma (f.val (lane vd w j)) (f.val (lane va w j)) (f.val (lane vb w j))
      let c := enc f r.1
      (c.1, r.2 ||| c.2))
  | .vfmin _ _ _ _ e => fltLanes (etF e) (fminmax false) va vb
  | .vfmax _ _ _ _ e => fltLanes (etF e) (fminmax true) va vb
  | .vrcp _ _ _ e =>
    let f := etF e
    let w := fmtBytes f
    lanes w (128 / w) (fun j => recip f (f.val (lane va w j)))
  | .vrsq _ _ _ e =>
    let f := etF e
    let w := fmtBytes f
    lanes w (128 / w) (fun j => rsqrt f (f.val (lane va w j)))
  | .vcvt _ _ _ b e =>
    let ts := 8 * (b.toNat / 16) + e.toNat
    let td := b.toNat % 16
    let ws := tcBytes ts
    let wd := tcBytes td
    lanes wd (128 / (if ws < wd then wd else ws)) (fun j => convert ts td (lane va ws j))
  | .vpack _ _ _ _ e =>
    let (ts, td) := packCodes e
    let ws := tcBytes ts
    let l := 128 / ws
    lanes (tcBytes td) (2 * l) (fun j => convert ts td (if j < l then lane va ws j else lane vb ws (j - l)))
  | .vunpk _ _ _ h e =>
    let (td, ts) := packCodes e
    let wd := tcBytes td
    let l := 128 / wd
    lanes wd l (fun j => ((convert ts td (lane va (tcBytes ts) (h.toNat * l + j))).1, 0))
  | .vscl _ _ _ b e => vsclBytes b.toNat e.toNat va
  | _ => (List.replicate 128 0, 0)

end Sys2Proof.Machine
end

