-- ==== Sys2Proof/Config.lean ====
section
/-! DEFINITION. What the spec fixes for the part, and the values it leaves free (log 3): a free value has no body, so
nothing can be proved of which value it is. -/

namespace Sys2Proof.Config

/-- Arithmetic-clock cycles a step takes beyond the first (TS.CYC, 15:R206; log 7). -/
opaque extraCycles : Nat → Nat
/-- Whether HSCHED PREFW starts a fill early (07:R83; log 7). -/
opaque prefetches : Nat → Bool
/-- Whether a unit's step comes before the issuing thread's (01:R13-R15; log 1). -/
opaque unitFirst : Nat → Bool
/-- An 8-byte word of another package's memory as a walker or an engine reads it (17:R230; log 12). -/
opaque remoteWord : Nat → Nat → Word
/-- How another package answers an engine's read of an address: done, or one of the four refusals (25:R298, R302, 03:R40; log 12). -/
opaque remoteReply : Nat → Nat → Nat
/-- The keyed check of a capability: key of the reset, tile, bits [63:32], epoch (11:R157; log 9). -/
opaque mac : Nat → Nat → Nat → Nat → BitVec 32
/-- Which TLB entry a full TLB drops (17:R232; log 10). -/
opaque tlbVictim : Nat → Nat
/-- The signatures of 31:R341-R342 (log 9). -/
opaque signature : Nat → Word
/-- The check field of a cellar entry over its other bytes (21:R266; log 9). -/
opaque cellarCheck : List Byte → Word
/-- TS.CYC as the steward's coordinator reads it for a log entry (21:R275; log 3). -/
opaque stewardCycle : Nat → Word
/-- A configuration-space word the spec gives no content to (31:R340; log 17). -/
opaque configWord : Nat → Nat → BitVec 32
/-- The plane on which a flit was lost (21:R275, 29:R325; log 3). -/
opaque lostPlane : Nat → Nat
/-- The result guard of a SYNC that ends in a compact fault (03:R45, 27:R314; log 3). -/
opaque faultGuard : Nat → Bool
/-- Which port of an endpoint entry's mask carries a message (29:R332; log 3). -/
opaque uetPort : Nat → Nat
/-- The clock group of a package of the compact, 0 for none, and the member indices of a group that are taken (29:R335-R336; log 32). -/
opaque groupOf : Nat → Nat → Nat
opaque groupTaken : Nat → Nat → List Nat
/-- The selective IDE stream of a VF (29:R339; log 17). -/
opaque vfStream : Nat → Nat
/-- What is measured and hashed: the boot ROM, a firmware image by slot and version, the loaded plug-ins, SHA-256 (31:R341-R342; log 9). -/
opaque bootRom : Nat
opaque imageDigest : Nat → Nat → Nat
opaque plugins : Nat → List Nat
opaque sha256 : List Nat → Nat
/-- The package that a member of a clock group is: by group and member index (29:R335; log 53). -/
opaque memberPkg : Nat → Nat → Nat
/-- Which root a walk reads between a change of TCR and its TLBI: the new one or one held before (17:R227; log 31). -/
opaque oldRoot : Nat → Nat
/-- What the sensors measure: 0 junction temperature, 1 power, 2 coolant flow; 3 how far the thermal limit recovers
(31:R343-R344; log 32). -/
opaque sensor : Nat → Nat → Nat
/-- The DRAM row of an offset, and the bank of a row (31:R346; log 33). -/
opaque dramRow : Nat → Nat
opaque dramBank : Nat → Nat
/-- The PF's configuration offset of the number of VFs (31:R340; log 17). -/
opaque vfOffset : Nat

/-- First byte of the global tile space, of device MMIO and of host memory (17:R224). -/
def tileSpace : Nat := 0x010000000000
def mmioSpace : Nat := 0x020000000000
def hostSpace : Nat := 0x800000000000
/-- End of DRAM: 288 blocks of 2 GiB (01:R10, 17:R224). -/
def dramEnd : Nat := 0x9000000000
def blockSize : Nat := 0x80000000
/-- Populated bytes of a tile's SRAM, and bytes of one bank (01:R17, R20). -/
def sramSize : Nat := 0x180000
def bankSize : Nat := 0x18000
def slotSize : Nat := 0x200000

end Sys2Proof.Config
end

