-- ==== Sys2Proof/Machine/State.lean ====
section
/-! DEFINITION. The state of one MQX-940-A package as plain data (01, 03:R27, 07:R89-R94, 11:R148, 15:R204-R206, 17, 21, 23,
25, 29, 31), its faults and refusals, and the state after reset (31:R340). -/

namespace Sys2Proof.Machine

/-- Privilege modes (03:R27 PRIV). -/
inductive Priv where
  | u | s | h
  deriving DecidableEq, Repr

/-- A guard's value (07:R94). -/
inductive Guard where
  | fls | tru | pend
  deriving DecidableEq, Repr

/-- Trap causes (27:R311). -/
inductive Cause where
  | illenc | illstate | transient | priv | xlate | align | cprot | domain | cap | wdog | engine | notile | swtrap | svc
  | compact | record | sealto | mcheck | double | novec
  deriving DecidableEq, Repr

/-- A cause with its subcause and value (27:R311). -/
structure Trap where
  cause : Cause
  sub : Nat
  tval : Word
  deriving DecidableEq, Repr

/-- One bank of TS.EPC, TS.ESTAT, TS.CAUSE, TS.TVAL and TS.SCR (15:R205-R206). -/
structure TrapBank where
  epc : Word
  estat : Word
  cause : Word
  tval : Word
  scr : Word
  deriving DecidableEq, Repr

/-- One hardware loop as the record holds it (03:R27 LP0 and LP1). -/
structure Loop where
  act : Bool
  creg : Reg
  off : Nat
  len : Nat
  deriving DecidableEq, Repr

/-- A piece of a load's bytes: there already, or awaited as `n` bytes from byte `o` of a reply or a deferred read under a tag, from a
virtual and a physical address (03:R34, R41, 29:R324). -/
inductive Part where
  | have (bs : List Byte)
  | wait (tag o n : Nat) (va : Word) (pa : Nat)
  deriving DecidableEq, Repr

/-- How a load's bytes become its result: a scalar of size code `sz` under element format `ef` (09:R127), or a vector of
`n` elements of `w` bytes, decoded when `dec` (11:R137); `raw` when the bytes are the result. -/
inductive Fix where
  | raw
  | scalar (sz ef : Nat)
  | vector (w n ef : Nat) (dec : Bool)
  | old (n : Nat) (sg : Bool)
  | afadd (y : Nat)
  deriving DecidableEq, Repr

/-- An operand of a vector form over accumulator bytes (07:R93): its window offset, its bytes as read, and those of its 128-byte rows
that are awaited: place in the operand, accumulator, row. -/
structure LateOp where
  off : Nat
  bytes : List Byte
  rows : List (Nat × Nat × Nat)
  deriving DecidableEq, Repr

/-- Where an outstanding result comes from (03:R34). -/
inductive Src where
  | parts (ps : List Part) (fix : Fix)
  | watermark (acc : Nat)
  | jobState (handle : Word)
  | winState (win : Nat)
  /-- A vector form over accumulator bytes (07:R93), with its operands. -/
  | late (i : Instr) (a b d : LateOp)
  deriving DecidableEq, Repr

/-- An outstanding long-latency result: a g register, or window offsets in byte order (0 once a later write took the byte). `ord`:
later accesses of the thread wait for it, 1 those of class SO, 2 all of them (19:R252-R253). -/
structure Outst where
  g : Reg
  win : List Nat
  src : Src
  fault : Option Trap
  ord : Nat
  deriving DecidableEq, Repr

/-- A transient result in the bypass network: its name, its bytes and the instructions left of its window (07:R86). -/
structure Bypass where
  isVec : Bool
  idx : Nat
  bytes : List Byte
  left : Nat
  deriving DecidableEq, Repr

/-- The open transient chain: first producer, length, instructions left, bytes read (07:R87). -/
structure Chain where
  start : Word
  count : Nat
  left : Nat
  reads : List (Nat × Nat)
  deriving DecidableEq, Repr

/-- The open hint group: address of its first hint and its hints in address order (07:R80-R83). -/
structure HintGroup where
  start : Word
  hints : List Instr
  deriving DecidableEq, Repr

/-- A closed or open packet: destination coordinate, beats, and the guard its SENDE named (13:R180). -/
structure Packet where
  coord : Nat
  beats : List Word
  guard : Nat
  deriving DecidableEq, Repr

/-- An operand of a matrix command (11:R152-R153, R68): window, SRAM offset of its first line, first element along K, matrix
format code; the geometry "32 along K" of its page; scale format n8p4e. -/
structure MOper where
  win : Nat
  base : Nat
  k0 : Nat
  fmt : Nat
  bg : Bool
  scf : Bool
  deriving DecidableEq, Repr

/-- Matrix commands (11:R151); `off` is the window offset of the accumulator bound at issue (07:R92). -/
inductive MCmd where
  | mzero (acc off : Nat)
  | mma (acc off : Nat) (a b : MOper) (k : Nat)
  | mscl (acc off cnt : Nat)
  deriving DecidableEq, Repr

/-- A queued matrix command with its condition guard, its thread and, for a received one, its sender. -/
structure MEntry where
  cmd : MCmd
  guard : Nat
  tid : Nat
  sender : Nat
  deriving DecidableEq, Repr

/-- What a thread is doing (03:R30-R31). -/
inductive Status where
  | ready
  | parked                 -- at a switch marker, results outstanding
  | waiting                -- WAITA, JOBW, GWAIT, MWAIT, MSAVE, MREST, GATE: executed again on its turn
  | windowPark (win : Nat) -- parked on an absent or filling window
  | gbar                   -- arrived at GBAR
  | sync                   -- arrived at SYNC
  | sealing                -- arrived at SEAL
  | leaving                -- leaving its slot, results, guards or matrix commands outstanding (R29)
  deriving DecidableEq, Repr

/-- The caller's context held during a gate call (15:R211). -/
structure Caller where
  gate : Nat
  pc : Word
  regs : Vector Word 32
  win : List Host.Cell
  gran : Nat
  wbase : Nat
  guards : List Guard
  lp0 : Loop
  lp1 : Loop
  lps : Word
  vv : Word
  va : Word
  vx : Word
  fx : BitVec 6
  dom : Nat
  priv : Priv
  pass : Nat
  deriving DecidableEq, Repr

/-- The continuation-record fields a resident thread keeps (03:R27). -/
structure RecInfo where
  addr : Word
  save : Word
  kind : Nat
  tdie : Nat
  tnode : Nat
  gang : Nat
  gsize : Nat
  gidx : Nat
  pri : Nat
  ckv : Bool
  rin : Nat
  deriving DecidableEq, Repr

/-- The matrix state of a thread (11:R148). -/
structure Mu where
  wm : List Nat
  fx : List (BitVec 6)
  own : List Nat
  rst : Nat
  deriving DecidableEq, Repr

/-- A read that holds its instruction's slot: its bytes from byte `o` of the reply, once there (25:R303); of no bytes, the pin of a line
homed on another package, which SIGN has asked for (03:R39). -/
structure HeldRead where
  pa : Nat
  n : Nat
  tag : Nat
  o : Nat
  reply : Option (Reply × List Byte)
  deriving DecidableEq, Repr

/-- Where a thread stands between instructions: its run, group, chain, packet and pending events. -/
structure Flow where
  outs : List Outst
  bypass : List Bypass
  chain : Option Chain
  group : Option HintGroup
  jumped : Bool            -- the last instruction transferred control (R84)
  packet : Option Packet
  egress : List Packet
  mq : List MEntry
  asyncs : List Trap       -- asynchronous causes not yet taken (R312)
  held : List (Trap × Word) -- faults held at a boundary, with the restart point they wait for (R35)
  pend : Option (Trap × Word) -- a precise fault that waits for the outstanding results (R35)
  heldReads : List HeldRead
  preempt : Nat            -- stop requested (R48): 0 none, 1 pre-emption, 2 CTXSV (R213), 3 laggard of a seal (R267)
  leave : Nat              -- leaving its slot (R29): 0 no, 1 EXIT, 2 a wait, 3 pre-emption, 4 CTXSV, 5 laggard, 6 with its compact, 16 + c fatal with code c (15:R207)
  hold : Nat               -- the instruction holds the slot: 0 no, 1 gives way to the watchdog (R349), 2 does not, 3 a store stalled (R269), 4 DISSOLVE, which gives way (R349)
  holder : Bool            -- holds its issue slot (R30)
  ctx : Option (Nat × Word × Bool) -- CTXSV in progress: thread slot, record, written (R213); of KILL and TLBI (slot 2^20), the limit of tags awaited
  ddone : Bool             -- its DISSOLVE is complete (R46)
  since : Word             -- TS.CYC when it parked (R307)
  wdog : Bool              -- watchdog expired, trap due (R33)
  aborted : Bool           -- its packet was closed with an abort marker (R33)
  gba : Bool               -- arrived at a pending GBAR (R177)
  gdone : Bool             -- its GBAR completed while it was in a handler
  synced : Bool            -- the last instruction was a completed SYNC (R46)
  tdone : Bool             -- TDONE executed (R198)
  waitVa : Option Word     -- word a WAITA waits for (R178)
  sealed : Bool            -- arrived at the seal in progress (R267)
  irr : Nat                -- HMOD IRR: 1 its seal is awaited, 2 its seal is complete (R171)
  decoded : Bool           -- the fault in `pend` is one of the decoder's checks (07:R79, 27:R313)
  waitAt : Option Nat      -- the 192-byte unit that its WAITA read last, none once it was written or WAKE named it (13:R178)
  deriving DecidableEq, Repr

/-- A thread and its window (03:R27, 07:R89-R94, 15:R204-R206). `tid` is tile index * 16 + thread slot. -/
structure Thread where
  live : Bool
  tid : Nat
  info : RecInfo
  dom : Nat
  priv : Priv
  gran : Nat
  wbase : Nat
  pc : Word
  regs : Vector Word 32
  win : List Host.Cell
  guards : List Guard
  lp0 : Loop
  lp1 : Loop
  lps : Word
  vv : Word
  va : Word
  vx : Word
  fx : BitVec 6
  oob : Word
  sb : TrapBank
  hb : TrapBank
  mu : Mu
  cnt : List Word
  sel : List Word
  status : Status
  flow : Flow
  caller : Option Caller
  deriving DecidableEq, Repr

/-- A domain partition register (15:R219). -/
structure Dp where
  v : Bool
  dom : Nat
  weight : Nat
  tslot : Nat
  banks : Nat
  scrb : Nat
  rlen : Nat
  cway : Nat
  rbase : Nat
  deriving DecidableEq, Repr

/-- One dimension of a layout record (17:R243). -/
structure Dim where
  n : Nat
  box : Nat
  stride : Int
  org : Int
  deriving DecidableEq, Repr

/-- A region window (13:R193-R194, 17:R243-R245): its binding, its layout, and its state 0 absent, 1 filling, 2 present, 3 failed. -/
structure Win where
  state : Nat
  code : Nat
  faddr : Word
  card : Word
  base : Word
  fmt : Nat
  plane : Bool
  scf : Bool
  edge : Bool
  dims : List Dim
  bg : Bool
  sline : Nat
  nline : Nat
  fn : Nat
  priv : Priv
  drop : Bool
  deriving DecidableEq, Repr

/-- A scale entry with its tag (11:R154). -/
structure ScaleEntry where
  dom : Nat
  slot : Nat
  acc : Nat
  bytes : List Byte
  deriving DecidableEq, Repr

/-- A received beat and its status word (13:R182). -/
structure Beat where
  data : Word
  status : Word
  deriving DecidableEq, Repr

/-- A matrix command being run: the scale entries its chunks have taken, its result and flags once the last chunk is done, the rows
written, and TS.CYC at its acceptance (11:R151, R153, R154). -/
structure MRun where
  entry : MEntry
  scales : List (List Byte)
  res : List Byte
  fx : BitVec 6
  rows : Nat
  since : Word
  deriving DecidableEq, Repr

/-- A line held in a tile's SRAM cache, most recently used first (17:R238): the sectors filled, and those of them dirty. -/
structure CacheLine where
  line : Nat
  slot : Nat
  dom : Nat
  filled : Nat
  dirty : Nat
  keep : Bool
  deriving DecidableEq, Repr

/-- The state of one tile (01:R17, 11:R148, 15:R206, R215, R219). -/
structure Tile where
  dps : List Dp
  wins : List (Nat × Win)
  host : List (Bool × Nat)
  cuse : List Nat
  cep : List Nat
  loft : Word
  loftDom : Nat
  scq : List ScaleEntry
  mrun : List MRun
  mrecv : List MEntry
  mlast : Nat
  rxq : List (List Beat)
  wdexp : List Nat
  wdnew : List Nat
  cyc : Word
  credit : List (Nat × Int)
  gates : List (Nat × Nat)
  cache : List CacheLine
  compact : Option Nat
  rxdead : Bool
  deriving DecidableEq, Repr

/-- A TLB entry of a tile (17:R232): the leaf and where it lies. -/
structure TlbEntry where
  tile : Nat
  fn : Nat
  page : Nat
  shift : Nat
  leaf : Nat
  at_ : Nat
  deriving DecidableEq, Repr

/-- A pinned line: home line, compact, member tile and SRAM line (03:R39); `away` while the compact is pre-empted (R47). A home
on another package is 2^60 plus its physical address; `far` is the package of a member that pins a line homed here. -/
structure Pin where
  line : Nat
  bar : Nat
  far : Option Nat
  tile : Nat
  sline : Nat
  dirty : Nat
  scl : Bool
  init : Bool
  away : Bool
  deriving DecidableEq, Repr

/-- A read held at the directory (03:R41): the bytes of a line, the tag of its parts, its member tile, the package it came from, its
domain stamp. -/
structure Deferred where
  pa : Nat
  n : Nat
  tag : Nat
  tile : Nat
  remote : Option Nat
  dom : Nat
  deriving DecidableEq, Repr

/-- A cellar entry (21:R266). -/
structure CellarEntry where
  node : Nat
  line : Nat
  rin : Nat
  seq : Nat
  old : List Byte
  stamp : Nat
  deriving DecidableEq, Repr

/-- A packet held before it leaves by Ethernet: its sender's slot and guard, its destination, a UET peer p as package 16 + p, and the
sender's coordinate (13:R180, 21:R270). -/
structure Egress where
  tid : Nat
  guard : Nat
  pkg : Nat
  coord : Nat
  sender : Nat
  deriving DecidableEq, Repr

/-- A held irrevocable store (21:R270); `sent` is the tag of its release to another package, until that acknowledges it (19:R260); `who` is the thread that made it, by its record (19:R260); `dom` the domain, with 1024 added for an
H-mode access (log 13); `spawn`: a SPAWN waits to hear how it ends (09:R122); `egress`: the data are the beats of a packet; `blk`: they are
FBLK's (29:R323). -/
structure LarderEntry where
  die : Nat
  node : Nat
  rin : Nat
  tid : Nat
  dom : Nat
  va : Word
  pa : Nat
  data : List Byte
  tag : Nat
  who : Option (Nat × Word)
  sent : Option Nat
  spawn : Bool
  egress : Option Egress
  blk : Bool
  deriving DecidableEq, Repr

/-- A line held in an L2 slice, most recently used first, and whether a write-back left it newer than DRAM (17:R240, 23:R289). -/
structure L2Line where
  slice : Nat
  set : Nat
  way : Nat
  line : Nat
  fn : Nat
  dirty : Bool
  deriving DecidableEq, Repr

/-- A record on a line's wait list (13:R178), or a waiter of another package: that package and its tag. A record that waits on another
package's line has for its line 2^61 plus 16 times its tag plus that package (log 13). -/
structure Waiter where
  line : Nat
  recA : Word
  dom : Nat
  pri : Nat
  die : Nat
  far : Option (Nat × Nat)
  deriving DecidableEq, Repr

/-- Memory, caches, cellar and larder. `mem` holds the coherent bytes by physical offset; `under` the memory-side bytes of
dirty 48-byte sectors by sector address (17:R239, 13:R199). `errs` are 192-byte units whose data are uncorrectable (21:R273),
`regErrs` bytes of the tiles' register spaces, by tile and offset. -/
structure MemSys where
  mem : List Host.Cell
  under : List (Nat × List Byte)
  pins : List Pin
  defer : List Deferred
  stamps : List (Nat × Nat)
  cellar : List CellarEntry
  larder : List LarderEntry
  l2 : List L2Line
  waits : List Waiter
  tlb : List TlbEntry
  errs : List Nat
  regErrs : List (Nat × Nat)
  deriving DecidableEq, Repr

/-- A completion action of a card: CK, TDIE, TARG, VALUE (13:R185). -/
structure Action where
  ck : Nat
  die : Nat
  targ : Nat
  value : Word
  deriving DecidableEq, Repr

/-- A job, window fill or collective in an engine's queue (13:R186-R189, R196), with the thread that issued it, by its record. Stage: 0
queued, 1 started, `todo` the runs of bytes it has not written, 3 its status written, 2 ended; `esz` is the bytes of a unit that is counted
(25:R309). -/
structure JobEntry where
  cls : Nat
  jid : Nat
  card : Word
  tid : Nat
  tile : Nat
  who : Nat × Word
  dom : Nat
  priv : Priv
  guard : Nat
  win : Option Nat
  graph : Nat
  reads : List (Nat × Nat)
  writes : List (Nat × Nat)
  preds : List (Nat × Nat)
  acts : List Action
  orphan : Bool
  early : Bool             -- a fill that HSCHED started, dropped when it fails (07:R83)
  stage : Nat
  todo : List (Nat × List Byte)
  esz : Nat
  st : Nat
  code : Nat
  fx : BitVec 6
  faddr : Word
  rin : Nat
  deriving DecidableEq, Repr

/-- An engine: copy engine 48d + 3c + y, or collective engine 192 + d. `subs` are fills not yet accepted; `last` is the tile whose
entry was taken last (01:R13, 13:R195). -/
structure Engine where
  jobs : List JobEntry
  next : Nat
  subs : List JobEntry
  last : Nat
  deriving DecidableEq, Repr

/-- What a kernel header gives a thread (07:R95-R97). -/
structure Kern where
  pc : Word
  gran : Nat
  vv : Word
  va : Word
  vx : Word
  priv : Priv
  wtab : Word
  nwin : Nat
  deriving DecidableEq, Repr

/-- A live task node (13:R196-R198). `stage`: 0 live, 1 its TDONE runs its actions, 2 its status is written; `fail` is what ended them. -/
structure TaskNode where
  die : Nat
  id : Nat
  card : Word
  dom : Nat
  priv : Priv
  counter : Nat
  preds : List (Nat × Nat)
  started : Bool
  graph : Nat
  reads : List (Nat × Nat)
  writes : List (Nat × Nat)
  acts : List Action
  kern : Kern
  arg : Word
  recA : Word
  save : Word
  aff : Option Nat
  pri : Nat
  stage : Nat
  code : Nat
  fail : Option Trap
  deriving DecidableEq, Repr

/-- An entry of a member's exchange plan (03:R42). -/
structure ExchEntry where
  len : Nat
  soff : Nat
  path : Nat
  dst : Nat
  doff : Nat
  fe : Bool
  foff : Nat
  src : Nat
  deriving DecidableEq, Repr

/-- A scratch range of a member (03:R36). -/
structure Range where
  home : Word
  scl : Bool
  init : Bool
  sline : Nat
  nline : Nat
  deriving DecidableEq, Repr

/-- A signed member (03:R36-R47): `recs` are its gang's slots and records while the compact is pre-empted; `told`, that other packages have
been told of its arrival. -/
structure Member where
  idx : Nat
  tile : Nat
  tid : Nat
  gang : Option Nat
  ranges : List Range
  plan : List (List ExchEntry)
  variant : Nat
  exchDone : Bool
  vote : Option (Nat × Nat × Nat)
  told : Bool
  dissolving : Bool
  recs : List (Nat × Word)
  deriving DecidableEq, Repr

/-- An exchange entry under way to another package: its tag, path and package, the tile of the member that opened the exchange, and where
its bytes land (03:R43, 27:R311). -/
structure Sent where
  tag : Nat
  path : Nat
  pkg : Nat
  tile : Nat
  pa : Nat
  deriving DecidableEq, Repr

/-- A live compact (03:R36-R47). Phase: 0 none, 1 pre-emption at its boundary, 2 seal at its boundary, 3 sealed and waiting, 4
to be resumed by a rollback; `sent` are exchange entries under way to other packages. -/
structure Compact where
  recAddr : Word
  dom : Nat
  nmem : Nat
  xto : Nat
  coords : List (Nat × List Range)
  members : List Member
  superstep : Nat
  fly : List ExchEntry
  sent : List Sent
  preempted : Bool
  phase : Nat
  fault : Nat
  node : Nat
  clk : Bool
  deriving DecidableEq, Repr

/-- Messages of the matrix-command router (01:R15, 11:R159, R164, R165). -/
inductive RouterMsg where
  | mmar (tile src guard acc : Nat) (a b k cap : Word) (dom : Nat)
  | scale (tile src guard acc dom : Nat) (entries : List (List Byte))
  | acvt (tile src guard : Nat) (off ctl cap : Word) (dom : Nat)
  | status (src guard : Nat) (unit code : Nat)
  | scaleAck (src guard : Nat) (code : Nat)
  | rows (src guard : Nat) (off : Word) (bytes : List Byte) (fx : BitVec 6)
  | packetAck (src guard : Nat) (ok : Bool)
  | packetWait (tag src guard pkg : Nat)
  deriving DecidableEq, Repr

/-- Engines, tasks, compacts and the router. `pantry` lists the ready nodes in the order in which they became ready: the first 4,096 of a
die are in its pantry, the others wait (13:R197). -/
structure Engines where
  engines : List (Nat × Engine)
  tasks : List TaskNode
  pantry : List (Nat × Nat)
  compacts : List (Nat × Compact)
  router : List RouterMsg
  counts : List (Nat × Nat)
  deriving DecidableEq, Repr

/-- A function's configuration (15:R218). -/
structure VfCfg where
  slice : Nat
  weight : Nat
  qmax : Nat
  bdram : Nat
  bflit : Nat
  bcopy : Nat
  bl2f : Nat
  sealto : Nat
  svec : Word
  gtab : Word
  gcnt : Nat
  deriving DecidableEq, Repr

/-- A record waiting in a run queue: die, function, priority (23:R286). -/
structure RunEntry where
  die : Nat
  dom : Nat
  pri : Nat
  recA : Word
  deriving DecidableEq, Repr

/-- What a seal records of a group with its checkpoints (21:R267, R273): records whose checkpoints were written, queues, wait
lists, tasks, jobs not started or ended and unretired, fills not accepted, compacts and pins. -/
structure Saved where
  ckpts : List RunEntry
  run : List RunEntry
  waits : List Waiter
  pantry : List (Nat × Nat)
  tasks : List TaskNode
  jobs : List (Nat × JobEntry)
  subs : List (Nat × JobEntry)
  compacts : List (Nat × Compact)
  pins : List Pin
  deriving DecidableEq, Repr

/-- A rollback in progress: its cause, the package and the place of the fault (21:R273, R275). -/
structure Roll where
  cause : Nat
  pkg : Nat
  loc : Nat
  deriving DecidableEq, Repr

/-- A recovery state block (21:R264), with the interval sealed last, 0 for none (R275), and the progress of a seal (R267-R268): the packages that have prepared and acknowledged,
the records arrived, laggards among them to be queued again, whether the timeout has expired; what the last seal recorded, and what the seal in progress has.
`stopped` are the packages that have stopped for the rollback in progress, each with its RIN and its CMT (21:R273). -/
structure Rgs where
  gid : Nat
  rin : Nat
  last : Nat
  ccap : Nat
  cuse : Nat
  rolls : Nat
  req : Bool
  forced : Bool
  sealing : Bool
  roll : Option Roll
  stopped : List (Nat × Nat × Bool)
  cmt : Bool
  logb : Word
  logn : Nat
  logw : Word
  peers : List Nat
  prepared : List Nat
  acked : List Nat
  arrived : List RunEntry
  laggards : List RunEntry
  late : Bool
  saved : Saved
  next : Saved
  deriving DecidableEq, Repr

/-- A block move (25:R300): state and reason, gaining node, deadline. -/
structure Move where
  state : Nat
  reason : Nat
  gain : Nat
  deadline : Nat
  deriving DecidableEq, Repr

/-- A command that has started and not completed (23:R282-R284): its ring index, its records, members not yet placed (record and
tile), the status word, the scale server it set; of a fence, the interval it waits for. -/
structure Command where
  op : Nat
  idx : Nat
  recs : List Word
  todo : List (Word × Nat)
  stat : Word
  loft : Option Nat
  upto : Nat
  deriving DecidableEq, Repr

/-- One queue of a virtual command processor (23:R278-R280): `pass` is what the pass in progress read at its start, `fence` the
ring index of the last completed fence, `seen` the control word as the last pass read it. -/
structure Queue where
  base : Word
  ctl : Word
  qwr : Nat
  qrd : Nat
  state : Nat
  code : Nat
  pending : Bool
  pass : Option (Word × Word × Nat)
  fence : Nat
  cmds : List Command
  seen : Word
  deriving DecidableEq, Repr

/-- A virtual command processor page (23:R278). -/
structure Vcp where
  evbase : Word
  evctl : Word
  evw : Word
  evr : Word
  evlost : Word
  bstat : List Nat
  queues : List Queue
  deriving DecidableEq, Repr

/-- Translation control of a function, and its roots before the changes that no TLBI has followed yet, the last one first (17:R227). -/
structure Tcr where
  root : Word
  gtv : Word
  prev : List Word
  deriving DecidableEq, Repr

/-- What the steward keeps (15:R217-R222, 21, 23, 25): `pendTrap`, `pendHeld`, `pendGbar` and `pendIrr` are the asynchronous causes and held
faults of threads that have left their slots, by record, those whose GBAR has completed, and those pre-empted before an irrevocable store
whose seal they are part of (03:R35, R314, 13:R171, R177); `toRetire` are tiles to be retired after their group's commit (31:R347); `pendSpawn` is how the held record stores of SPAWNs ended, by thread and record
(09:R122). -/
structure Steward where
  parts : List Nat
  binds : List (Nat × Nat)
  cfgs : List (Nat × VfCfg)
  rgs : List (Nat × Rgs)
  bown : List (Nat × Word)
  moves : List (Nat × Move)
  vcps : List (Nat × Vcp)
  runq : List RunEntry
  tcrs : List (Nat × Tcr)
  htvec : Word
  l2mask : List (Nat × Nat)
  used : List (Nat × Nat)
  limits : List (Nat × Nat)
  slice : List (Nat × Nat × Nat)
  retired : List Nat
  toRetire : List Nat
  pendRec : List (Nat × Nat × Word)
  pendTrap : List ((Nat × Word) × Trap)
  pendHeld : List ((Nat × Word) × Trap × Word)
  pendGbar : List (Nat × Word)
  pendIrr : List (Nat × Word)
  pendSpawn : List ((Nat × Word) × Word × Option Trap)
  deriving DecidableEq, Repr

/-- A peer's route (29:R327): its failed lanes, and the failed checks of lanes in the last 1 ms, each with the 10 µs ticks until it lies
further back (29:R328). -/
structure Peer where
  st : Nat
  relay : Nat
  lanes : List Nat
  spu : Nat
  checks : List (Nat × Nat)
  deriving DecidableEq, Repr

/-- A clock-group member as this package knows it (29:R335-R337): its ceiling in effect, announced changes with the ticks until
they take effect (128 stands for its removal), the ticks until it counts, and whether it is silent. -/
structure ClockMember where
  ceil : Nat
  pend : List (Nat × Nat)
  wait : Nat
  silent : Bool
  deriving DecidableEq, Repr

/-- What leaves the package (29:R323, R338, 31:R342). A request carries the interval of the storer's group (21:R265). A steward's
message names the partition; kinds: 1 PREPARED, 2 COMMIT, 3 its acknowledgement, 4 SEALED (21:R268), 6 leaving the domain (29:R331),
7 SEALREQ (R269), 8 a seal begins (R267), 9 a forced one (R269), 11 the package
is in the group no more (R263). What a package says of its group comes with its RIN and its ROLLS (R264). A rollback order names the package
and the place of the fault, with cause 7 where the group cannot roll back (R274); a package that has stopped for it says its RIN and its CMT (R273). A member's arrival at its SYNC carries its vote and
kind, 4 added where a pre-emption of the compact is wanted, 8 where a seal is in progress; 16 stands for DISSOLVE, 32 and a subcause for
a compact fault (03:R43-R46, 27:R314). `passed` is a flit forwarded for another pair, `route` tells a peer of a change of this package's
route to another, `dead` names a package that R329 declares dead (29:R329-R330); `ceiling` is what the group is told of a member, 128 for one
that leaves (R335-R337); `completion` answers the host's read (R338). -/
inductive OutMsg where
  | request (kind : ReqKind) (pkg tag pa : Nat) (dom rin : Nat) (data : List Byte)
  | reply (pkg tag : Nat) (st : Reply) (data : List Byte)
  | packet (pkg tag coord dom sender : Nat) (beats : List Word) (port : Option Nat)
  | exchange (bar dst tag off : Nat) (flag : Option Nat) (data : List Byte) (port : Option Nat)
  | arrival (bar vote kind : Nat)
  | steward (kind node pkg : Nat)
  | group (node pkg : Nat) (pkgs : List Nat) (rin rolls : Nat)
  | rollback (node pkg cause at_ loc : Nat)
  | stopped (node pkg rin : Nat) (cmt : Bool)
  | heartbeat (pkg : Nat)
  | nack (pkg tag : Nat)
  | resend (pkg tag : Nat)
  | relayed (pkg relay : Nat)
  | passed (kind : ReqKind) (pkg src tag pa dom rin : Nat) (data : List Byte)
  | route (pkg peer st : Nat)
  | dead (pkg : Nat)
  | ceiling (group member level : Nat)
  | msix (fn : Nat)
  | retryStatus (fn : Nat)
  | configReply (fn off : Nat) (x : BitVec 32)
  | unsupported (fn : Nat)
  | completion (fn off : Nat) (data : List Byte)
  | measurement (index : Nat) (content : List Nat) (sig : Word)
  | report (fn state : Nat) (items : List Nat) (sig : Word)
  deriving DecidableEq, Repr

/-- A posted store to another package whose acknowledgement is awaited: its tag, thread and addresses, whether its page is of class SO
(29:R324, 19:R252), the partition whose seal waits for it, 0 for none (19:R262), whether it is an atomic (R253), the first tag of its
instruction, and the refusal of the instruction's lowest part so far with that part's tag (27:R317). -/
structure Posted where
  tag : Nat
  tid : Nat
  va : Word
  pa : Nat
  so : Bool
  node : Nat
  atom : Bool
  grp : Nat
  bad : Option (Nat × Trap)
  deriving DecidableEq, Repr

/-- Who makes an access: thread, tile, stamp, translation function, mode; cache policy and IRR of its HMOD; the thread by its
record; whether its stores are FBLK's, which travel as data whatever their size (29:R323). -/
structure Acc where
  tid : Nat
  tile : Nat
  dom : Nat
  fn : Nat
  priv : Priv
  cp : Nat
  irr : Bool
  who : Option (Nat × Word)
  blk : Bool
  deriving DecidableEq, Repr

/-- A translated part of an access that lies in one line and one page. -/
structure Piece where
  va : Word
  pa : Nat
  n : Nat
  leaf : Nat
  deriving DecidableEq, Repr

/-- The rest of a store, which follows the register that its earlier part writes, or the acknowledgement of a part of class SO under tag
`after` (17:R348, 19:R251-R252); `key` is the tag that stands for it, `grp` and `bad` are as of Posted. -/
structure StoreRest where
  key : Nat
  after : Option Nat
  acc : Acc
  pieces : List Piece
  data : List Byte
  grp : Nat
  bad : Option (Nat × Trap)
  deriving DecidableEq, Repr

/-- A flag increment that waits for its data, by the tags of their stores, with its leaf and whether it is irrevocable (13:R171, 29:R324). -/
structure FlagWait where
  tags : List Nat
  tid : Nat
  dom : Nat
  priv : Priv
  va : Word
  pa : Nat
  leaf : Nat
  irr : Bool
  deriving DecidableEq, Repr

/-- A line of a compact homed on another package, asked for again when the compact resumes: the tag of its pin, the compact, the
member's tile and SRAM line (03:R47, 21:R273). -/
structure Refill where
  tag : Nat
  bar : Nat
  tile : Nat
  sline : Nat
  deriving DecidableEq, Repr

/-- Fabric, clocks, platform and host link (29, 31). `joined`: the package is a member of its Berven domain (17:R224, 29:R321); `routes`:
what packages said of their routes, by 16 times the package plus its peer (29:R329); `nacked`: flits sent again, by tag (R325);
`ethDown`: the Ethernet ports are down, `leaving`: the clocks run again on the way from LOW (31:R343); `index`: the package's member index (29:R335);
`fwFirst`: the firmware slot loaded first (31:R340-R341). -/
structure Plat where
  pkg : Nat
  key : Nat
  en : Bool
  joined : Bool
  trained : Bool
  peers : List (Nat × Peer)
  routes : List (Nat × Nat)
  nacked : List (Nat × Nat)
  ethDown : Bool
  ept : List (Nat × (Word × Word))
  hceil : Nat
  ownLimit : Nat
  agr : Nat
  cur : Nat
  group : Option Nat
  autoJoin : Bool
  index : Nat
  members : List (Nat × ClockMember)
  self : ClockMember
  pwReq : Nat
  pwCur : Nat
  leaving : Bool
  fwSt : Nat
  fwSlot : Nat
  fwFirst : Nat
  fwVer : List Nat
  fwMin : Nat
  tj : Nat
  watts : Nat
  flow : Nat
  stopped : Bool
  bret : List Nat
  tretBusy : Bool
  spared : List Nat
  tdisp : List (Nat × Nat)
  ide : List Nat
  vfs : Nat
  config : List (Nat × BitVec 32)
  out : List OutMsg
  posted : List Posted
  flags : List FlagWait
  rests : List StoreRest
  refills : List Refill
  joins : List (Nat × Word)
  deriving DecidableEq, Repr

/-- One turn of the agenda: a step of the opcode table without an encoding; an issue slot given to a thread; the rest of a store by its key;
the registers that data write are written, for the flag that waits under a tag (19:R255); the events of a seal request, and the start of a forced seal (21:R269); what the steward of another package
says of a group: the kinds of OutMsg.steward, the packages of the group with its RIN and its ROLLS (21:R263-R264), and that it has stopped for a rollback (21:R273); that a package's route to a peer has changed (29:R329); a read of the host,
of a function's BAR0 or the PF's BAR2, in IDE stream `stream`, 0 for none (29:R338-R339); the Ethernet ports have trained again (31:R343);
a package that R329 declares dead (29:R330). -/
inductive Turn where
  | event (i : Instr)
  | thread (tid : Nat)
  | stores (key : Nat)
  | flag (tag : Nat)
  | sealReq (node : Nat)
  | forced (node : Nat)
  | told (kind node pkg : Nat)
  | group (node : Nat) (pkgs : List Nat) (rin rolls : Nat)
  | stopped (node pkg rin : Nat) (cmt : Bool)
  | route (pkg peer st : Nat)
  | hostRead (fn bar off n stream : Nat)
  | ethernetUp
  | dead (pkg : Nat)
  deriving DecidableEq, Repr

/-- The package. `th` is the thread that issues next; `others` the other resident threads. `inbox` (the agenda), `fresh`
(the counter of free values) are the model's own. -/
structure State where
  th : Thread
  others : List Thread
  tiles : List (Nat × Tile)
  ms : MemSys
  eng : Engines
  st : Steward
  pl : Plat
  inbox : List Turn
  fresh : Nat
  deriving DecidableEq, Repr

/-- Faults: the machine stops. -/
inductive Fault where
  /-- Raised by step when no firmware image verified (31:R340 step 2): the package stops there. Stops where the spec stops:
  a safe difference. -/
  | bootHalted
  deriving DecidableEq, Repr

/-- Refusals: no meaning is given. -/
inductive Refusal where
  /-- Raised by an arm of exec whose instruction has no meaning yet. Safe. -/
  | notModelled (mnemonic : String)
  /-- Raised by an access to a device MMIO offset at which the spec names no register (17:R224). Safe: the run stops. -/
  | unassignedMmio (off : Nat)
  /-- Raised by HALT in H mode: the spec gives the instruction no effect (15:R203). Safe: the run stops. -/
  | haltUnstated
  deriving DecidableEq, Repr

def Loop.none : Loop := ⟨false, 0, 0, 0⟩
def TrapBank.zero : TrapBank := ⟨0, 0, 0, 0, 0⟩
def RecInfo.zero : RecInfo := ⟨0, 0, 0, 0, 0, 0, 0, 0, 0, false, 0⟩
/-- MU.WM 32, MU.FX 0, MU.OWN none, MU.RST 0 (11:R148). -/
def Mu.fresh : Mu := ⟨[32, 32, 32, 32], [0, 0, 0, 0], [0, 0, 0, 0], 0⟩
def Flow.fresh : Flow :=
  { outs := [], bypass := [], chain := none, group := none, jumped := false, packet := none, egress := [], mq := [],
    asyncs := [], held := [], pend := none,
    heldReads := [], preempt := 0, leave := 0, hold := 0, holder := true, ctx := none, ddone := false, since := 0, wdog := false, aborted := false, gba := false, gdone := false, synced := false,
    tdone := false, waitVa := none, sealed := false, irr := 0, decoded := false, waitAt := none }
/-- An empty thread slot, with the state of 07:R97 (log 4). -/
def Thread.empty : Thread :=
  { live := false, tid := 0, info := .zero, dom := 0, priv := .u, gran := 1, wbase := 0, pc := 0,
    regs := Vector.replicate 32 0, win := [], guards := List.replicate 7 .fls, lp0 := .none, lp1 := .none, lps := 0,
    vv := 0, va := 0, vx := 0, fx := 0, oob := 0, sb := .zero, hb := .zero, mu := .fresh,
    cnt := List.replicate 8 0, sel := List.replicate 8 0, status := .ready, flow := .fresh, caller := none }
def Dp.reset : Dp := ⟨false, 0, 0, 0, 0, 0, 0, 0, 0⟩
def Tile.reset : Tile :=
  { dps := List.replicate 4 .reset, wins := [], host := List.replicate 4 (false, 0), cuse := List.replicate 4 0,
    cep := List.replicate 4 0, loft := 0, loftDom := 0, scq := [], mrun := [], mrecv := [], mlast := 15,
    rxq := List.replicate 4 [], wdexp := List.replicate 16 24, wdnew := List.replicate 16 24, cyc := 0, credit := [],
    gates := [], cache := [], compact := none, rxdead := false }
def MemSys.reset : MemSys :=
  { mem := [], under := [], pins := [], defer := [], stamps := [], cellar := [], larder := [], l2 := [], waits := [], tlb := [], errs := [], regErrs := [] }
def Engine.reset : Engine := ⟨[], 0, [], 0⟩
def Engines.reset : Engines := ⟨[], [], [], [], [], []⟩
/-- A function never configured (log 16). -/
def VfCfg.reset : VfCfg := ⟨0, 0, 3, 0, 0, 0, 0, 0, 0, 0, 0⟩
def Saved.none : Saved := ⟨[], [], [], [], [], [], [], [], []⟩
/-- RGS at reset: RIN 1, the rest 0 (21:R264). -/
def Rgs.reset : Rgs :=
  { gid := 0, rin := 1, last := 0, ccap := 0, cuse := 0, rolls := 0, req := false, forced := false, sealing := false,
    roll := none, stopped := [], cmt := false, logb := 0, logn := 0, logw := 0, peers := [], prepared := [], acked := [],
    arrived := [], laggards := [], late := false, saved := Saved.none, next := Saved.none }
def Queue.reset : Queue := ⟨0, 0, 0, 0, 0, 0, false, none, 0, [], 0⟩
def Vcp.reset : Vcp := ⟨0, 0, 0, 0, 0, [0, 0, 0, 0], List.replicate 8 .reset⟩
def Steward.reset : Steward :=
  { parts := [], binds := [], cfgs := [], rgs := [], bown := [], moves := [], vcps := [], runq := [], tcrs := [],
    htvec := 0, l2mask := [], used := [], limits := [], slice := [], retired := [], toRetire := [], pendRec := [], pendTrap := [], pendHeld := [], pendGbar := [], pendIrr := [], pendSpawn := [] }
def Peer.reset : Peer := ⟨0, 0, [], 0, []⟩
/-- Platform registers at reset (31:R340): HCEIL and AGR 60, CUR 0 (the floor) and FW.STAT.ST 0 until the boot ROM ends (log 4, log 6). -/
def Plat.reset : Plat :=
  { pkg := 0, key := 0, en := false, joined := false, trained := false, peers := [], routes := [], nacked := [], ethDown := false, ept := [], hceil := 60, ownLimit := 60, agr := 60, cur := 0,
    group := none, autoJoin := false, index := 0, members := [], self := ⟨60, [], 0, false⟩, pwReq := 0, pwCur := 0, leaving := false, fwSt := 0, fwSlot := 0, fwFirst := 0, fwVer := [0, 0],
    fwMin := 0, tj := 0, watts := 0, flow := 0, stopped := false, bret := [0, 0, 0, 0, 0], tretBusy := false,
    spared := [], tdisp := [], ide := [], vfs := 0, config := [], out := [], posted := [], flags := [], rests := [], refills := [], joins := [] }

/-- The package right after reset (31:R340): in boot, no partition, no thread, memory with nothing listed. -/
def State.reset : State :=
  { th := .empty, others := [], tiles := [], ms := .reset, eng := .reset, st := .reset, pl := .reset, inbox := [], fresh := 0 }

end Sys2Proof.Machine
end

