-- ==== Sys2Proof/Machine/Memory.lean ====
section
/-! DEFINITION. Lists with keys, tiles and threads by number, physical memory with its caches and cellar, and address
translation (01:R19-R21, 17:R223-R241, 21:R265-R269, 25:R298, R302). -/

namespace Sys2Proof.Machine
open Sys2Proof

/-- The value listed for a key, or `d`. -/
def lookupD {α : Type} : List (Nat × α) → Nat → α → α
  | [], _, d => d
  | (k', v) :: r, k, d => if k' = k then v else lookupD r k d
/-- Replaces or adds the value of a key. -/
def setKey {α : Type} : List (Nat × α) → Nat → α → List (Nat × α)
  | [], k, v => [(k, v)]
  | (k', w) :: r, k, v => if k' = k then (k, v) :: r else (k', w) :: setKey r k v
def delKey {α : Type} (l : List (Nat × α)) (k : Nat) : List (Nat × α) := l.filter (fun p => p.1 != k)
/-- Bit `i` of a mask. -/
def bitOf (x i : Nat) : Bool := x / 2 ^ i % 2 == 1

-- Bytes ---------------------------------------------------------------------------------------------------------------

/-- One byte of a canonical cell list; an unlisted address reads 0 (31:R340 step 3, log 5). -/
def getByte : List Host.Cell → Nat → Byte
  | [], _ => 0
  | c :: cs, a => if c.1 = a then c.2 else getByte cs a
/-- Writes one byte, keeping the list in rising order without zero entries. -/
def setByte : List Host.Cell → Nat → Byte → List Host.Cell
  | [], a, b => if b = 0 then [] else [(a, b)]
  | c :: cs, a, b =>
    if a < c.1 then (if b = 0 then c :: cs else (a, b) :: c :: cs)
    else if a = c.1 then (if b = 0 then cs else (a, b) :: cs)
    else c :: setByte cs a b
/-- `n` bytes from address `a` upward. -/
def readBytes (m : List Host.Cell) (a : Nat) : Nat → List Byte
  | 0 => []
  | n + 1 => getByte m a :: readBytes m (a + 1) n
def writeBytes (m : List Host.Cell) (a : Nat) : List Byte → List Host.Cell
  | [] => m
  | b :: bs => writeBytes (setByte m a b) (a + 1) bs
/-- Zeros in `[lo, hi)`. -/
def clearRange (m : List Host.Cell) (lo hi : Nat) : List Host.Cell := m.filter (fun c => c.1 < lo || hi ≤ c.1)
/-- The canonical form: rising addresses above `lo`, no zero entry. -/
def cellsFrom (lo : Nat) : List Host.Cell → Bool
  | [] => true
  | c :: cs => lo ≤ c.1 && c.2 != 0 && cellsFrom (c.1 + 1) cs
def cellsWf (m : List Host.Cell) : Bool := cellsFrom 0 m

-- Tiles, threads, functions -------------------------------------------------------------------------------------------

/-- The tile number of units that lie in no tile. -/
def noTile : Nat := 100000
/-- Global tile index of an 11-bit coordinate; none where TILE names no tile (01:R19). -/
def coordIdx (c : Nat) : Option Nat :=
  if 24 ≤ bits c 4 0 then none else some ((bits c 10 9 * 16 + bits c 8 5) * 24 + bits c 4 0)
/-- Tile coordinate of a global tile index (01:R19). -/
def idxCoord (i : Nat) : Nat := i / 384 * 512 + i / 24 % 16 * 32 + i % 24
def dieOf (tile : Nat) : Nat := tile / 384
/-- Number of the copy engine that serves a tile (01:R13, R14). -/
def bayOf (tile : Nat) : Nat := 3 * (tile / 24) + tile % 24 / 8
/-- The stack and the compute die of a capacity block (01:R9, R10). -/
def stackOf (b : Nat) : Nat := b / 24
def homeDie (b : Nat) : Nat := b / 72
/-- The die a DRAM stack is attached to (01:R9). -/
def stackDie (k : Nat) : Nat := k / 3
/-- Node `n` of the buddy tree covers linear cluster `c` (01:R21). -/
def nodeCovers (n c : Nat) : Bool :=
  1 ≤ n && n ≤ 127 && (2 ^ n.log2 + c / 2 ^ (6 - n.log2) == n)

def State.tile (s : State) (i : Nat) : Tile := lookupD s.tiles i .reset
def State.setTile (s : State) (i : Nat) (t : Tile) : State := { s with tiles := setKey s.tiles i t }
/-- Global index of a thread's tile, and its thread slot. -/
def Thread.tile (t : Thread) : Nat := t.tid / 16
def Thread.slot (t : Thread) : Nat := t.tid % 16
/-- The resident thread in a slot. -/
def State.thread? (s : State) (tid : Nat) : Option Thread :=
  if s.th.live && s.th.tid == tid then some s.th else s.others.find? (fun t => t.live && t.tid == tid)
def State.threads (s : State) : List Thread := (if s.th.live then [s.th] else []) ++ s.others
/-- Replaces the resident thread with the same slot. -/
def State.setThread (s : State) (t : Thread) : State :=
  if s.th.live && s.th.tid == t.tid then { s with th := t }
  else { s with others := s.others.map (fun u => if u.tid == t.tid then t else u) }
def State.mapThreads (s : State) (f : Thread → Thread) : State :=
  { s with th := if s.th.live then f s.th else s.th, others := s.others.map f }
/-- Empties a slot (03:R29). -/
def State.freeSlot (s : State) (tid : Nat) : State :=
  if s.th.live && s.th.tid == tid then { s with th := { Thread.empty with tid := tid } }
  else { s with others := s.others.filter (fun t => t.tid != tid) }
def State.addThread (s : State) (t : Thread) : State := { s with others := s.others ++ [t] }

def State.cfg (s : State) (f : Nat) : VfCfg := lookupD s.st.cfgs f .reset
def State.rgs (s : State) (n : Nat) : Rgs := lookupD s.st.rgs n .reset
def State.setRgs (s : State) (n : Nat) (r : Rgs) : State := { s with st := { s.st with rgs := setKey s.st.rgs n r } }
/-- The partition a function is bound to on this package (25:R295). -/
def State.nodeOf (s : State) (f : Nat) : Option Nat := (s.st.binds.find? (fun p => p.1 == f)).map (·.2)
/-- The package's number: that of BF.CFG as a member of a Berven domain, else 0 (17:R224, 29:R321). -/
def State.me (s : State) : Nat := if s.pl.joined then s.pl.pkg else 0
/-- Current interval of a function's group; 0 where no group covers it (13:R202, 15:R206). -/
def State.rinOf (s : State) (f : Nat) : Nat :=
  match s.nodeOf f with
  | some n => (s.rgs n).rin
  | none => 0
/-- Nothing of a function's group starts: a rollback is in progress (21:R273), or this package has prepared the seal of its interval, which
every store of the interval comes before (19:R262, 21:R268). -/
def State.atRest (s : State) (f : Nat) : Bool := match s.nodeOf f with
  | some n => (s.rgs n).roll.isSome || (s.rgs n).prepared.contains s.me
  | none => false
/-- The valid domain partition register of a domain on a tile, with its number (15:R219). -/
def Tile.dp? (t : Tile) (dom : Nat) : Option (Nat × Dp) :=
  ((List.range 4).zip t.dps).find? (fun p => p.2.v && p.2.dom == dom)
/-- Fill way mask of a function, 0xFFFF until set (17:R240). -/
def State.l2mask (s : State) (f : Nat) : Nat := lookupD s.st.l2mask f 0xFFFF
def State.retired (s : State) (tile : Nat) : Bool := s.st.retired.contains tile
/-- Tiles of a node that are not retired, and a node with retired ones is short (01:R21-R22). -/
def State.nodeSize (s : State) (n : Nat) : Nat :=
  ((List.range 1536).filter (fun i => nodeCovers n (i / 24) && !s.retired i)).length
def State.short (s : State) (n : Nat) : Bool := s.st.retired.any (fun i => nodeCovers n (i / 24))
/-- A package that accesses may reach: this one or a peer reached directly or by relay (17:R224, 29:R327). -/
def State.pkgLive (s : State) (p : Nat) : Bool :=
  p == s.me || (s.pl.joined && (let st := (lookupD s.pl.peers p .reset).st; st == 1 || st == 2))
/-- A free value's number, and the state with the counter advanced (log 3). -/
def State.tick (s : State) : State := { s with fresh := s.fresh + 1 }

/-- The function whose record a thread runs: its domain, or the caller's during a gate call (15:R211). -/
def Thread.home (t : Thread) : Nat := match t.caller with
  | some c => c.dom
  | none => t.dom
/-- Two threads are of one gang: one domain, one tile, one gang identifier (03:R25). -/
def Thread.gangMate (t u : Thread) : Bool :=
  t.info.kind == 1 && u.info.kind == 1 && t.tile == u.tile && t.home == u.home && t.info.gang == u.info.gang
/-- The resident threads of a thread's gang, of one that is in none itself alone (03:R26). -/
def State.gangOfThread (s : State) (t : Thread) : List Thread := s.threads.filter (fun u => u.tid == t.tid || t.gangMate u)

/-- The member of a compact that a thread's tile holds, when the thread is of its gang (03:R25, R37). -/
def State.memberOf (s : State) (tid : Nat) : Option (Nat × Compact × Member) :=
  match s.thread? tid with
  | none => none
  | some t =>
    s.eng.compacts.findSome? (fun (b, c) => if c.preempted then none else
      (c.members.find? (fun m => m.tile == tid / 16 &&
        (m.tid == tid || (m.gang.isSome && t.info.kind == 1 && t.home == c.dom && m.gang == some t.info.gang)))).map (fun m => (b, c, m)))
/-- A thread belongs to the member gang that a line is pinned for (03:R40). -/
def State.ownsPin (s : State) (tid : Nat) (p : Pin) : Bool :=
  match s.memberOf tid with
  | some (b, _, m) => b == p.bar && m.tile == p.tile && p.far.isNone
  | none => false

-- Physical memory -----------------------------------------------------------------------------------------------------

/-- Regions of a package's physical space (17:R224). -/
inductive Region where
  | dram | tiles | mmio | host | reserved
  deriving DecidableEq, Repr

def regionOf (off : Nat) : Region :=
  if off < Config.dramEnd then .dram
  else if Config.tileSpace ≤ off ∧ off < Config.tileSpace + 0xC0000000 then .tiles
  else if Config.mmioSpace ≤ off ∧ off < Config.mmioSpace + 0x100000000 then .mmio
  else if Config.hostSpace ≤ off ∧ off < 2 ^ 48 then .host
  else .reserved

/-- First byte of the 192-byte line of a DRAM offset; none in a block's last 128 bytes (17:R225). -/
def lineOf (off : Nat) : Option Nat :=
  let k := off % Config.blockSize / 192
  if k ≤ 11184809 then some (off / Config.blockSize * Config.blockSize + 192 * k) else none
/-- Number k of a line within its block. -/
def lineNum (line : Nat) : Nat := line % Config.blockSize / 192
/-- Physical offset of byte `o` of a tile's SRAM (01:R20). -/
def sramAddr (tile o : Nat) : Nat := Config.tileSpace + tile * Config.slotSize + o
/-- The line a waiter waits on: a DRAM line, else the 192-byte unit of the address (13:R178). -/
def waitLine (off : Nat) : Nat :=
  match regionOf off with
  | .dram => (lineOf off).getD off
  | _ => off / 192 * 192

/-- The unit of a physical address, with its package. -/
def unitOf (pa : Nat) : Nat := pa / 2 ^ 48 * 2 ^ 48 + waitLine (pa % 2 ^ 48)

def State.read (s : State) (off n : Nat) : List Byte := readBytes s.ms.mem off n
def State.write (s : State) (off : Nat) (bs : List Byte) : State :=
  { s with ms := { s.ms with mem := writeBytes s.ms.mem off bs } }

/-- Ownership word of a block (25:R297): KIND and NODE. -/
def State.blockKind (s : State) (b : Nat) : Nat := bits (lookupD s.st.bown b 0).toNat 11 10
def State.blockNode (s : State) (b : Nat) : Nat := bits (lookupD s.st.bown b 0).toNat 6 0
def State.move (s : State) (b : Nat) : Move := lookupD s.st.moves b ⟨0, 0, 0, 0⟩
def State.blockRetired (s : State) (b : Nat) : Bool := bitOf (s.pl.bret.getD (b / 64) 0) (b % 64)
/-- The domain check of a DRAM frame (25:R298, R300, 31:R346). -/
def State.dramPermitted (s : State) (dom : Nat) (priv : Priv) (off : Nat) : Bool :=
  let b := off / Config.blockSize
  priv == .h ||
    (!s.blockRetired b && s.blockKind b == 1 && s.nodeOf dom == some (s.blockNode b) &&
      !((s.move b).state == 2 || (s.move b).state == 3))

/-- A bank is granted to a domain on a tile (15:R219, 25:R302). -/
def State.bankGranted (s : State) (tile dom bank : Nat) : Bool :=
  match (s.tile tile).dp? dom with
  | some (_, d) => bitOf d.banks bank
  | none => false
/-- A bank touched by a range of the compact signed on the tile (03:R39). -/
def State.compactBank (s : State) (tile bank : Nat) : Bool :=
  s.eng.compacts.any (fun (_, c) => !c.preempted && c.members.any (fun m => m.tile == tile &&
    m.ranges.any (fun r => r.sline / 512 ≤ bank && bank ≤ (r.sline + r.nline - 1) / 512)))
/-- A bank is in scratch mode (01:R17, 03:R39, 15:R219). -/
def State.bankScratch (s : State) (tile bank : Nat) : Bool :=
  (s.tile tile).dps.any (fun d => d.v && bitOf d.scrb bank) || s.compactBank tile bank
/-- The pin that holds a home line, and the pin that holds an SRAM line (03:R39). -/
def State.pinOfHome (s : State) (line : Nat) : Option Pin := s.ms.pins.find? (fun p => p.line == line)
def State.pinOfSram (s : State) (tile sline : Nat) : Option Pin :=
  s.ms.pins.find? (fun p => p.tile == tile && p.sline == sline && !p.away && p.far.isNone)
/-- The pin of a line homed on another package that a tile of this one holds (03:R39-R40). -/
def State.pinOfFar (s : State) (pa : Nat) : Option Pin :=
  s.ms.pins.find? (fun p => !p.away && p.line ≤ 2 ^ 60 + pa && 2 ^ 60 + pa < p.line + 192)

-- Counters ------------------------------------------------------------------------------------------------------------

/-- Adds to count `e` of unit `u` for function `f` (25:R309). -/
def State.count (s : State) (u f e n : Nat) : State :=
  let k := (u * 513 + f) * 4 + e
  { s with eng := { s.eng with counts := setKey s.eng.counts k ((lookupD s.eng.counts k 0 + n) % 2 ^ 64) } }
/-- Charges budget `k` of a function: 0 DRAM sectors, 1 flits, 2 copy units, 3 L2 fills (23:R289). -/
def State.charge (s : State) (f k n : Nat) : State :=
  { s with st := { s.st with used := setKey s.st.used (4 * f + k) (lookupD s.st.used (4 * f + k) 0 + n) } }
/-- Data flits that carry some bytes (29:R323). -/
def dataFlits (n : Nat) : Nat := (n + 479) / 480
/-- Flits sent for a function: `k` data flits, or one control flit (23:R289, 25:R309, 29:R323). -/
def State.flits (s : State) (f k : Nat) : State :=
  if k = 0 then (s.charge f 1 1).count 324 f 0 1 else (s.charge f 1 k).count 324 f 1 k
/-- Data flits that arrive for a function (25:R309). -/
def State.flitsIn (s : State) (f k : Nat) : State := if k = 0 then s else s.count 324 f 2 k
/-- A function's budgets as VFCFG set them; those of the running period were taken at its start (15:R218). -/
def VfCfg.budget (c : VfCfg) (k : Nat) : Nat :=
  match k with
  | 0 => c.bdram | 1 => c.bflit | 2 => c.bcopy | _ => c.bl2f
def State.budget (s : State) (f k : Nat) : Nat := lookupD s.st.limits (4 * f + k) 0
/-- A function's budget for a kind of work is spent in this period (23:R289). -/
def State.spent (s : State) (f k : Nat) : Bool :=
  s.budget f k != 0 && s.budget f k ≤ lookupD s.st.used (4 * f + k) 0
/-- The optical port trains again after LOW: accesses that need it wait (31:R343). -/
def State.portTrains (s : State) : Bool := s.pl.leaving && s.pl.en && !s.pl.trained
/-- Adds `n` to the counters of a thread that select event `ev`, for an event met in the mode and gate context of `who`
(25:R306-R308). -/
def Thread.countAs (t who : Thread) (ev n : Nat) : Thread :=
  if who.priv = .h ∨ who.caller.isSome then t
  else { t with cnt := (t.cnt.zip t.sel).map (fun (c, e) =>
    if bits e.toNat 7 0 == ev && bitOf e.toNat (if who.priv = .u then 10 else 9) then BitVec.ofNat 64 ((c.toNat + n) % 2 ^ 48) else c) }
def Thread.countEv (t : Thread) (ev n : Nat) : Thread := t.countAs t ev n

-- The agenda, and errors ------------------------------------------------------------------------------------------------

def State.emit (s : State) (m : OutMsg) : State := { s with pl := { s.pl with out := s.pl.out ++ [m] } }
/-- Puts turns on the agenda, after those of the same step. -/
def State.plan (s : State) (ts : List Turn) : State := { s with inbox := s.inbox ++ ts }
def State.post (s : State) (i : Instr) : State := s.plan [.event i]
/-- The 192-byte units of some bytes hold an uncorrectable error (21:R273). -/
def State.badAt (s : State) (off n : Nat) : Bool := s.ms.errs.any (fun u => u < off + n && off < u + 192)
/-- The partition whose group covers the data at an offset (21:R263, R273). -/
def State.coverOf (s : State) (off : Nat) : Option Nat :=
  match regionOf off with
  | .dram =>
    let b := off / Config.blockSize
    if s.blockKind b != 0 && s.st.parts.contains (s.blockNode b) then some (s.blockNode b) else none
  | .tiles => s.st.parts.find? (fun n => nodeCovers n ((off - Config.tileSpace) / Config.slotSize / 24))
  | _ => none

/-- The partition whose group a tile is a resource of (21:R263). -/
def State.coverTile (s : State) (tile : Nat) : Option Nat := s.st.parts.find? (fun n => nodeCovers n (tile / 24))
/-- A detected error starts one rollback (21:R273). -/
def State.postOnce (s : State) (i : Instr) : State := if s.inbox.contains (.event i) then s else s.post i
/-- The answer to an uncorrectable error at some bytes that a read returned: their group rolls back, else it is the reader's (21:R273). The
place of the fault is a physical address, of an SRAM error the tile's coordinate (R275). -/
def State.detect (s : State) (off : Nat) : Bool × State := match s.coverOf off with
  | some n => (true, s.postOnce (if regionOf off = .tiles then .rollback n 2 s.me (idxCoord ((off - Config.tileSpace) / Config.slotSize))
      else .rollback n 1 s.me (s.me * 2 ^ 48 + off)))
  | none => (false, s)
/-- A read by a unit that has no fault of its own to report: an error in the bytes starts their group's rollback (21:R273). -/
def State.sees (s : State) (off n : Nat) : State := if s.badAt off n then (s.detect off).2 else s

-- Caches --------------------------------------------------------------------------------------------------------------

/-- Sectors of a line that `n` bytes at `off` touch, as a mask (17:R225). -/
def sectorMask (line off n : Nat) : Nat :=
  ((List.range 4).filter (fun j => off < line + 48 * (j + 1) && line + 48 * j < off + n)).foldl (fun m j => m + 2 ^ j) 0
/-- Memory keeps the coherent bytes: the sectors of `mask` are no longer dirty anywhere (17:R239). -/
def cleanLine (u : List (Nat × List Byte)) (line mask : Nat) : List (Nat × List Byte) :=
  u.filter (fun p => !((List.range 4).any (fun j => bitOf mask j && p.1 == line + 48 * j)))
/-- Keeps the memory-side bytes of sectors that become dirty. -/
def dirtyLine (u : List (Nat × List Byte)) (m : List Host.Cell) (line mask : Nat) : List (Nat × List Byte) :=
  ((List.range 4).filter (fun j => bitOf mask j && !(u.any (fun p => p.1 == line + 48 * j)))).foldl
    (fun u j => u ++ [(line + 48 * j, readBytes m (line + 48 * j) 48)]) u

/-- The DRAM sectors that an evicted line writes count to the function that filled it (23:R289). -/
def State.l2Evict (s : State) (p : L2Line → Bool) : State :=
  let s := (s.ms.l2.filter (fun e => p e && e.dirty)).foldl (fun s e => s.charge e.fn 0 4) s
  { s with ms := { s.ms with l2 := s.ms.l2.filter (fun e => !p e) } }
/-- One access to the L2 slice of a line, allocating for function `f` (17:R240-R241). The merge of a write-back reads the line, and may
meet its error (21:R273). -/
def State.l2Access (s : State) (line f : Nat) (writeBack : Bool) : State :=
  let s := if writeBack then s.sees line 192 else s
  let k := lineNum line
  let sl := line / Config.blockSize / 72 * 32 + k % 32
  let st := k / 32 % 1024
  match s.ms.l2.find? (fun e => e.slice == sl && e.line == line) with
  | some e =>
    let s := s.count sl f (if writeBack then 3 else 0) 1
    { s with ms := { s.ms with l2 := { e with dirty := e.dirty || writeBack } :: s.ms.l2.filter (fun x => !(x.slice == sl && x.line == line)) } }
  | none =>
    let s := (if writeBack then s.count sl f 3 1 else s.count sl f 1 1).charge f 0 4
    let mask := s.l2mask f
    let inSet := s.ms.l2.filter (fun e => e.slice == sl && e.set == st)
    let free := (List.range 16).find? (fun w => bitOf mask w && !(inSet.any (·.way == w)))
    let way? := match free with
      | some w => some w
      | none => (inSet.filter (fun e => bitOf mask e.way)).getLast?.map (·.way)
    match way? with
    | none => s
    | some w =>
      let s := ((s.count sl f 2 1).charge f 3 1).l2Evict (fun x => x.slice == sl && x.set == st && x.way == w)
      { s with ms := { s.ms with l2 := ⟨sl, st, w, line, f, writeBack⟩ :: s.ms.l2 } }

/-- Writes back the dirty sectors of every other copy of a line, each to L2 for the function that filled it; a store or atomic also
invalidates them (17:R239-R240). -/
def State.othersYield (s : State) (tile dom line : Nat) (inval : Bool) : State :=
  let held := s.tiles.flatMap (fun (i, t) =>
    (t.cache.filter (fun c => c.line == line && c.dirty != 0 && !(i == tile && c.dom == dom))).map (·.dom))
  let tiles := s.tiles.map (fun (i, t) =>
    (i, { t with cache := t.cache.filterMap (fun c =>
      if c.line == line && !(i == tile && c.dom == dom) then (if inval then none else some { c with dirty := 0 }) else some c) }))
  let s := { s with tiles := tiles }
  if held.isEmpty then s
  else held.foldl (fun s f => s.l2Access line f true) { s with ms := { s.ms with under := cleanLine s.ms.under line 15 } }
/-- A read or a write of a line by a unit that keeps no copy: its owner writes back, for a write every copy goes (17:R239). -/
def State.unitRead (s : State) (f line : Nat) : State := (s.othersYield noTile f line false).l2Access line f false
def State.unitWrite (s : State) (f line : Nat) : State :=
  let s := s.othersYield noTile f line true
  ({ s with ms := { s.ms with under := cleanLine s.ms.under line 15 } }).l2Access line f true

/-- The slot a domain's miss fills: invalid slots of the permitted ways first, then the least recently used, lines kept by
.cp.keep last (17:R225, R238; log 11). -/
def fillSlot (t : Tile) (d : Dp) (scratch : Nat → Bool) (line : Nat) : Option Nat :=
  let set := (lineNum line % 1024) ^^^ 0x200
  let slots := ((List.range 8).filter (fun w =>
      let bank := 2 * w + set / 512
      bitOf d.cway w && bitOf d.banks bank && !bitOf d.scrb bank && !scratch bank)).map (fun w => w * 1024 + set)
  match slots.find? (fun x => !(t.cache.any (·.slot == x))) with
  | some x => some x
  | none =>
    let here := t.cache.filter (fun c => slots.contains c.slot)
    match (here.filter (fun c => !c.keep)).getLast? with
    | some c => some c.slot
    | none => here.getLast?.map (·.slot)

/-- A read or write of sectors of a DRAM line through a tile's SRAM cache (17:R238-R239): a miss fills the sectors it needs. `cp` is the
cache policy of an HMOD (07:R82). Answers whether it missed. -/
def State.cacheAccess (s : State) (tile dom line mask : Nat) (wr : Bool) (cp : Nat) : State × Bool :=
  let s := s.othersYield tile dom line wr
  let t := s.tile tile
  let put (s : State) (c : CacheLine) (rest : List CacheLine) : State :=
    let c := { c with filled := c.filled ||| mask, dirty := if wr then c.dirty ||| mask else c.dirty, keep := c.keep || cp == 2 }
    let ms := if wr then { s.ms with under := dirtyLine s.ms.under s.ms.mem line mask } else s.ms
    { s.setTile tile { s.tile tile with cache := c :: rest } with ms := ms }
  match t.cache.find? (fun c => c.line == line && c.dom == dom) with
  | some c =>
    let rest := t.cache.filter (fun x => !(x.line == line && x.dom == dom))
    if c.filled &&& mask = mask then (put s c rest, false)
    else if cp == 1 || cp == 3 then (s.l2Access line dom false, true)
    else (put (s.l2Access line dom false) c rest, true)
  | none =>
    let s := s.l2Access line dom false
    let slot? := if cp == 1 || cp == 3 then none else
      match t.dp? dom with
      | some (_, d) => fillSlot t d (s.compactBank tile) line
      | none => none
    match slot? with
    | none => (s, true)
    | some x =>
      let s := match t.cache.find? (fun c => c.slot == x) with
        | some v => if v.dirty = 0 then s else
            ({ s with ms := { s.ms with under := cleanLine s.ms.under v.line 15 } }).l2Access v.line v.dom true
        | none => s
      (put s ⟨line, x, dom, 0, 0, false⟩ (t.cache.filter (fun c => c.slot != x)), true)

/-- The write-backs to L2 of the dirty copies of the lines that `p` selects (17:R240). -/
def State.writeBacks (s : State) (p : Nat → Bool) : State :=
  (s.tiles.flatMap (fun (_, t) => t.cache.filter (fun c => p c.line && c.dirty != 0))).foldl (fun s c => s.l2Access c.line c.dom true) s
/-- Writes back and drops every SRAM copy of the lines that `p` selects; `discard` drops the dirty bytes instead of writing them
back (13:R199 DISCARD, 21:R273 step 2, 25:R300). -/
def State.dropLines (s : State) (p : Nat → Bool) (discard : Bool) : State :=
  let mem := if discard then
      (s.ms.under.filter (fun u => p (u.1 - u.1 % Config.blockSize % 192))).foldl (fun m u => writeBytes m u.1 u.2) s.ms.mem
    else s.ms.mem
  let s := if discard then s else s.writeBacks p
  { s with
    tiles := s.tiles.map (fun (i, t) => (i, { t with cache := t.cache.filter (fun c => !p c.line) }))
    ms := { s.ms with mem := mem, under := s.ms.under.filter (fun u => !p (u.1 - u.1 % Config.blockSize % 192)) } }
/-- Writes back the dirty sectors of the lines that `p` selects, keeping the copies clean. -/
def State.cleanLines (s : State) (p : Nat → Bool) : State :=
  let s := s.writeBacks p
  { s with
    tiles := s.tiles.map (fun (i, t) => (i, { t with cache := t.cache.map (fun c => if p c.line then { c with dirty := 0 } else c) }))
    ms := { s.ms with under := s.ms.under.filter (fun u => !p (u.1 - u.1 % Config.blockSize % 192)) } }

-- Store tagging -------------------------------------------------------------------------------------------------------

/-- What tagging a store answers (21:R265, R269). -/
inductive Tagged where
  | ok (s : State) (req : Bool)    -- tagged, or not a tagged store; `req`: the seal-request threshold was reached
  | stall                          -- a forced seal is in progress
  | exhausted (node : Nat)         -- the cellar has no entry left
  | broken (node : Nat)            -- the copy met an uncorrectable error (21:R273)

/-- The partition whose cellar records stores of function `dom` to a line, if any (21:R265, R269). -/
def State.cellarNode (s : State) (dom line : Nat) : Option Nat :=
  match s.nodeOf dom with
  | none => none
  | some n =>
    let b := line / Config.blockSize
    if s.blockKind b == 1 && s.blockNode b == n && (s.rgs n).ccap != 0 then some n else none
def State.stampOf (s : State) (line : Nat) : Nat := lookupD s.ms.stamps line 0

/-- Tags a store to a DRAM line by a storer whose group's interval is `rin`: the first of an interval copies the line into the cellar
(21:R265). Interval 0 marks a store that is not tagged: to an XT page, or irrevocable (R265, R271). `exempt` marks checkpoint writes, write-backs at a seal and stores of member gangs, which a forced seal does not stall
(21:R269). -/
def State.tagStore (s : State) (dom line rin : Nat) (exempt : Bool) : Tagged :=
  match s.cellarNode dom line with
  | none => .ok s false
  | some n =>
    let g := s.rgs n
    if rin = 0 then .ok s false
    else if g.forced && !exempt then .stall
    else if s.stampOf line == rin then .ok s false
    else if s.badAt line 192 then .broken n
    else if g.ccap ≤ g.cuse then .exhausted n
    else
      let e : CellarEntry := ⟨n, line, rin, g.cuse, readBytes s.ms.mem line 192, s.stampOf line⟩
      let u := g.ccap - g.ccap / 8
      let cuse := g.cuse + 1
      let req := !g.req && 3 * u ≤ 4 * cuse
      let g' := { g with cuse := cuse, req := g.req || req, forced := g.forced || u ≤ cuse, sealing := g.sealing || u ≤ cuse }
      .ok (({ s with ms := { s.ms with cellar := s.ms.cellar ++ [e], stamps := setKey s.ms.stamps line rin } }).setRgs n g') req

/-- An irrevocable write is never undone: the values that a rollback writes back hold it (21:R271). -/
def State.patchOld (s : State) (line off : Nat) (bs : List Byte) : State :=
  { s with ms := { s.ms with cellar := s.ms.cellar.map (fun (e : CellarEntry) =>
      if e.line = line then { e with old := e.old.take (off - line) ++ bs ++ e.old.drop (off - line + bs.length) } else e) } }
/-- The bytes of a store of interval `rin` to a DRAM line are written. -/
def State.writeLine (s : State) (line rin off : Nat) (bs : List Byte) : State :=
  (if rin = 0 then s.patchOld line off bs else s).write off bs

/-- The 256 bytes of a cellar entry of package `pkg` (21:R266). -/
def CellarEntry.bytes (e : CellarEntry) (pkg : Nat) : List Byte :=
  let body := e.old ++ leBytes 8 (pkg * 2 ^ 48 + e.line) ++ leBytes 8 (e.rin * 2 ^ 32 + e.seq) ++ List.replicate 40 0
  body ++ leBytes 8 (Config.cellarCheck body).toNat
/-- The cellar blocks of a partition, rising, and the offset of its entry number `k`, which a block on its way out holds none of (21:R264,
R266, 25:R300). -/
def State.cellarBlocks (s : State) (n : Nat) : List Nat := (List.range 288).filter (fun b =>
  s.blockKind b == 2 && s.blockNode b == n && !((s.move b).state == 2 || (s.move b).state == 3))
def State.cellarSlot (s : State) (n k : Nat) : Option Nat :=
  ((s.cellarBlocks n)[k / 2 ^ 23]?).map (fun b => b * Config.blockSize + 256 * (k % 2 ^ 23))
/-- A byte of DRAM as its home gives it: a cellar block holds the entries of its partition (21:R266). -/
def State.homeByte (s : State) (off : Nat) : Byte :=
  let b := off / Config.blockSize
  if s.blockKind b == 2 then
    match s.ms.cellar.find? (fun e => e.node == s.blockNode b && s.cellarSlot e.node e.seq == some (off / 256 * 256)) with
    | some e => (e.bytes s.me).getD (off % 256) 0
    | none => getByte s.ms.mem off
  else getByte s.ms.mem off
def State.homeBytes (s : State) (off n : Nat) : List Byte :=
  if s.blockKind (off / Config.blockSize) == 2 then (List.range n).map (fun k => s.homeByte (off + k)) else s.read off n

-- Translation ---------------------------------------------------------------------------------------------------------

/-- Canonical form of a virtual address (17:R223). -/
def canonical (va : Word) : Bool := bits va.toNat 63 51 == 0 || bits va.toNat 63 51 == 0x1FFF

/-- Where a unit of the device finds a byte (17:R224-R225, R237): nowhere in a block's last 128 bytes, in the slot of a retired tile,
in an unpopulated or cached bank; a pinned line's in its member's SRAM. -/
def State.unitLoc (s : State) (off : Nat) : Option Nat :=
  match regionOf off with
  | .dram =>
    match lineOf off with
    | none => none
    | some line =>
      match (s.pinOfHome line).filter (fun p => !p.away && p.far.isNone) with
      | some p => some (sramAddr p.tile (p.sline * 192 + (off - line)))
      | none => some off
  | .tiles =>
    let t := (off - Config.tileSpace) / Config.slotSize
    let o := (off - Config.tileSpace) % Config.slotSize
    if s.retired t || Config.sramSize ≤ o || !s.bankScratch t (o / Config.bankSize) then none else some off
  | .host => some off
  | _ => none
/-- Bytes as a unit of the device reads them, zero where there is none. -/
def State.unitBytes (s : State) (off n : Nat) : List Byte :=
  (List.range n).map (fun k => match s.unitLoc (off + k) with
    | some loc => if regionOf loc = .dram then s.homeByte loc else getByte s.ms.mem loc
    | none => 0)

/-- An 8-byte table word at a physical address; another package's is a free value (log 12). -/
def State.tableWord (s : State) (pa : Nat) : Nat :=
  if pa / 2 ^ 48 = s.me then leNat (s.unitBytes (pa % 2 ^ 48) 8) else (Config.remoteWord pa s.fresh).toNat

/-- Levels of a walk: number, low index bit, index bits (17:R228). -/
def walkLevels : List (Nat × Nat × Nat) := [(0, 41, 11), (1, 30, 11), (2, 21, 9), (3, 16, 5)]

/-- How a walk that finds no leaf ends besides the subcauses of R231: its table lies in the slot of a retired tile (01:R20; the spec does not
say how a walker reports it: NOTILE, DESIGN CHOICE, log 83), or is uncorrectable data of no group (21:R273). -/
def walkNoTile : Nat := 256
def walkBroken (pa : Nat) : Nat := 65536 + pa
/-- The trap of a translation that fails (17:R231, 27:R311). -/
def walkTrap (c : Nat) (va : Word) : Trap :=
  if c < 256 then ⟨.xlate, c, va⟩ else if c = walkNoTile then ⟨.notile, 0, va⟩ else ⟨.mcheck, 0, BitVec.ofNat 64 (c - 65536)⟩
/-- A table word cannot be read. -/
def State.tableError (s : State) (pa : Nat) : Option Nat :=
  let off := pa % 2 ^ 48
  if pa / 2 ^ 48 ≠ s.me then none
  else if regionOf off = .tiles ∧ s.retired ((off - Config.tileSpace) / Config.slotSize) then some walkNoTile
  else if s.badAt off 8 ∧ s.coverOf off = none then some (walkBroken pa)
  else none

/-- A walk from a table: the leaf's address, the leaf and its page shift, with the addresses of the entries read, or the subcause
(17:R230-R231). -/
def State.walkFrom (s : State) (va : Nat) : List (Nat × Nat × Nat) → Nat → List Nat → Except Nat (Nat × Nat × Nat × List Nat)
  | [], _, _ => .error 6
  | (l, sh, w) :: rest, tab, seen =>
    let ea := tab + 8 * (va / 2 ^ sh % 2 ^ w)
    let e := s.tableWord ea
    match s.tableError ea with
    | some c => .error c
    | none =>
    if !bitOf e 0 then .error 1
    else if bitOf e 5 then
      if l = 0 ∨ bits e 13 8 ≠ 0 then .error 6 else .ok (ea, e, sh, ea :: seen)
    else if l = 3 ∨ bits e 63 52 ≠ 0 ∨ bits e 7 6 ≠ 0 ∨ bits e 4 1 ≠ 0 then .error 6
    else if !s.pkgLive (bits e 51 48) then .error 6
    else s.walkFrom va rest (bits e 51 8 * 256) (ea :: seen)

/-- Fields of a leaf (17:R229). -/
def leafFrame (e : Nat) : Nat := bits e 51 16 * 65536
def leafOc (e : Nat) : Nat := bits e 57 56
def leafEf (e : Nat) : Nat := bits e 55 52
def leafBg (e : Nat) : Nat := bits e 15 14
def leafXt (e : Nat) : Bool := bitOf e 63
def leafRd (e : Nat) : Bool := bitOf e 62

/-- Validity of a leaf for a page of `2^sh` bytes at `va` (17:R226, R230): the subcause of a breach. -/
def leafError (e sh va : Nat) : Option Nat :=
  let f := leafFrame e
  let off := f % 2 ^ 48
  if leafOc e = 3 ∨ 1 < leafBg e ∨ f % 2 ^ sh ≠ 0 ∨ regionOf off = .reserved ∨
     (!leafRd e && bits e 61 58 != 0) ∨
     (leafRd e && (regionOf off != .dram || bits e 61 58 == f / 2 ^ 48)) then some 6
  else if regionOf off = .dram ∧ ((va / 2 ^ sh * 2 ^ sh : Nat) - (off % Config.blockSize : Nat) : Int) % 196608 ≠ 0 then some 7
  else none

/-- Permission checks of an access (17:R230). -/
def permError (e : Nat) (m : Priv) (k : AccKind) : Option Nat :=
  if m = .u ∧ !bitOf e 4 then some 2
  else
    let ok := match k with
      | .read => bitOf e 1 | .write => bitOf e 2 | .atomic => bitOf e 1 && bitOf e 2 | .fetch => bitOf e 3
    if !ok then some 2
    else if leafRd e && (k == .write || k == .atomic) then some 3
    else none

/-- The physical address of `va` under a leaf: of a read-duplicate page, the reader's own home where it has one, and the other home of one
whose package is gone (17:R234, 29:R330 step 5). -/
def State.leafPa (s : State) (e sh va : Nat) : Nat :=
  let pa := leafFrame e / 2 ^ sh * 2 ^ sh + va % 2 ^ sh
  if leafRd e && pa / 2 ^ 48 != s.me && (bits e 61 58 == s.me || !s.pkgLive (pa / 2 ^ 48)) then bits e 61 58 * 2 ^ 48 + pa % 2 ^ 48 else pa

/-- A and D bits an access needs set (17:R230). -/
def needBits (k : AccKind) : Nat := if k = .write ∨ k = .atomic then 0xC0 else 0x40

/-- The TLB entry of a tile for an address (17:R232). -/
def State.tlb? (s : State) (tile fn : Nat) (va : Nat) : Option TlbEntry :=
  s.ms.tlb.find? (fun t => t.tile == tile && t.fn == fn && t.page == va / 2 ^ t.shift)

/-- Fills a tile's TLB; a full one drops a free choice (17:R232, log 10). -/
def State.tlbFill (s : State) (t : TlbEntry) : State :=
  let rest := s.ms.tlb.filter (fun u => !(u.tile == t.tile && u.fn == t.fn && u.page == t.page && u.shift == t.shift))
  let mine := rest.filter (fun u => u.tile == t.tile)
  let rest' := if mine.length < 128 then rest else
    match mine[Config.tlbVictim s.fresh % mine.length]? with
    | some v => rest.erase v
    | none => rest
  { s with ms := { s.ms with tlb := t :: rest' } }

/-- The root word that a walk uses: between a change of TCR and the TLBI that covers it, the one it held before or the new, a free choice
(17:R227, log 31). -/
def State.rootOf (s : State) (fn : Nat) : Nat :=
  let t := lookupD s.st.tcrs fn ⟨0, 0, []⟩
  match t.prev with
  | [] => t.root.toNat
  | old => ((t.root :: old).getD (Config.oldRoot s.fresh % (old.length + 1)) t.root).toNat
/-- A walker reads a table line: a load that its owner supplies, writing it back (17:R232, R239); of another package's, a request, as H
(29:R323). -/
def State.walkRead (s : State) (fn ea : Nat) : State :=
  let off := ea % 2 ^ 48
  let s := if ea / 2 ^ 48 = s.me then s.sees off 8
    else ((s.emit (.request (.acc .read) (ea / 2 ^ 48) s.fresh ea 1024 0 (List.replicate 8 0))).flits fn 0).tick
  match (if ea / 2 ^ 48 = s.me ∧ regionOf off = .dram then lineOf off else none) with
  | some line => s.unitRead fn line
  | none => s
/-- A and D bits set in an entry by an atomic at its home (17:R230, R232); of an entry on another package, an atomic asked for there
as H, which no domain check stops (29:R326; log 13: an OR has code 2). -/
def State.walkSet (s : State) (fn ea e k : Nat) : State :=
  let off := ea % 2 ^ 48
  if e = e ||| k then s
  else if ea / 2 ^ 48 ≠ s.me then
    ((s.emit (.request (.acc .atomic) (ea / 2 ^ 48) s.fresh ea 1024 0 ([2, 8] ++ leBytes 8 k ++ leBytes 8 0))).flits fn 0).tick
  else
    let s := match (if regionOf off = .dram then lineOf off else none) with
      | some line => s.unitWrite fn line
      | none => s
    match s.unitLoc off with
    | some loc => s.write loc (leBytes 8 (e ||| k))
    | none => s
/-- A walk of `va` with its checks, its A and D updates and its TLB fill (17:R230). -/
def State.walk (s : State) (tile fn : Nat) (m : Priv) (k : AccKind) (va : Word) : Except Nat (Nat × Nat × State) :=
  let root := s.rootOf fn
  if !bitOf root 0 then .error 1
  else if !s.pkgLive (bits root 51 48) then .error 6
  else
    match s.walkFrom va.toNat walkLevels (bits root 51 8 * 256) [] with
    | .error e => .error e
    | .ok (ea, e, sh, seen) =>
      match leafError e sh va.toNat, permError e m k with
      | some c, _ => .error c
      | none, some c => .error c
      | none, none =>
        let e' := e ||| needBits k
        let s := (seen.reverse.foldl (fun s a => s.walkRead fn a) s).walkSet fn ea e (needBits k)
        .ok (s.leafPa e' sh va.toNat, e', s.tlbFill ⟨tile, fn, va.toNat / 2 ^ sh, sh, e', ea⟩)

/-- Translation of one address: physical address, leaf and the state with TLB and A/D updated, or the subcause (17:R230-R232). -/
def State.translate (s : State) (tile fn : Nat) (m : Priv) (k : AccKind) (va : Word) : Except Nat (Nat × Nat × State) :=
  if !canonical va then .error 5
  else
    match s.tlb? tile fn va.toNat with
    | some t =>
      match permError t.leaf m k with
      | some c => .error c
      | none => if t.leaf ||| needBits k = t.leaf then .ok (s.leafPa t.leaf t.shift va.toNat, t.leaf, s) else s.walk tile fn m k va
    | none => s.walk tile fn m k va

end Sys2Proof.Machine
end

