-- ==== Sys2Proof/Machine/Operands.lean ====
section
/-! DEFINITION. Operand forms: registers and the bypass, views, guards, widened immediates, element formats, coordinates, and
which registers a form reads and writes (07:R81-R94, 09:R104-R127, 11:R133-R134). -/

namespace Sys2Proof.Machine
open Sys2Proof

/-- T = 1 is read in version 1 only (07:R73). -/
def transientMark (m : Mark) : Bool := m.v && m.t

-- g registers ---------------------------------------------------------------------------------------------------------

/-- The register-space bytes of g_i; g0 reads zero (07:R90). -/
def Thread.raw (t : Thread) (i : Reg) : Word := if i = 0 then 0 else t.regs[i.toNat]'i.isLt
/-- The newest transient result for a name whose window covers the reader (07:R86). -/
def Thread.bypassed (t : Thread) (isVec : Bool) (idx : Nat) : Option (List Byte) :=
  (t.flow.bypass.find? (fun b => b.isVec == isVec && b.idx == idx)).map (·.bytes)
/-- `gr(i)` of R98. -/
def Thread.gr (t : Thread) (i : Reg) : Word :=
  if i = 0 then 0
  else match t.bypassed false i.toNat with
    | some bs => BitVec.ofNat 64 (leNat bs)
    | none => t.raw i
/-- Writes the register-space bytes of g_i; g0 discards (07:R90). -/
def Thread.setRaw (t : Thread) (i : Reg) (x : Word) : Thread :=
  if i = 0 then t else { t with regs := t.regs.set i.toNat x i.isLt }
/-- A fixed-latency write of g_i: it supersedes a transient result of the name and an outstanding result of the run
(03:R34, 07:R86). -/
def Thread.gw (t : Thread) (i : Reg) (x : Word) : Thread :=
  if i = 0 then t
  else
    let t := t.setRaw i x
    { t with flow := { t.flow with
        bypass := t.flow.bypass.filter (fun b => b.isVec || b.idx != i.toNat)
        outs := t.flow.outs.map (fun o => if o.g = i then { o with g := 0 } else o) } }
/-- `gw(i, x)` of R98: a transient result when the word's T is 1. -/
def Thread.deliver (t : Thread) (m : Mark) (i : Reg) (x : Word) : Thread :=
  if transientMark m then
    if i = 0 then t else { t with flow := { t.flow with bypass := ⟨false, i.toNat, leBytes 8 x.toNat, 4⟩ :: t.flow.bypass } }
  else t.gw i x
def State.gw (s : State) (i : Reg) (x : Word) : State := { s with th := s.th.gw i x }
def State.deliver (s : State) (m : Mark) (i : Reg) (x : Word) : State := { s with th := s.th.deliver m i x }
/-- ORs flags into TS.FX (05:R63). -/
def State.setfx (s : State) (f : Flags) : State := { s with th := { s.th with fx := s.th.fx ||| f } }

-- Views ---------------------------------------------------------------------------------------------------------------

def viewBase (v : Word) : Nat := bits v.toNat 15 0
def vCount (v : Word) : Nat := bits v.toNat 21 16
def aCount (v : Word) : Nat := bits v.toNat 18 16
def xCount (v : Word) : Nat := bits v.toNat 19 16
/-- Validity of a view register's value: `top` is the first reserved bit, `cmax` the largest CNT, `size` the bytes of one
element (07:R91). -/
def viewOk (top cmax size : Nat) (v : Word) (gran : Nat) : Bool :=
  let cnt := v.toNat / 65536
  v.toNat < 2 ^ top && cnt ≤ cmax &&
    (cnt == 0 || (viewBase v % 128 == 0 && 256 ≤ viewBase v && viewBase v + cnt * size ≤ gran * 1024))
def vvOk (v : Word) (gran : Nat) : Bool := viewOk 22 32 128 v gran
def vaOk (v : Word) (gran : Nat) : Bool := viewOk 19 4 4096 v gran
def vxOk (v : Word) (gran : Nat) : Bool := viewOk 20 8 1024 v gran
/-- `vo(i)` and `ao(i)` of R98; none where the view has no such element. -/
def Thread.vo (t : Thread) (i : Nat) : Option Nat := if i < vCount t.vv then some (viewBase t.vv + 128 * i) else none
def Thread.ao (t : Thread) (i : Nat) : Option Nat := if i < aCount t.va then some (viewBase t.va + 4096 * i) else none

/-- Window bytes; bytes 0 to 255 are the g registers (07:R90). -/
def Thread.winRead (t : Thread) (o n : Nat) : List Byte := readBytes t.win o n
/-- Bytes laid over a list at a position. -/
def overlay (old : List Byte) (at_ : Nat) : Nat → List Byte → List Byte
  | _, [] => old
  | k, b :: bs => overlay (old.set (at_ + k) b) at_ (k + 1) bs

/-- The accumulator that holds window offset `o`, with the row, among those of VIEW.A (07:R90, R93). -/
def Thread.accAt (t : Thread) (o : Nat) : Option (Nat × Nat) :=
  let b := viewBase t.va
  if b ≤ o ∧ o < b + 4096 * aCount t.va then some ((o - b) / 4096, (o - b) % 4096 / 128) else none
/-- The byte range meets accumulator bytes. -/
def Thread.meetsAcc (t : Thread) (o n : Nat) : Bool :=
  aCount t.va != 0 && o < viewBase t.va + 4096 * aCount t.va && viewBase t.va < o + n
/-- The accumulator rows that a range of bytes meets: place in the range, accumulator, row (07:R90). -/
def Thread.accRows (t : Thread) (o n : Nat) : List (Nat × Nat × Nat) :=
  (List.range ((n + 127) / 128)).filterMap (fun k => (t.accAt (o + 128 * k)).map (fun x => (128 * k, x.1, x.2)))
/-- MU.WM has passed a row (07:R93). -/
def Thread.rowPast (t : Thread) (r : Nat × Nat × Nat) : Bool := decide (r.2.2 < t.mu.wm.getD r.2.1 32)
/-- Every accumulator row of the range is final: MU.WM above it (07:R93). -/
def Thread.rowsFinal (t : Thread) (o n : Nat) : Bool := (t.accRows o n).all t.rowPast

/-- An operand of `bs` at window offset `o`, with its rows not yet final (07:R93); none of an operand from elsewhere, at 0. -/
def Thread.lateOp (t : Thread) (o : Nat) (bs : List Byte) : LateOp :=
  ⟨o, bs, if o = 0 then [] else (t.accRows o bs.length).filter (fun r => !t.rowPast r)⟩
/-- An awaited operand takes the bytes of the rows that are final by now (07:R93). -/
def LateOp.take (t : Thread) (x : LateOp) : LateOp :=
  ⟨x.off, (x.rows.filter t.rowPast).foldl (fun bs r => overlay bs r.1 0 (t.winRead (x.off + r.1) 128)) x.bytes,
    x.rows.filter (fun r => !t.rowPast r)⟩
/-- Reads of accumulator bytes still awaited take the bytes now, each where its rows are final (07:R93). -/
def Thread.capture (t : Thread) : Thread :=
  { t with flow := { t.flow with outs := t.flow.outs.map (fun x => match x.src with
      | .late i a b d => { x with src := .late i (a.take t) (b.take t) (d.take t) }
      | _ => x) } }
/-- A fixed-latency write of window bytes (03:R34, 07:R86, R93). -/
def Thread.winWrite (t : Thread) (o : Nat) (bs : List Byte) : Thread :=
  let t := t.capture
  let n := bs.length
  { t with
    win := writeBytes t.win o bs
    flow := { t.flow with
      bypass := t.flow.bypass.map (fun b =>
        if b.isVec then
          match t.vo b.idx with
          | some v => { b with bytes := (List.range 128).map (fun k =>
              if o ≤ v + k ∧ v + k < o + n then bs.getD (v + k - o) 0 else b.bytes.getD k 0) }
          | none => b
        else b)
      outs := t.flow.outs.map (fun x => { x with win := x.win.map (fun w => if o ≤ w ∧ w < o + n then 0 else w) }) } }
/-- The 128 bytes of v_i at offset `o`, a transient result of the name first (07:R86). -/
def Thread.vread (t : Thread) (i o : Nat) : List Byte := (t.bypassed true i).getD (t.winRead o 128)
/-- The result of a register vector form: into the bypass when T is 1, else into the window (07:R86). -/
def Thread.vdeliver (t : Thread) (m : Mark) (i o : Nat) (bs : List Byte) : Thread :=
  if transientMark m then { t with flow := { t.flow with bypass := ⟨true, i, bs, 4⟩ :: t.flow.bypass } }
  else t.winWrite o bs

-- Guards --------------------------------------------------------------------------------------------------------------

/-- `gst(i)` of R98. -/
def Thread.gst (t : Thread) (i : Nat) : Guard := if i = 0 then .tru else t.guards.getD (i - 1) .fls
/-- Writes guard i; a result for q0 is discarded (07:R94). -/
def Thread.setGuard (t : Thread) (i : Nat) (g : Guard) : Thread :=
  if i = 0 then t else { t with guards := t.guards.set (i - 1) g }
def guardOf (b : Bool) : Guard := if b then .tru else .fls
/-- A condition guard as queued work names it: 0 true, 8 false; 8 is added to one named inside a gate call, whose guards are the callee's
(15:R211; log 27). -/
def Thread.condTag (t : Thread) (q : Nat) : Nat := if q = 0 ∨ t.caller.isNone then q else q + 8
/-- A result guard as work under way names it. -/
def Thread.resultTag (t : Thread) (q : Nat) : Nat := if t.caller.isNone then q else q + 8
/-- The value of a condition guard so named: one of a call that has ended is false. -/
def Thread.cond (t : Thread) (k : Nat) : Guard :=
  if k = 0 then .tru
  else match t.caller with
    | none => if k < 8 then t.gst k else .fls
    | some c => if k < 8 then c.guards.getD (k - 1) .fls else if k = 8 then .fls else t.gst (k - 8)
/-- A result guard so named resolves: the caller's while its call is open. -/
def Thread.resolve (t : Thread) (k : Nat) (g : Guard) : Thread := match t.caller with
  | none => if k < 8 then t.setGuard k g else t
  | some c => if k = 0 then t else if k < 8 then { t with caller := some { c with guards := c.guards.set (k - 1) g } } else t.setGuard (k - 8) g
/-- Flags that come with such a result. -/
def Thread.orFlags (t : Thread) (k : Nat) (f : Flags) : Thread := match t.caller with
  | none => if k < 8 then { t with fx := t.fx ||| f } else t
  | some c => if k < 8 then { t with caller := some { c with fx := c.fx ||| f } } else { t with fx := t.fx ||| f }
/-- What a condition guard has resolved to, kept with the work it holds: 0 true, 8 false (07:R94). -/
def Thread.noted (t : Thread) (k : Nat) : Nat :=
  if k = 0 ∨ k = 8 then k else match t.cond k with | .pend => k | .tru => 0 | .fls => 8

-- Hint groups ---------------------------------------------------------------------------------------------------------

/-- Hints of the open group (07:R80). -/
def Thread.hints (t : Thread) : List Instr := match t.flow.group with
  | some g => g.hints
  | none => []
/-- Address of the group's first hint, or the instruction's own (07:R84). -/
def Thread.groupStart (t : Thread) : Word := match t.flow.group with
  | some g => g.start
  | none => t.pc
/-- `wimm(w, n)` of R81: the widened field and its width. -/
def Thread.wimm (t : Thread) (x n : Nat) : Nat × Nat :=
  t.hints.reverse.foldl (fun (a : Nat × Nat) h => match h with
    | .himm _ i => (i.toNat * 2 ^ a.2 + a.1, a.2 + 21)
    | _ => a) (x, n)
/-- The widened field sign-extended to 64 bits. -/
def Thread.simm (t : Thread) (x n : Nat) : Word :=
  let r := t.wimm x n
  BitVec.ofNat 64 (sextN r.2 64 r.1)
/-- The widened field zero-extended. -/
def Thread.uimm (t : Thread) (x n : Nat) : Nat := (t.wimm x n).1
/-- IRR, EFE, EF and CP of the group's HMOD (07:R82). -/
def Thread.hmod (t : Thread) : Nat × Nat × Nat × Nat :=
  match t.hints.find? (fun h => match h with | .hmod .. => true | _ => false) with
  | some (.hmod _ r e f c) => (r.toNat, e.toNat, f.toNat, c.toNat)
  | _ => (0, 0, 0, 0)
def Thread.irr (t : Thread) : Bool := t.hmod.1 == 1
def Thread.cp (t : Thread) : Nat := t.hmod.2.2.2
/-- The element format a load decodes with: the HMOD's, else the page's (09:R127). -/
def Thread.loadEf (t : Thread) (page : Nat) : Nat := if t.hmod.2.1 = 1 then t.hmod.2.2.1 else page

-- Sizes, loops, branch targets ----------------------------------------------------------------------------------------

/-- Bytes and sign extension of an sz code (07:R75). -/
def szBytes (z : BitVec 3) : Nat := 2 ^ (z.toNat % 4)
def szSigned (z : BitVec 3) : Bool := 4 ≤ z.toNat
/-- Scalar bytes extended by sz, or decoded by an element format (09:R127). -/
def scalarValue (sz ef : Nat) (bs : List Byte) : Word :=
  let n := 2 ^ (sz % 4)
  let f := efOf ef
  let x := leNat bs
  if f.bytes = n then
    match f with
    | .int _ => BitVec.ofNat 64 (f.decode 64 x)
    | _ => BitVec.ofNat 64 (f.decode 32 x)
  else if 4 ≤ sz then BitVec.ofNat 64 (sextN (8 * n) 64 x) else BitVec.ofNat 64 x

/-- The 128 bytes a vector load delivers from `n` elements of `w` bytes as read (11:R136-R137). -/
def vectorBytes (w n ef : Nat) (dec : Bool) (bs : List Byte) : List Byte :=
  if dec then (List.range n).flatMap (fun e => leBytes 4 ((efOf ef).decode 32 (lane bs w e)))
  else bs ++ List.replicate (128 - bs.length) 0

/-- First and last body word of LP0 and LP1 (03:R27). -/
def Thread.loop0 (t : Thread) : Nat × Nat := (t.lps.toNat, (t.lps.toNat + 4 * t.lp0.len) % 2 ^ 64)
def Thread.loop1 (t : Thread) : Nat × Nat :=
  let st := (t.lps.toNat + 4 * t.lp1.off) % 2 ^ 64
  (st, (st + 4 * t.lp1.len) % 2 ^ 64)
/-- An instruction of an active body may not name the count register for a long-latency result (09:R118). -/
def Thread.countsBy (t : Thread) (g : Reg) : Bool :=
  g != 0 && ((t.lp0.act && t.lp0.creg == g && t.loop0.1 ≤ t.pc.toNat && t.pc.toNat ≤ t.loop0.2) ||
    (t.lp1.act && t.lp1.creg == g && t.loop1.1 ≤ t.pc.toNat && t.pc.toNat ≤ t.loop1.2))
/-- `btgt(w, off)` of R98. -/
def Thread.btgt (t : Thread) (o : BitVec 16) : Word := t.pc + 4 * t.simm o.toNat 16

-- Global tile addresses -----------------------------------------------------------------------------------------------

/-- KIND of an endpoint table entry and the package it names (29:R332): the executing package by its number (17:R224). -/
def State.ept (s : State) (f p : Nat) : Nat × Nat :=
  if p = s.pl.pkg then (1, s.me)
  else match s.pl.ept.find? (fun e => e.1 == f * 16 + p) with
    | some (_, w, _) => (bits w.toNat 63 62, bits w.toNat 61 58)
    | none => (0, p)
/-- The Berven package a function's coordinate names; none for KIND 10 and 11 (29:R332). -/
def State.eptPackage (s : State) (f p : Nat) : Option Nat :=
  match s.ept f p with
  | (0, b) => some b
  | (1, b) => some b
  | _ => none
/-- Translation function of a context: H translates through TCR[0] (17:R227). -/
def Thread.fn (t : Thread) : Nat := if t.priv = .h then 0 else t.dom
/-- `gtb(p)` of R227. -/
def State.gtb (s : State) (fn p : Nat) : Nat := ((lookupD s.st.tcrs fn ⟨0, 0, []⟩).gtv.toNat + p * 0x100000000) % 2 ^ 64

-- Forms ---------------------------------------------------------------------------------------------------------------

/-- What the rules of groups, chains, packets and privilege read of a form (07:R81-R87, 13:R181, 15:R203). -/
structure Form where
  major : Nat
  himm : Bool := false
  irr : Bool := false
  efe : Bool := false
  cp : Bool := false
  priv : Priv := .u
  flush : Bool := false   -- a suspension point or a leaving form: earlier results are written first (03:R35)
  store : Bool := false   -- refused inside a chain (07:R87)

/-- The form of an instruction; a step without an encoding has major 0x80. -/
def formOf (i : Instr) : Form :=
  match i with
  | .add _ _ _ _ _ => { major := 0x0 }
  | .sub _ _ _ _ _ => { major := 0x0 }
  | .mul _ _ _ _ _ => { major := 0x0 }
  | .mulh _ _ _ _ => { major := 0x0 }
  | .mulhn _ _ _ _ => { major := 0x0 }
  | .div _ _ _ _ => { major := 0x0 }
  | .divn _ _ _ _ => { major := 0x0 }
  | .rem _ _ _ _ => { major := 0x0 }
  | .remn _ _ _ _ => { major := 0x0 }
  | .min _ _ _ _ => { major := 0x0 }
  | .max _ _ _ _ => { major := 0x0 }
  | .minn _ _ _ _ => { major := 0x0 }
  | .maxn _ _ _ _ => { major := 0x0 }
  | .and _ _ _ _ => { major := 0x1 }
  | .or _ _ _ _ => { major := 0x1 }
  | .xor _ _ _ _ => { major := 0x1 }
  | .andn _ _ _ _ => { major := 0x1 }
  | .shl _ _ _ _ _ => { major := 0x1 }
  | .shr _ _ _ _ _ => { major := 0x1 }
  | .sra _ _ _ _ _ => { major := 0x1 }
  | .rol _ _ _ _ _ => { major := 0x1 }
  | .clz _ _ _ _ => { major := 0x1 }
  | .ctz _ _ _ _ => { major := 0x1 }
  | .popc _ _ _ _ => { major := 0x1 }
  | .sel _ _ _ _ => { major := 0x1 }
  | .cmp _ _ _ _ _ => { major := 0x1 }
  | .sext _ _ _ _ => { major := 0x1 }
  | .zext _ _ _ _ => { major := 0x1 }
  | .bfx _ _ _ _ _ => { major := 0x1 }
  | .bfi _ _ _ _ => { major := 0x2 }
  | .addi _ _ _ _ => { major := 0x10, himm := true }
  | .andi _ _ _ _ => { major := 0x11, himm := true }
  | .ori _ _ _ _ => { major := 0x12, himm := true }
  | .xori _ _ _ _ => { major := 0x13, himm := true }
  | .shli _ _ _ _ _ => { major := 0x14 }
  | .shri _ _ _ _ _ => { major := 0x15 }
  | .srai _ _ _ _ _ => { major := 0x16 }
  | .cmpi _ _ _ _ => { major := 0x17, himm := true }
  | .li _ _ _ => { major := 0x18, himm := true }
  | .lih _ _ _ => { major := 0x19 }
  | .gadr _ _ _ _ => { major := 0x1a, himm := true }
  | .ladr _ _ _ _ => { major := 0x1b, himm := true }
  | .br _ _ _ => { major := 0x20, himm := true }
  | .bc _ _ _ _ => { major := 0x21, himm := true }
  | .bcZ _ _ _ _ => { major := 0x22, himm := true }
  | .bg _ _ _ _ => { major := 0x23, himm := true }
  | .bgF _ _ _ _ => { major := 0x24, himm := true }
  | .call _ _ _ => { major := 0x25, himm := true }
  | .callr _ _ _ => { major := 0x26 }
  | .ret _ _ => { major := 0x27 }
  | .jmpr _ _ => { major := 0x28 }
  | .jtab _ _ _ _ => { major := 0x29, himm := true }
  | .loop _ _ _ => { major := 0x2a }
  | .lexit _ => { major := 0x2b }
  | .yield _ => { major := 0x2c, flush := true }
  | .spawn _ _ _ _ _ => { major := 0x2d }
  | .exit _ => { major := 0x2e, flush := true }
  | .ld _ _ _ _ _ => { major := 0x30, himm := true, efe := true, cp := true }
  | .st _ _ _ _ _ => { major := 0x31, himm := true, irr := true, cp := true, store := true }
  | .ldl _ _ _ _ _ => { major := 0x32, himm := true, efe := true, cp := true }
  | .stl _ _ _ _ _ => { major := 0x33, himm := true, cp := true, store := true }
  | .ldx _ _ _ _ _ => { major := 0x34, efe := true, cp := true }
  | .stx _ _ _ _ _ => { major := 0x35, irr := true, cp := true, store := true }
  | .lda _ _ _ _ _ _ => { major := 0x36, himm := true, cp := true }
  | .strel _ _ _ _ _ _ => { major := 0x37, himm := true, irr := true, cp := true, store := true }
  | .bmov _ _ _ _ => { major := 0x38, cp := true, store := true }
  | .bfill _ _ _ _ => { major := 0x39, cp := true, store := true }
  | .vld _ _ _ _ _ => { major := 0x40, efe := true, cp := true }
  | .vst _ _ _ _ _ => { major := 0x40, cp := true, store := true }
  | .vlds _ _ _ _ _ _ => { major := 0x40, efe := true, cp := true }
  | .vsts _ _ _ _ _ _ => { major := 0x40, cp := true, store := true }
  | .vgth _ _ _ _ _ _ => { major := 0x40, efe := true, cp := true }
  | .vsct _ _ _ _ _ _ => { major := 0x40, cp := true, store := true }
  | .vbcst _ _ _ _ => { major := 0x40 }
  | .vext _ _ _ _ _ => { major := 0x40 }
  | .vadd _ _ _ _ _ => { major := 0x41 }
  | .vsub _ _ _ _ _ => { major := 0x41 }
  | .vmul _ _ _ _ _ => { major := 0x41 }
  | .vmad _ _ _ _ _ => { major := 0x41 }
  | .vmin _ _ _ _ _ => { major := 0x41 }
  | .vmax _ _ _ _ _ => { major := 0x41 }
  | .vabs _ _ _ _ => { major := 0x41 }
  | .vneg _ _ _ _ => { major := 0x41 }
  | .vand _ _ _ _ => { major := 0x42 }
  | .vor _ _ _ _ => { major := 0x42 }
  | .vxor _ _ _ _ => { major := 0x42 }
  | .vshl _ _ _ _ _ => { major := 0x42 }
  | .vshr _ _ _ _ _ => { major := 0x42 }
  | .vsra _ _ _ _ _ => { major := 0x42 }
  | .vcmp _ _ _ _ _ => { major := 0x42 }
  | .vsel _ _ _ _ => { major := 0x42 }
  | .vperm _ _ _ _ _ => { major := 0x43 }
  | .vins _ _ _ _ _ => { major := 0x43 }
  | .vred _ _ _ _ _ => { major := 0x43 }
  | .vfadd _ _ _ _ _ => { major := 0x43 }
  | .vfsub _ _ _ _ _ => { major := 0x43 }
  | .vfmul _ _ _ _ _ => { major := 0x43 }
  | .vfma _ _ _ _ _ => { major := 0x43 }
  | .vfmin _ _ _ _ _ => { major := 0x43 }
  | .vfmax _ _ _ _ _ => { major := 0x44 }
  | .vrcp _ _ _ _ => { major := 0x44 }
  | .vrsq _ _ _ _ => { major := 0x44 }
  | .vcvt _ _ _ _ _ => { major := 0x44 }
  | .vpack _ _ _ _ _ => { major := 0x44 }
  | .vunpk _ _ _ _ _ => { major := 0x44 }
  | .vscl _ _ _ _ _ => { major := 0x44 }
  | .mma _ _ _ _ _ _ => { major := 0x50 }
  | .mmar _ _ _ _ _ _ => { major := 0x51 }
  | .mzero _ _ _ => { major := 0x52 }
  | .mwait _ _ => { major := 0x52, flush := true }
  | .mwm _ _ _ => { major := 0x52 }
  | .mpln _ _ _ _ => { major := 0x52 }
  | .mscl _ _ _ _ _ => { major := 0x52 }
  | .scalemc _ _ _ _ _ => { major := 0x52 }
  | .acvt _ _ _ _ _ => { major := 0x52 }
  | .msave _ _ _ => { major := 0x52, flush := true }
  | .mrest _ _ _ => { major := 0x53, flush := true }
  | .capmint _ _ _ => { major := 0x53, priv := .s }
  | .aadd _ _ _ _ _ _ _ => { major := 0x58, cp := true }
  | .aand _ _ _ _ _ _ _ => { major := 0x59, cp := true }
  | .aor _ _ _ _ _ _ _ => { major := 0x59, cp := true }
  | .axor _ _ _ _ _ _ _ => { major := 0x5a, cp := true }
  | .aswp _ _ _ _ _ _ _ => { major := 0x5a, cp := true }
  | .amin _ _ _ _ _ _ _ _ => { major := 0x5b, cp := true }
  | .amax _ _ _ _ _ _ _ _ => { major := 0x5c, cp := true }
  | .acas _ _ _ _ _ _ _ => { major := 0x5d, cp := true }
  | .afadd _ _ _ _ _ _ => { major := 0x5e, cp := true }
  | .fst _ _ _ _ _ => { major := 0x5f, irr := true, cp := true }
  | .fblk _ _ _ _ => { major := 0x5f, irr := true, cp := true }
  | .fence _ _ _ => { major := 0x5f }
  | .lbfence _ => { major := 0x5f }
  | .sync _ _ _ _ => { major := 0x60, flush := true }
  | .gbar _ => { major := 0x60, flush := true }
  | .waita _ _ _ _ => { major := 0x60, flush := true }
  | .wake _ _ => { major := 0x60 }
  | .send _ _ _ => { major := 0x60 }
  | .sende _ _ _ _ => { major := 0x60 }
  | .recv _ _ _ _ => { major := 0x60 }
  | .exch _ => { major := 0x60 }
  | .sign _ _ => { major := 0x61 }
  | .dissolve _ => { major := 0x61 }
  | .gset _ _ _ => { major := 0x61 }
  | .gwait _ _ => { major := 0x61, flush := true }
  | .seal _ => { major := 0x61, flush := true }
  | .sealw _ _ => { major := 0x61 }
  | .job _ _ _ _ => { major := 0x62 }
  | .jobw _ _ => { major := 0x62, flush := true }
  | .jobq _ _ _ => { major := 0x62 }
  | .jobx _ _ => { major := 0x62 }
  | .wbind _ _ _ => { major := 0x62 }
  | .wdrop _ _ => { major := 0x62 }
  | .wstat _ _ _ => { major := 0x62 }
  | .coll _ _ _ _ => { major := 0x62 }
  | .task _ _ _ => { major := 0x63 }
  | .tdone _ => { major := 0x63 }
  | .discard _ _ _ => { major := 0x63 }
  | .cwb _ _ _ => { major := 0x63 }
  | .cinv _ _ _ => { major := 0x63 }
  | .trap _ _ => { major := 0x68 }
  | .svc _ _ => { major := 0x68 }
  | .eret _ => { major := 0x68, priv := .s }
  | .gate _ _ => { major := 0x68, flush := true }
  | .gret _ => { major := 0x68 }
  | .ctxsv _ _ _ => { major := 0x68, priv := .s }
  | .ctxld _ _ _ => { major := 0x68, priv := .s }
  | .tlbiPage _ _ => { major := 0x68, priv := .s }
  | .tlbiPart _ _ => { major := 0x68, priv := .s }
  | .tlbiAll _ => { major := 0x68, priv := .h }
  | .halt _ => { major := 0x68, priv := .h }
  | .wdog _ _ _ => { major := 0x68, priv := .s }
  | .kill _ _ => { major := 0x68, priv := .s }
  | .killDom _ _ => { major := 0x68, priv := .h }
  | .pcfgSplit _ _ _ _ => { major := 0x68, priv := .h }
  | .pcfgMerge _ _ _ _ => { major := 0x68, priv := .h }
  | .pcfgCreate _ _ _ _ => { major := 0x68, priv := .h }
  | .pcfgDestroy _ _ _ _ => { major := 0x68, priv := .h }
  | .pcfgBind _ _ _ _ => { major := 0x68, priv := .h }
  | .pcfgUnbind _ _ _ _ => { major := 0x68, priv := .h }
  | .vfcfg _ _ _ _ => { major := 0x68, priv := .h }
  | .domcfgWrite _ _ _ _ => { major := 0x68, priv := .h }
  | .domcfgAdjust _ _ _ _ => { major := 0x68, priv := .h }
  | .domcfgClear _ _ _ _ => { major := 0x68, priv := .h }
  | .l2msk _ _ _ => { major := 0x68, priv := .h }
  | .clkj _ _ _ => { major := 0x68, priv := .h }
  | .clkl _ _ => { major := 0x69, priv := .h }
  | .memblkOffer _ _ _ _ => { major := 0x69, priv := .h }
  | .memblkQuery _ _ _ _ => { major := 0x69, priv := .h }
  | .memblkCancel _ _ _ _ => { major := 0x69, priv := .h }
  | .mfs _ _ _ => { major := 0x6a }
  | .mts _ _ _ => { major := 0x6b }
  | .himm _ _ => { major := 0x70 }
  | .hmod _ _ _ _ _ => { major := 0x71 }
  | .hsched _ _ _ => { major := 0x72 }
  | .recordClaim _ => { major := 0x80 }
  | .leaveSlot _ => { major := 0x80 }
  | .preemption _ => { major := 0x80 }
  | .slotWatchdogExpiry _ => { major := 0x80 }
  | .packetAbort _ => { major := 0x80 }
  | .parkComplete _ => { major := 0x80 }
  | .asyncCause _ => { major := 0x80 }
  | .storeAck _ _ => { major := 0x80 }
  | .remoteRequest _ _ _ _ _ _ => { major := 0x80 }
  | .directoryRequest _ _ _ _ => { major := 0x80 }
  | .larderRoom _ => { major := 0x80 }
  | .waitaSuspend _ => { major := 0x80 }
  | .pageWalk _ _ _ => { major := 0x80 }
  | .compactBoundary _ _ => { major := 0x80 }
  | .compactResume _ => { major := 0x80 }
  | .dissolveAllArrived _ => { major := 0x80 }
  | .exchangeWrite _ _ _ _ _ => { major := 0x80 }
  | .xtimeout _ => { major := 0x80 }
  | .matrixAccept _ => { major := 0x80 }
  | .takeScale _ => { major := 0x80 }
  | .matrixCommandComplete _ => { major := 0x80 }
  | .mmarReceive _ => { major := 0x80 }
  | .mmarStatus _ => { major := 0x80 }
  | .scaleMessage _ => { major := 0x80 }
  | .acvtRemote _ => { major := 0x80 }
  | .acvtReply _ => { major := 0x80 }
  | .packetAccept _ _ => { major := 0x80 }
  | .copyEngineAccept _ => { major := 0x80 }
  | .jobStart _ => { major := 0x80 }
  | .completionAction _ => { major := 0x80 }
  | .taskDispatch _ => { major := 0x80 }
  | .windowFillEnd _ _ => { major := 0x80 }
  | .prepare _ => { major := 0x80 }
  | .prepared _ _ => { major := 0x80 }
  | .commit _ => { major := 0x80 }
  | .commitAck _ _ => { major := 0x80 }
  | .sealed _ => { major := 0x80 }
  | .sealTimeout _ => { major := 0x80 }
  | .rollback _ _ _ _ => { major := 0x80 }
  | .replay _ => { major := 0x80 }
  | .hang _ _ => { major := 0x80 }
  | .vcpNotify _ _ => { major := 0x80 }
  | .queuePass _ _ => { major := 0x80 }
  | .nop _ _ => { major := 0x80 }
  | .launch _ _ => { major := 0x80 }
  | .claunch _ _ => { major := 0x80 }
  | .qfence _ _ => { major := 0x80 }
  | .signal _ _ => { major := 0x80 }
  | .wait _ _ => { major := 0x80 }
  | .launchComplete _ _ => { major := 0x80 }
  | .budgetPeriod => { major := 0x80 }
  | .sliceChange _ => { major := 0x80 }
  | .bownWrite _ _ => { major := 0x80 }
  | .mbackAck _ _ => { major := 0x80 }
  | .moveDeadline _ => { major := 0x80 }
  | .scrubDone _ => { major := 0x80 }
  | .flr _ => { major := 0x80 }
  | .flitReceive _ _ _ _ _ _ => { major := 0x80 }
  | .flitLost _ => { major := 0x80 }
  | .heartbeat => { major := 0x80 }
  | .packageDead _ => { major := 0x80 }
  | .bfEnable => { major := 0x80 }
  | .bfLeave => { major := 0x80 }
  | .linkTraining _ _ => { major := 0x80 }
  | .eptWrite _ _ _ _ => { major := 0x80 }
  | .uetConnectionFailed _ => { major := 0x80 }
  | .clockTick => { major := 0x80 }
  | .clockAnnouncement _ _ => { major := 0x80 }
  | .clockHeartbeat => { major := 0x80 }
  | .clockSilent _ => { major := 0x80 }
  | .silentRemoval _ => { major := 0x80 }
  | .clockJoinTimeout _ => { major := 0x80 }
  | .hceilWrite _ => { major := 0x80 }
  | .ckEvict _ => { major := 0x80 }
  | .thermalTrip => { major := 0x80 }
  | .overheat _ => { major := 0x80 }
  | .coldReset => { major := 0x80 }
  | .firmwareUpdate _ _ _ => { major := 0x80 }
  | .getMeasurements _ => { major := 0x80 }
  | .pwRun => { major := 0x80 }
  | .pwHold => { major := 0x80 }
  | .pwLow => { major := 0x80 }
  | .powerStateReached => { major := 0x80 }
  | .spTret _ => { major := 0x80 }
  | .rowSpare _ => { major := 0x80 }
  | .unsupportedRequest _ => { major := 0x80 }
  | .gangBarrierComplete _ _ => { major := 0x80 }
  | .registerWrite _ _ _ => { major := 0x80 }
  | .illegalEncoding _ => { major := 0x80 }
  | .instructionFetchFault _ => { major := 0x80 }
  | .globalTileSpaceRequest _ _ _ _ _ => { major := 0x80 }
  | .sendeAcknowledgement _ => { major := 0x80 }
  | .scalemcAcknowledgement _ => { major := 0x80 }
  | .laneTest _ _ _ => { major := 0x80 }
  | .laneSparingComplete _ => { major := 0x80 }
  | .tdispRequest _ _ => { major := 0x80 }
  | .ideKmRequest _ _ => { major := 0x80 }
  | .configurationRequest _ _ _ _ => { major := 0x80 }

/-- g registers a form reads and writes at fixed latency, or names as a load destination; v registers likewise (07:R87). Only the
forms that may stand in a transient chain are listed. -/
def regsOf (i : Instr) : List Reg × List Reg × List Reg × List Reg :=
  match i with
  | .add _ d a b _ => ([a, b], [d], [], [])
  | .sub _ d a b _ => ([a, b], [d], [], [])
  | .mul _ d a b _ => ([a, b], [d], [], [])
  | .mulh _ d a b => ([a, b], [d], [], [])
  | .mulhn _ d a b => ([a, b], [d], [], [])
  | .div _ d a b => ([a, b], [d], [], [])
  | .divn _ d a b => ([a, b], [d], [], [])
  | .rem _ d a b => ([a, b], [d], [], [])
  | .remn _ d a b => ([a, b], [d], [], [])
  | .min _ d a b => ([a, b], [d], [], [])
  | .max _ d a b => ([a, b], [d], [], [])
  | .minn _ d a b => ([a, b], [d], [], [])
  | .maxn _ d a b => ([a, b], [d], [], [])
  | .and _ d a b => ([a, b], [d], [], [])
  | .or _ d a b => ([a, b], [d], [], [])
  | .xor _ d a b => ([a, b], [d], [], [])
  | .andn _ d a b => ([a, b], [d], [], [])
  | .shl _ d a b _ => ([a, b], [d], [], [])
  | .shr _ d a b _ => ([a, b], [d], [], [])
  | .sra _ d a b _ => ([a, b], [d], [], [])
  | .rol _ d a b _ => ([a, b], [d], [], [])
  | .clz _ d a _ => ([a], [d], [], [])
  | .ctz _ d a _ => ([a], [d], [], [])
  | .popc _ d a _ => ([a], [d], [], [])
  | .sel _ d a b => ([d, a, b], [d], [], [])
  | .cmp _ d a b _ => ([a, b], [d], [], [])
  | .sext _ d a _ => ([a], [d], [], [])
  | .zext _ d a _ => ([a], [d], [], [])
  | .bfx _ d a b _ => ([a, b], [d], [], [])
  | .bfi _ d a b => ([d, a, b], [d], [], [])
  | .addi _ d a _ => ([a], [d], [], [])
  | .andi _ d a _ => ([a], [d], [], [])
  | .ori _ d a _ => ([a], [d], [], [])
  | .xori _ d a _ => ([a], [d], [], [])
  | .shli _ d a _ _ => ([a], [d], [], [])
  | .shri _ d a _ _ => ([a], [d], [], [])
  | .srai _ d a _ _ => ([a], [d], [], [])
  | .cmpi _ d a _ => ([a], [d], [], [])
  | .li _ d _ => ([], [d], [], [])
  | .lih _ d _ => ([d], [d], [], [])
  | .gadr _ d a _ => ([a], [d], [], [])
  | .ladr _ d a _ => ([a], [d], [], [])
  | .bc _ _ c _ => ([c.setWidth 5], [], [], [])
  | .bcZ _ _ c _ => ([c.setWidth 5], [], [], [])
  | .call _ _ _ => ([], [31], [], [])
  | .callr _ d a => ([a], [d], [], [])
  | .ret _ a => ([a], [], [], [])
  | .jmpr _ a => ([a], [], [], [])
  | .jtab _ d a _ => ([d, a], [], [], [])
  | .ld _ d b _ _ => ([b], [d], [], [])
  | .ldl _ d b _ _ => ([b], [d], [], [])
  | .ldx _ d b _ i => ([b, i], [d], [], [])
  | .lda _ d b _ _ _ => ([b], [d], [], [])
  | .vld _ d a b _ => ([a, b], [], [], [d])
  | .vlds _ d a b _ _ => ([a, b], [], [], [d])
  | .vgth _ d a b _ _ => ([a], [], [b], [d])
  | .vbcst _ d a _ => ([a], [], [], [d])
  | .vext _ d a b _ => ([b], [d], [a], [])
  | .vadd _ d a b _ => ([], [], [a, b], [d])
  | .vsub _ d a b _ => ([], [], [a, b], [d])
  | .vmul _ d a b _ => ([], [], [a, b], [d])
  | .vmad _ d a b _ => ([], [], [d, a, b], [d])
  | .vmin _ d a b _ => ([], [], [a, b], [d])
  | .vmax _ d a b _ => ([], [], [a, b], [d])
  | .vabs _ d a _ => ([], [], [a], [d])
  | .vneg _ d a _ => ([], [], [a], [d])
  | .vand _ d a b => ([], [], [a, b], [d])
  | .vor _ d a b => ([], [], [a, b], [d])
  | .vxor _ d a b => ([], [], [a, b], [d])
  | .vshl _ d a b _ => ([], [], [a, b], [d])
  | .vshr _ d a b _ => ([], [], [a, b], [d])
  | .vsra _ d a b _ => ([], [], [a, b], [d])
  | .vcmp _ d a _ _ => ([], [], [d, a], [d])
  | .vsel _ d a b => ([], [], [d, a, b], [d])
  | .vperm _ d a b _ => ([], [], [a, b], [d])
  | .vins _ d a b _ => ([a, b], [], [d], [d])
  | .vred _ d a _ _ => ([], [], [a], [d])
  | .vfadd _ d a b _ => ([], [], [a, b], [d])
  | .vfsub _ d a b _ => ([], [], [a, b], [d])
  | .vfmul _ d a b _ => ([], [], [a, b], [d])
  | .vfma _ d a b _ => ([], [], [d, a, b], [d])
  | .vfmin _ d a b _ => ([], [], [a, b], [d])
  | .vfmax _ d a b _ => ([], [], [a, b], [d])
  | .vrcp _ d a _ => ([], [], [a], [d])
  | .vrsq _ d a _ => ([], [], [a], [d])
  | .vcvt _ d a _ _ => ([], [], [a], [d])
  | .vpack _ d a b _ => ([], [], [a, b], [d])
  | .vunpk _ d a _ _ => ([], [], [a], [d])
  | .vscl _ d a _ _ => ([], [], [a], [d])
  | _ => ([], [], [], [])

/-- Vector registers and accumulators that the forms named nowhere in `regsOf` name through the views (07:R79 step 7). -/
def viewNames (i : Instr) : List Nat × List Nat :=
  match i with
  | .vst _ d _ _ _ => ([d.toNat], [])
  | .vsts _ d _ _ _ _ => ([d.toNat], [])
  | .vsct _ d _ b _ _ => ([d.toNat, b.toNat], [])
  | .mma _ _ _ _ c _ => ([], [c.toNat])
  | .mzero _ _ a => ([], [a.toNat])
  | .mscl _ _ _ _ c => ([], [c.toNat])
  | .mwm _ _ b => ([], [b.toNat])
  | .msave _ _ b => ([], [b.toNat])
  | .mrest _ _ b => ([], [b.toNat])
  | _ => ([], [])
/-- A register that the instruction names does not exist in the current views: the last of the decoder's checks (07:R79). -/
def Thread.viewsLack (t : Thread) (i : Instr) : Bool :=
  ((regsOf i).2.2.1 ++ (regsOf i).2.2.2).any (fun v => (t.vo v.toNat).isNone) ||
    (viewNames i).1.any (fun v => (t.vo v).isNone) || (viewNames i).2.any (fun a => (t.ao a).isNone)

/-- Window byte ranges of named registers under the views in force. -/
def Thread.ranges (t : Thread) (gs vs : List Reg) : List (Nat × Nat) :=
  (gs.filter (· != 0)).map (fun g => (8 * g.toNat, 8)) ++
    vs.filterMap (fun v => (t.vo v.toNat).map (fun o => (o, 128)))
/-- Two lists of byte ranges meet. -/
def rangesMeet (x y : List (Nat × Nat)) : Bool :=
  x.any (fun p => y.any (fun q => p.1 < q.1 + q.2 && q.1 < p.1 + p.2))

/-- Bits [30:28] of a word that carries them (07:R72). -/
def instrMark (i : Instr) : Mark :=
  match encode i with
  | some w => markOf w
  | none => ⟨false, false, false⟩

end Sys2Proof.Machine
end

