-- ==== Sys2Proof/Machine/Registers.lean ====
section
/-! DEFINITION. Device MMIO registers and VCP pages as they read, and the composition of a write (15:R222, 17:R224, R227, R241,
R348, 21:R264, 23:R278, 25:R297-R299, R309, 29:R321-R334, 31:R343-R347). Offsets are MMIO offsets; 0x1_0000_0000 + 0x1000 f + o
names offset o of the VCP page of function f (log 13). -/

namespace Sys2Proof.Machine
open Sys2Proof

/-- Fields laid side by side: value and low bit. -/
def pack (fs : List (Nat × Nat)) : Word := BitVec.ofNat 64 ((fs.map (fun p => p.1 * 2 ^ p.2)).sum)
def b2n (b : Bool) : Nat := if b then 1 else 0

/-- Bytes held in the larders of this package for a partition (21:R264 LHELD). -/
def State.lheld (s : State) (n : Nat) : Nat := ((s.ms.larder.filter (·.node == n)).map (·.data.length)).sum
def State.isPart (s : State) (n : Nat) : Bool := s.st.parts.contains n
/-- CCAP follows the cellar blocks held, but changes only while CUSE is 0 (25:R297, 21:R264). -/
def State.countCellar (s : State) (n : Nat) : State :=
  if s.isPart n ∧ (s.rgs n).cuse = 0 then s.setRgs n { s.rgs n with
    ccap := 2 ^ 23 * ((List.range 288).filter (fun b => s.blockKind b == 2 && s.blockNode b == n)).length } else s

/-- Word `w` of RGS[n] (21:R264). -/
def State.rgsWord (s : State) (n w : Nat) : Word :=
  let g := s.rgs n
  if !s.isPart n then 0
  else match w with
    | 0 => pack [(g.gid, 32), (g.rin, 0)]
    | 1 => pack [(g.ccap, 32), (g.cuse, 0)]
    | 2 => pack [(s.lheld n, 32), (g.rolls, 0)]
    | 3 => pack [(b2n g.req, 7), (b2n g.forced, 6), (b2n g.sealing, 5), (b2n g.roll.isSome, 4), (b2n g.cmt, 3)]
    | 4 => g.logb
    | 5 => BitVec.ofNat 64 g.logn
    | 6 => g.logw
    | _ => 0

/-- BOWN[b] (25:R297). -/
def State.bownWord (s : State) (b : Nat) : Word :=
  pack [((s.move b).state, 12), (s.blockKind b, 10), (s.blockNode b, 0)]

/-- The move of block `b` awaits function `f` (25:R299). -/
def State.awaits (s : State) (f b : Nat) : Bool :=
  match s.nodeOf f with
  | none => false
  | some n => ((s.move b).state == 1 && s.blockNode b == n) || ((s.move b).state == 3 && (s.move b).gain == n)
/-- MBACK[f]: the lowest-numbered block that awaits f (25:R299). -/
def State.mbackWord (s : State) (f : Nat) : Word :=
  match (List.range 288).find? (s.awaits f) with
  | some b => pack [((s.move b).state, 16), (b, 0)]
  | none => 0

/-- Failed lanes to or from a peer (29:R327). -/
def Peer.fail (p : Peer) : Nat := Nat.min p.lanes.length 46
/-- BF.PEER[j] (29:R327). -/
def State.peerWord (s : State) (j : Nat) : Word :=
  if j = s.pl.pkg then 4
  else
    let p := lookupD s.pl.peers j .reset
    pack [(if p.st = 2 then p.relay else 0, 20), (p.fail, 10), (p.spu, 8), (p.st, 0)]

/-- Word `w` of EPT[f] entry `p` (29:R332). -/
def State.eptWord (s : State) (f p w : Nat) : Word :=
  if p = s.pl.pkg then (if w = 0 then pack [(1, 62), (p, 58)] else 0)
  else match s.pl.ept.find? (fun e => e.1 == f * 16 + p) with
    | some (_, a, b) => if w = 0 then a else b
    | none => if w = 0 then pack [(p, 58)] else 0

/-- L2.OCC: lines of a slice whose last allocation was for a function (17:R241). -/
def State.occ (s : State) (slice f : Nat) : Nat := (s.ms.l2.filter (fun e => e.slice == slice && e.fn == f)).length

def State.vcp (s : State) (f : Nat) : Vcp := lookupD s.st.vcps f .reset
def State.setVcp (s : State) (f : Nat) (v : Vcp) : State := { s with st := { s.st with vcps := setKey s.st.vcps f v } }
def Vcp.queue (v : Vcp) (q : Nat) : Queue := v.queues.getD q .reset
def Vcp.setQueue (v : Vcp) (q : Nat) (x : Queue) : Vcp := { v with queues := v.queues.set q x }

/-- The 8-byte word at offset `o` of the VCP page of function `f` (23:R278). -/
def State.vcpWord (s : State) (f o : Nat) : Word :=
  let v := s.vcp f
  match o with
  | 0x000 => pack [(1, 24), (8, 16), (f, 0)]
  | 0x010 => v.evbase
  | 0x018 => v.evctl
  | 0x020 => v.evw
  | 0x028 => v.evr
  | 0x030 => v.evlost
  | 0x038 => pack [(v.bstat.getD 0 0, 48), (v.bstat.getD 1 0, 32), (v.bstat.getD 2 0, 16), (v.bstat.getD 3 0, 0)]
  | _ =>
    if 0x100 ≤ o ∧ o < 0x200 then
      let q := v.queue ((o - 0x100) / 0x20)
      match (o - 0x100) % 0x20 with
      | 0 => q.base
      | 8 => q.ctl
      | 16 => BitVec.ofNat 64 q.qwr
      | _ => pack [(q.qrd, 32), (q.code, 8), (q.state, 0)]
    else 0

/-- The 8-byte register at an MMIO offset, a multiple of 8; none where the spec names none. -/
def State.mmioWord (s : State) (off : Nat) : Option Word :=
  if off = 0x0C000010 then some (pack [(s.pl.fwVer.getD s.pl.fwSlot 0 % 65536, 16), (s.pl.fwSlot, 2), (s.pl.fwSt, 0)])
  else if s.pl.fwSt = 3 then none
  else if 0x100000000 ≤ off ∧ off < 0x100000000 + 513 * 0x1000 then some (s.vcpWord ((off - 0x100000000) / 0x1000) (off % 0x1000))
  else if 0x01000000 ≤ off ∧ off < 0x03010000 then
    let t := lookupD s.st.tcrs ((off - 0x01000000) / 0x10000) ⟨0, 0, []⟩
    match off % 0x10000 with
    | 0 => some t.root
    | 8 => some t.gtv
    | o => if o < 64 then some 0 else none
  else if 0x03101000 ≤ off ∧ off < 0x03180000 then
    if off % 0x1000 < 64 then some (s.rgsWord ((off - 0x03100000) / 0x1000) (off % 0x1000 / 8)) else none
  else if 0x04000000 ≤ off ∧ off < 0x04100000 then
    if off % 0x2000 / 8 ≤ 512 then some (BitVec.ofNat 64 (s.occ ((off - 0x04000000) / 0x2000) (off % 0x2000 / 8))) else none
  else if 0x04800000 ≤ off ∧ off < 0x04800000 + 8 * 288 then some (s.bownWord ((off - 0x04800000) / 8))
  else if 0x05000000 ≤ off ∧ off < 0x07010000 then
    if off % 0x10000 = 0 then some (s.mbackWord ((off - 0x05000000) / 0x10000)) else none
  else if 0x08000000 ≤ off ∧ off < 0x08000000 + 333 * 0x5000 then
    let u := (off - 0x08000000) / 0x5000
    let o := (off - 0x08000000) % 0x5000
    if o < 32 * 513 then some (BitVec.ofNat 64 (lookupD s.eng.counts ((u * 513 + o / 32) * 4 + o % 32 / 8) 0)) else none
  else if off = 0x09000000 then some (pack [(s.pl.pkg, 4), (b2n s.pl.en, 0)])
  else if 0x09000100 ≤ off ∧ off < 0x09000180 then some (s.peerWord ((off - 0x09000100) / 8))
  else if 0x0A000000 ≤ off ∧ off < 0x0A200100 then
    if off % 0x1000 < 256 then some (s.eptWord ((off - 0x0A000000) / 0x1000) (off % 0x1000 / 16) (off % 16 / 8)) else none
  else if off = 0x0B000000 then some (BitVec.ofNat 64 s.pl.hceil)
  else if off = 0x0C000000 then some (BitVec.ofNat 64 s.pl.pwReq)
  else if off = 0x0C000008 then some (BitVec.ofNat 64 s.pl.pwCur)
  else if off = 0x0C000020 then some (BitVec.ofNat 64 (s.pl.tj % 65536))
  else if off = 0x0C000028 then some (BitVec.ofNat 64 (s.pl.watts % 65536))
  else if off = 0x0C000030 then some (BitVec.ofNat 64 (s.pl.flow % 65536))
  else if 0x0C000100 ≤ off ∧ off < 0x0C000128 then some (BitVec.ofNat 64 (s.pl.bret.getD ((off - 0x0C000100) / 8) 0))
  else if off = 0x0C000140 then some (pack [(b2n s.pl.tretBusy, 62)])
  else none

/-- `n` bytes at an MMIO offset, each from its register's current value (17:R348); none where a byte lies in no register. -/
def State.mmioRead (s : State) (off : Nat) : Nat → Option (List Byte)
  | 0 => some []
  | n + 1 =>
    match s.mmioWord (off / 8 * 8), s.mmioRead (off + 1) n with
    | some w, some bs => some (BitVec.ofNat 8 (w.toNat / 2 ^ (8 * (off % 8))) :: bs)
    | _, _ => none

/-- The value that an `n`-byte store of `x` at byte `o` of a register stores into it (17:R348): its current value with those
bytes replaced. WO fields read zero, so bytes not covered count as zero there. -/
def mergeWord (cur : Word) (o n : Nat) (x : Word) : Word :=
  BitVec.ofNat 64 (leNat ((List.range 8).map (fun k =>
    if o ≤ k ∧ k < o + n then BitVec.ofNat 8 (x.toNat / 2 ^ (8 * (k - o))) else BitVec.ofNat 8 (cur.toNat / 2 ^ (8 * k)))))

end Sys2Proof.Machine
end

