-- ==== Sys2Proof/Machine/Access.lean ====
section
/-! DEFINITION. Accesses of threads and of the device's own units: translation, domain checks, pinned lines, tagging, the larder,
posted and held accesses to other packages; continuation records, run queues and events (03:R27-R29, R40-R41, 09:R125,
17:R224-R237, 21:R265-R271, 23:R286, R291, 25:R298, R303, 27:R318, 29:R324-R326). -/

namespace Sys2Proof.Machine
open Sys2Proof

/-- A thread by its record; one placed without a record by its slot (19:R260). -/
def Thread.who (t : Thread) : Nat × Word := if t.info.addr = 0 then (1024 * (t.tid + 1) + t.home, 0) else (t.home, t.info.addr)
def Thread.acc (t : Thread) : Acc := ⟨t.tid, t.tile, t.dom, t.fn, t.priv, t.cp, t.irr, some t.who, false⟩
/-- Accesses through TCR[f] with S-mode permissions: records, save areas, rings (03:R27, 23:R279). -/
def sysAcc (f : Nat) : Acc := ⟨16 * noTile, noTile, f, f, .s, 0, false, none, false⟩

def Piece.off (p : Piece) : Nat := p.pa % 2 ^ 48
def Piece.pkg (p : Piece) : Nat := p.pa / 2 ^ 48
/-- Tile and SRAM offset of a piece in the global tile space. -/
def Piece.slot (p : Piece) : Nat × Nat :=
  ((p.off - Config.tileSpace) / Config.slotSize, (p.off - Config.tileSpace) % Config.slotSize)
/-- Ordering class of a piece: host memory and MMIO are SO (19:R252). -/
def Piece.oc (p : Piece) : Nat :=
  match regionOf p.off with
  | .host => 1 | .mmio => 1 | _ => leafOc p.leaf
/-- Bytes to the end of the page of `2^sh` bytes, and of the line: of DRAM and host memory by the virtual address (17:R226), of the
global tile space by the SRAM offset. -/
def cutAt (va pa n sh : Nat) : Nat :=
  let k := Nat.min n (2 ^ sh - va % 2 ^ sh)
  match regionOf (pa % 2 ^ 48) with
  | .tiles => Nat.min k (192 - (pa % 2 ^ 48 - Config.tileSpace) % Config.slotSize % 192)
  | .mmio => k
  | _ => Nat.min k (192 - va % 192)
/-- The page size of an address, as its tile's TLB holds it after a walk (17:R232). -/
def State.pageShift (s : State) (tile fn va : Nat) : Nat := match s.tlb? tile fn va with
  | some t => t.shift
  | none => 16

/-- A translation's events (25:R307): a TLB miss starts a walk, and so does an entry whose A or D bit the access needs set (17:R230). -/
def Thread.walkEvents (t : Thread) (k : AccKind) (found : Option TlbEntry) : Thread := match found with
  | none => (t.countEv 6 1).countEv 7 1
  | some x => if x.leaf ||| needBits k = x.leaf then t else t.countEv 7 1
/-- Translates the `n` bytes at `va` in ascending order; the first fault carries its address (17:R230-R231, 19:R251). -/
def piecesFrom (a : Acc) (k : AccKind) : Nat → Word → Nat → State → Except Trap (List Piece × State)
  | 0, _, _, s => .ok ([], s)
  | fuel + 1, va, n, s =>
    if n = 0 then .ok ([], s)
    else
      let found := s.tlb? a.tile a.fn va.toNat
      match s.translate a.tile a.fn a.priv k va with
      | .error c => .error (walkTrap c va)
      | .ok (pa, leaf, s) =>
        let s := if s.th.live && s.th.tid == a.tid then { s with th := s.th.walkEvents k found } else s
        let c := cutAt va.toNat pa n (s.pageShift a.tile a.fn va.toNat)
        match piecesFrom a k fuel (va + BitVec.ofNat 64 c) (n - c) s with
        | .error e => .error e
        | .ok (ps, s) => .ok (⟨va, pa, c, leaf⟩ :: ps, s)
/-- The bytes of a piece, each by itself. -/
def Piece.bytes (p : Piece) : List Piece := (List.range p.n).map (fun k => ⟨p.va + BitVec.ofNat 64 k, p.pa + k, 1, p.leaf⟩)
/-- The pieces of one access; one to MMIO that crosses an 8-byte boundary is made as byte accesses (17:R348). -/
def accessPieces (a : Acc) (k : AccKind) (va : Word) (n : Nat) (s : State) : Except Trap (List Piece × State) :=
  match piecesFrom a k (n / 32 + 5) va n s with
  | .error e => .error e
  | .ok (ps, s) =>
    .ok (if 8 < va.toNat % 8 + n then ps.flatMap (fun p => if regionOf p.off = .mmio then p.bytes else [p]) else ps, s)

/-- The check of a piece before it is made: domain of an on-package frame or tile bank (25:R298, R302, 17:R237). -/
def State.pieceTrap (s : State) (a : Acc) (p : Piece) : Option Trap :=
  if p.pkg != s.me then none
  else match regionOf p.off with
    | .dram => if s.dramPermitted a.dom a.priv p.off then none else some ⟨.domain, 0, p.va⟩
    | .tiles =>
      let (t, o) := p.slot
      if s.retired t || Config.sramSize ≤ o || s.bankGranted t a.dom (o / Config.bankSize) then none
      else some ⟨.domain, 0, p.va⟩
    | .reserved => some ⟨.xlate, 6, p.va⟩
    | _ => none

/-- Translation and domain checks of `n` bytes, in the order of R313; with `ord`, a page of class UN is refused between them
(09:R125, R128, 17:R231). -/
def State.pieces (s : State) (a : Acc) (k : AccKind) (va : Word) (n : Nat) (ord : Bool := false) : Except Trap (List Piece × State) :=
  match accessPieces a k va n s with
  | .error e => .error e
  | .ok (ps, s) =>
    match (if ord then ps.find? (fun p => p.oc == 2) else none), ps.findSome? (s.pieceTrap a) with
    | some p, _ => .error ⟨.xlate, 4, p.va⟩
    | none, some t => .error t
    | none, none => .ok (ps, s)

-- Refusals and messages -----------------------------------------------------------------------------------------------

/-- Applies to a resident thread. -/
def State.onThread (s : State) (tid : Nat) (f : Thread → Thread) : State :=
  match s.thread? tid with
  | some t => s.setThread (f t)
  | none => s
/-- A refusal that reaches the thread at the boundary after its run (03:R35). -/
def State.refuseD (s : State) (tid : Nat) (t : Trap) : State :=
  s.onThread tid (fun th => { th with flow := { th.flow with outs := th.flow.outs ++ [({ g := 0, win := [], src := .parts [] (.scalar 0 0), fault := some t, ord := 0 } : Outst)] } })
/-- A refusal of a posted store: an asynchronous cause (03:R35, 29:R324). -/
def State.refuseA (s : State) (tid : Nat) (t : Trap) : State :=
  s.onThread tid (fun th => { th with flow := { th.flow with asyncs := th.flow.asyncs ++ [t] } })
/-- A store to device MMIO becomes writes of its registers: one when it lies in an aligned word, else one per byte in ascending
order (17:R348); 16 is added to the size of an H-mode write (log 13). -/
def State.postWrite (s : State) (off : Nat) (bs : List Byte) (h : Bool) : State :=
  let k := if h then 16 else 0
  if off % 8 + bs.length ≤ 8 then s.post (.registerWrite off (bs.length + k) (BitVec.ofNat 64 (leNat bs)))
  else s.plan ((List.range bs.length).map (fun i => .event (.registerWrite (off + i) (1 + k) ((bs.getD i 0).setWidth 64))))
/-- The domain of an access as a request carries it: 1024 is added in H mode (log 13). -/
def Acc.stamp (a : Acc) : Nat := a.dom + if a.priv = .h then 1024 else 0
/-- The data flits of a request: stores above 8 bytes, those of FBLK (`blk`), and lines that a member gives back, are data (29:R323; log 65). -/
def reqFlits (k : ReqKind) (n : Nat) (blk : Bool := false) : Nat := match k with
  | .acc .write => if n ≤ 8 && !blk then 0 else dataFlits n
  | .unpin _ _ => dataFlits n
  | .publish _ _ => dataFlits n
  | .save _ _ _ => dataFlits n
  | _ => 0
/-- The interval that a store carries, 0 where it is not tagged: to an XT page, or irrevocable (21:R265, R271). -/
def State.storeRin (s : State) (a : Acc) (p : Piece) : Nat := if a.irr || leafXt p.leaf then 0 else s.rinOf a.dom
/-- A request to another package: its tag, and the state with it sent (29:R323-R326). -/
def State.request (s : State) (a : Acc) (k : ReqKind) (p : Piece) (bs : List Byte) : Nat × State :=
  (s.fresh, ((s.emit (.request k p.pkg s.fresh p.pa a.stamp (s.storeRin a p) bs)).flits a.dom (reqFlits k bs.length a.blk)).tick)
/-- A store on its way to another package, the only one of its instruction. -/
def Posted.of (tag tid : Nat) (va : Word) (pa : Nat) (so : Bool) (node : Nat) : Posted := ⟨tag, tid, va, pa, so, node, false, tag, none⟩
/-- The acknowledgement of a request is awaited (29:R324). -/
def State.posts (s : State) (x : Posted) : State := { s with pl := { s.pl with posted := s.pl.posted ++ [x] } }
/-- An answer to a requester on another package: its bytes are data, an acknowledgement is control (29:R323). -/
def State.sendReply (s : State) (f pkg tag : Nat) (r : Reply) (bs : List Byte) : State :=
  (s.emit (.reply pkg tag r bs)).flits f (dataFlits bs.length)
/-- The value of a byte that a thread wrote through the larder and that is still held (19:R260). -/
def State.heldByte (s : State) (who : Option (Nat × Word)) (pa : Nat) : Option Byte :=
  ((s.ms.larder.filter (fun e => who.isSome && e.who == who && e.pa ≤ pa && pa < e.pa + e.data.length)).getLast?).map (fun e => e.data.getD (pa - e.pa) 0)
/-- Every byte that a read gives a thread, or some, are its own held ones. -/
def State.allHeld (s : State) (who : Option (Nat × Word)) (pa n : Nat) : Bool := !s.ms.larder.isEmpty && (List.range n).all (fun k => (s.heldByte who (pa + k)).isSome)
def State.someHeld (s : State) (who : Option (Nat × Word)) (pa n : Nat) : Bool := !s.ms.larder.isEmpty && (List.range n).any (fun k => (s.heldByte who (pa + k)).isSome)
/-- Bytes read at `pa` as the thread sees them, its own held stores over them (19:R260). -/
def State.withHeld (s : State) (who : Option (Nat × Word)) (pa : Nat) (bs : List Byte) : List Byte :=
  if s.someHeld who pa bs.length then (List.range bs.length).map (fun k => (s.heldByte who (pa + k)).getD (bs.getD k 0)) else bs

-- Loads ---------------------------------------------------------------------------------------------------------------

/-- What a load of a piece gives. -/
inductive Got where
  | part (p : Part)
  | bad (t : Trap)          -- a fault that returns with the data
  | unassigned (off : Nat)  -- an MMIO offset with no register

/-- A read of `n` bytes at byte `o` of the line at `loc`, held at the directory until the member's boundary; the reads of one access
of one line, those with tags from `t0`, are one (03:R41). -/
def State.deferRead (s : State) (a : Acc) (loc o n tile t0 : Nat) : Got × State :=
  match s.ms.defer.find? (fun d => d.pa == loc && d.tile == tile && d.remote.isNone && t0 ≤ d.tag) with
  | some d => (.part (.wait d.tag o n 0 (s.me * 2 ^ 48 + loc + o)), s)
  | none =>
    let tag := s.fresh
    let s := { s with ms := { s.ms with defer := s.ms.defer ++ [(⟨loc, 192, tag, tile, none, a.dom⟩ : Deferred)] } }
    (.part (.wait tag o n 0 (s.me * 2 ^ 48 + loc + o)), (s.onThread a.tid (fun t => t.countEv 11 1)).tick)
/-- A read that went on to the package of a pinned line's member: its home knows of it, and serves it should that package die (03:R41,
29:R330); it stands under pseudo-tile noTile + 1 + that package. -/
def State.forwarded (s : State) (off n tag pkg : Nat) (remote : Option Nat) (dom : Nat) : State :=
  { s with ms := { s.ms with defer := s.ms.defer ++ [(⟨off, n, tag, noTile + 1 + pkg, remote, dom⟩ : Deferred)] } }
/-- A read of a piece's line on another package: one request for the line and access (29:R323); outside lines, of its own bytes. -/
def State.farRead (s : State) (a : Acc) (p : Piece) (k : ReqKind) (pkg t0 : Nat) : Got × State :=
  match (if regionOf p.off = .dram then lineOf p.off else none) with
  | some line =>
    let q : Piece := ⟨p.va, p.pa - p.off + line, 192, p.leaf⟩
    match s.pl.out.find? (fun m => match m with
      | .request _ pk tag pa _ _ _ => pk == pkg && pa == q.pa && decide (t0 ≤ tag)
      | _ => false) with
    | some (.request _ _ tag _ _ _ _) => (.part (.wait tag (p.off - line) p.n p.va p.pa), s)
    | _ =>
      let s' := ((s.emit (.request k pkg s.fresh q.pa a.stamp (s.rinOf a.dom) (List.replicate 192 0))).flits a.dom 0).tick
      let s' := match k with
        | .forward _ tag => s'.forwarded line 192 tag pkg none a.dom
        | _ => s'
      (.part (.wait s.fresh (p.off - line) p.n p.va p.pa), s')
  | none =>
    let (tag, s) := s.request a k p (List.replicate p.n 0)
    (.part (.wait tag 0 p.n p.va p.pa), s)

/-- Makes a load of one piece (03:R40-R41, 17:R224, R237-R239, 21:R273, 29:R326); `t0` is the first tag of its access. -/
def State.loadPiece (s : State) (a : Acc) (p : Piece) (t0 : Nat) : Got × State :=
  let there (s : State) (bs : List Byte) : Got × State :=
    if s.badAt p.off p.n then
      match s.detect p.off with
      | (true, s) => (.part (.have bs), s)
      | (false, s) => (.bad ⟨.mcheck, 0, BitVec.ofNat 64 p.pa⟩, s)
    else (.part (.have bs), s)
  if p.pkg != s.me then
    match s.pinOfFar p.pa with
    | some pin =>
      let loc := sramAddr pin.tile (pin.sline * 192)
      let o := 2 ^ 60 + p.pa - pin.line
      if s.ownsPin a.tid pin then (.part (.have (s.read (loc + o) p.n)), s) else s.deferRead a loc o p.n pin.tile t0
    | none => if !s.pkgLive p.pkg then (.bad ⟨.notile, 0, p.va⟩, s) else s.farRead a p (.acc .read) p.pkg t0
  else match regionOf p.off with
    | .dram =>
      match lineOf p.off with
      | none => (.part (.have (List.replicate p.n 0)), s)
      | some line =>
        match (s.pinOfHome line).filter (!·.away) with
        | some pin =>
          let loc := sramAddr pin.tile (pin.sline * 192)
          match pin.far with
          | some q => s.farRead a p (.forward s.me s.fresh) q t0
          | none =>
            if s.ownsPin a.tid pin then (.part (.have (s.read (loc + (p.off - line)) p.n)), s)
            else s.deferRead a loc (p.off - line) p.n pin.tile t0
        | none =>
          let (s, miss) := s.cacheAccess a.tile a.dom line (sectorMask line p.off p.n) false a.cp
          let s := if miss then s.onThread a.tid (fun t => t.countEv 5 1) else s
          there s (s.homeBytes p.off p.n)
    | .tiles =>
      let (t, o) := p.slot
      if s.retired t then (.bad ⟨.notile, 0, p.va⟩, s)
      else if Config.sramSize ≤ o || !s.bankScratch t (o / Config.bankSize) then (.part (.have (List.replicate p.n 0)), s)
      else match s.pinOfSram t (o / 192) with
        | some pin => if s.ownsPin a.tid pin then there s (s.read p.off p.n) else s.deferRead a (sramAddr t (o / 192 * 192)) (o % 192) p.n t t0
        | none => there s (s.read p.off p.n)
    | .mmio =>
      match s.mmioRead (p.off - Config.mmioSpace) p.n with
      | some bs => (.part (.have bs), s)
      | none => (.unassigned (p.off - Config.mmioSpace), s)
    | _ => (.part (.have (s.read p.off p.n)), s)

/-- A part of a load as the thread sees it: awaited bytes that it holds itself are there, each by itself (19:R249, R260). -/
def State.ownPart (s : State) (a : Acc) (p : Piece) (x : Part) : List Part := match x with
  | .have bs => [.have (s.withHeld a.who p.pa bs)]
  | .wait tag o n va pa =>
    if s.someHeld a.who p.pa n then
      (List.range n).map (fun k => match s.heldByte a.who (p.pa + k) with
        | some b => .have [b]
        | none => .wait tag (o + k) 1 (va + BitVec.ofNat 64 k) (pa + k))
    else [x]
/-- Makes a load of one piece, but where the thread holds all its bytes itself (19:R250, R260). -/
def State.ownPiece (s : State) (a : Acc) (p : Piece) (t0 : Nat) : Got × State :=
  if s.allHeld a.who p.pa p.n then (.part (.have (List.replicate p.n 0)), s) else s.loadPiece a p t0
/-- Loads of pieces in ascending order: the parts, none in the place of a fault, the first returning fault, an unassigned register. -/
def loadParts (a : Acc) (t0 : Nat) : List Piece → State → List Part × Option Trap × Option Nat × State
  | [], s => ([], none, none, s)
  | p :: ps, s =>
    let (g, s) := s.ownPiece a p t0
    let (parts, t, u, s') := loadParts a t0 ps s
    match g with
    | .part x => (s.ownPart a p x ++ parts, t, u, s')
    | .bad b => (.have [] :: parts, some b, u, s')
    | .unassigned o => (.have [] :: parts, t, some o, s')
def loadPieces (a : Acc) (ps : List Piece) (s : State) : List Part × Option Trap × Option Nat × State := loadParts a s.fresh ps s

/-- Bytes of parts that are all there. -/
def partBytes : List Part → Option (List Byte)
  | [] => some []
  | .have bs :: r => (partBytes r).map (bs ++ ·)
  | .wait .. :: _ => none

/-- An access whose bytes the instruction itself needs (25:R303 held accesses). -/
inductive Held where
  | ok (bs : List Byte) (s : State)
  | trap (t : Trap)
  | hold (s : State)       -- the reply is awaited
  | refuse (off : Nat)

/-- The fault that a reply carries for a read of `va` at `pa` (25:R303, 27:R311). -/
def replyTrap (r : Reply) (va : Word) (pa : Nat) : Option Trap :=
  match r with
  | .done => none
  | .domain => some ⟨.domain, 0, va⟩
  | .pinned => some ⟨.cprot, 0, va⟩
  | .notile => some ⟨.notile, 0, va⟩
  | .lost => some ⟨.mcheck, 0, BitVec.ofNat 64 pa⟩
def State.dropDefer (s : State) (tag : Nat) : State :=
  { s with ms := { s.ms with defer := s.ms.defer.filter (fun d => d.remote.isSome || d.tag != tag) } }
/-- The tags that an outstanding result awaits. -/
def Src.tags : Src → List Nat
  | .parts ps _ => ps.filterMap (fun p => match p with | .wait tag _ _ _ _ => some tag | .have _ => none)
  | _ => []
/-- A part of an outstanding result comes from a reply or a deferred read. -/
def Src.pending : Src → Bool
  | .parts ps _ => (partBytes ps).isNone
  | _ => false
/-- An earlier load that acquired, or any by a class it has, is not performed (19:R252-R253, R259). -/
def Thread.ordered (t : Thread) (k : Nat) : Bool := t.flow.outs.any (fun o => k ≤ o.ord && o.src.pending)
/-- A flag increment of a thread on a page of class SO is not made yet; one that waits for a held store is no earlier access (19:R252, R260). -/
def State.flagWaits (s : State) (tid : Nat) : Bool :=
  s.pl.flags.any (fun f => f.tid == tid && (leafOc f.leaf == 1 || regionOf (f.pa % 2 ^ 48) == .host) && !f.tags.any (fun g => s.ms.larder.any (·.tag == g)))
/-- An access of the thread to the same unit of another package is under way: the fabric keeps no order between requests (19:R249,
29:R324). -/
def State.sameUnit (s : State) (t : Thread) (p : Piece) : Bool :=
  p.pkg != s.me && (s.pinOfFar p.pa).isNone &&
    (s.pl.posted.any (fun x => x.tid == t.tid && unitOf x.pa == unitOf p.pa) ||
      t.flow.outs.any (fun o => match o.src with
        | .parts ps _ => ps.any (fun x => match x with
          | .wait _ _ _ _ pa => unitOf pa == unitOf p.pa
          | .have _ => false)
        | _ => false))
/-- An access must wait for earlier ones of its thread: for an acquire not yet performed; on a page of class SO for earlier accesses of
that class; for one to the same place of another package (19:R249, R252-R253). -/
def State.orderWaits (s : State) (a : Acc) (ps : List Piece) : Bool :=
  match s.thread? a.tid with
  | none => false
  | some t => t.ordered 2 || (ps.any (fun p => p.oc == 1) &&
      (t.ordered 1 || s.pl.posted.any (fun p => p.tid == a.tid && p.so) || s.flagWaits a.tid)) || ps.any (s.sameUnit t)
/-- A read of one piece that holds the issuing thread's slot until its bytes are there. -/
def State.heldPiece (s : State) (a : Acc) (p : Piece) (t0 : Nat) : Held :=
  match s.th.flow.heldReads.find? (fun h => h.pa == p.pa && h.n == p.n) with
  | some h => (match h.reply with
    | none => .hold s
    | some (r, x) => (match replyTrap r p.va p.pa with
      | some t => .trap t
      | none => .ok (s.withHeld a.who p.pa ((x.drop h.o).take p.n)) s))
  | none => match s.ownPiece a p t0 with
      | (.part (.have x), s) => .ok (s.withHeld a.who p.pa x) s
      | (.part (.wait tag o n _ _), s) =>
        .hold { s with th := { s.th with flow := { s.th.flow with heldReads := s.th.flow.heldReads ++ [⟨p.pa, n, tag, o, none⟩] } } }
      | (.bad t, _) => .trap t
      | (.unassigned o, _) => .refuse o
/-- Reads of pieces one after the other, each when the one before it is there (19:R252, 11:R138); what has been read stays as it is. -/
def State.heldInTurn (s : State) (a : Acc) (ps : List Piece) : Held :=
  let step (acc : Held) (p : Piece) : Held :=
    match acc with
    | .ok bs s' => (match s'.heldPiece a p s.fresh with
      | .ok x s' =>
        let keep := s'.th.flow.heldReads.any (fun h => h.pa == p.pa && h.n == p.n)
        let r : HeldRead := ⟨p.pa, p.n, s'.fresh, 0, some (.done, x)⟩
        .ok (bs ++ x) (if keep then s' else { s' with th := { s'.th with flow := { s'.th.flow with heldReads := s'.th.flow.heldReads ++ [r] } } }).tick
      | r => r)
    | r => r
  ps.foldl step (.ok [] s)
/-- A read that holds the issuing thread's slot until its bytes are there (25:R303, 27:R311); but for a fetch, after the accesses that
it is ordered behind (19:R252-R253). -/
def State.ldHeld (s : State) (a : Acc) (k : AccKind) (va : Word) (n : Nat) : Held :=
  match s.pieces a k va n with
  | .error t => .trap t
  | .ok (ps, s) =>
    if k != .fetch && s.orderWaits a ps then .hold s else
    let step (acc : Held) (p : Piece) : Held :=
      match acc with
      | .ok bs s' => (match s'.heldPiece a p s.fresh with
        | .ok x s' => .ok (bs ++ x) s'
        | r => r)
      | r => r
    ps.foldl step (.ok [] s)

-- Device accesses, records, run queues --------------------------------------------------------------------------------

/-- The partition whose group wants a seal: REQ's events, and a forced seal that begins (21:R269). -/
def State.sealAsks (s : State) (was : Bool) (req : Bool) (f : Nat) : State := match s.nodeOf f with
  | none => s
  | some n => s.plan ((if req then [.sealReq n] else []) ++ (if !was && (s.rgs n).forced then [.forced n] else []))
def State.forcedOf (s : State) (f : Nat) : Bool := match s.nodeOf f with
  | none => false
  | some n => (s.rgs n).forced
/-- A store tagged for its storer, or what stops it: a forced seal stalls it; the group rolls back (21:R265, R269, R273). -/
inductive TagStep where
  | ok (s : State)
  | stall
  | roll (s : State)
def State.tagged (s : State) (dom line rin off : Nat) (exempt : Bool) : TagStep :=
  match s.tagStore dom line rin exempt with
  | .ok s' req => .ok (s'.sealAsks (s.forcedOf dom) req dom)
  | .stall => .stall
  | .exhausted n => .roll (s.postOnce (.rollback n 5 s.me (s.me * 2 ^ 48 + off)))
  | .broken n => .roll (s.postOnce (.rollback n 1 s.me (s.me * 2 ^ 48 + off)))

/-- A write of one line's bytes by a unit of the device, for a storer in interval `rin`: other copies go, the store is tagged (17:R237,
R239, 21:R265). -/
def State.devStoreIn (s : State) (dom rin off : Nat) (bs : List Byte) : State :=
  match regionOf off with
  | .dram =>
    match lineOf off with
    | none => s
    | some line =>
      match s.tagged dom line rin off true with
      | .ok s => (s.unitWrite dom line).writeLine line rin off bs
      | .stall => s
      | .roll s => s
  | .tiles => (match s.unitLoc off with
    | some _ => s.write off bs
    | none => s)
  | .mmio => s.postWrite (off - Config.mmioSpace) bs false
  | .host => s.write off bs
  | .reserved => s

def State.devStore (s : State) (dom off : Nat) (bs : List Byte) : State := s.devStoreIn dom (s.rinOf dom) off bs

/-- What refuses a device's access at its target besides the domain check: a package that is not live, a retired tile, and, for a
write, a pinned line (01:R20, 03:R40, 17:R224, R237). -/
def State.unitTrap (s : State) (k : AccKind) (p : Piece) : Option Trap :=
  if p.pkg != s.me then (if s.pkgLive p.pkg then none else some ⟨.notile, 0, p.va⟩)
  else match regionOf p.off with
    | .tiles =>
      if s.retired p.slot.1 then some ⟨.notile, 0, p.va⟩
      else if k == .write && (s.pinOfSram p.slot.1 (p.slot.2 / 192)).isSome then some ⟨.cprot, 0, p.va⟩ else none
    | .dram => if k == .write && ((lineOf p.off).bind s.pinOfHome).isSome then some ⟨.cprot, 0, p.va⟩ else none
    | _ => none
/-- Pieces of a device access through TCR[f], with the cause of a refusal (03:R28-R29). -/
def State.sysPieces (s : State) (f : Nat) (k : AccKind) (va : Word) (n : Nat) : Except Trap (List Piece × State) :=
  match s.pieces (sysAcc f) k va n with
  | .error t => .error t
  | .ok (ps, s') => match ps.findSome? (s.unitTrap k) with
    | some t => .error t
    | none => .ok (ps, { s' with ms := { s'.ms with tlb := s.ms.tlb } })
/-- Bytes of another package's memory as the device's units read them: free values (log 12). -/
def State.farBytes (s : State) (pa n : Nat) : List Byte :=
  (List.range n).map (fun k => BitVec.ofNat 8 ((Config.remoteWord ((pa + k) / 8 * 8) s.fresh).toNat / 2 ^ (8 * ((pa + k) % 8))))
/-- A unit's read of another package's memory is asked for there (23:R289, 29:R323). -/
def State.askFar (s : State) (f : Nat) (p : Piece) : State :=
  ((s.emit (.request (.acc .read) p.pkg s.fresh p.pa f 0 (List.replicate p.n 0))).flits f 0).tick
/-- Bytes of a piece as a unit reads them. -/
def State.pieceBytes (s : State) (p : Piece) : List Byte :=
  if p.pkg != s.me then s.farBytes p.pa p.n
  else match regionOf p.off with
    | .mmio => (s.mmioRead (p.off - Config.mmioSpace) p.n).getD (List.replicate p.n 0)
    | _ => s.unitBytes p.off p.n
/-- Reads through TCR[f]; bytes of another package are free values (log 12). -/
def State.sysRead (s : State) (f : Nat) (va : Word) (n : Nat) : Except Trap (List Byte) :=
  match s.sysPieces f .read va n with
  | .error t => .error t
  | .ok (ps, s) => .ok (ps.flatMap s.pieceBytes)
/-- What a unit's read leaves: A bits of its walks, its lines written back by their owners (17:R230, R239), a detected error (21:R273). -/
def State.sysTouch (s : State) (f : Nat) (va : Word) (n : Nat) : State :=
  match s.sysPieces f .read va n with
  | .error _ => s
  | .ok (ps, s) => ps.foldl (fun s p =>
      if p.pkg != s.me then s.askFar f p
      else
        let s := match (if regionOf p.off = .dram then lineOf p.off else none) with
          | some line => if (s.pinOfHome line).isSome then s else s.unitRead f line
          | none => s
        s.sees p.off p.n) s
/-- The slot number under which a unit's stores for a function are posted. -/
def unitTid (f : Nat) : Nat := 2 ^ 62 + f
/-- A unit's store for a function to another package. -/
def State.sysFar (s : State) (f : Nat) (p : Piece) (bs : List Byte) : State :=
  let (tag, s) := s.request (sysAcc f) (.acc .write) p bs
  s.posts (.of tag (unitTid f) p.va p.pa false ((s.nodeOf f).getD 0))
/-- Writes through TCR[f]; those to another package are on their way until it acknowledges them (19:R262, 29:R324). -/
def State.sysWrite (s : State) (f : Nat) (va : Word) (bs : List Byte) : Except Trap State :=
  match s.sysPieces f .write va bs.length with
  | .error t => .error t
  | .ok (ps, s) =>
    .ok (ps.foldl (fun (x : State × List Byte) p =>
      let b := x.2.take p.n
      (if p.pkg = x.1.me then x.1.devStore f p.off b else x.1.sysFar f p b, x.2.drop p.n)) (s, bs)).1
/-- A write whose refusal is dropped. -/
def State.sysPut (s : State) (f : Nat) (va : Word) (bs : List Byte) : State :=
  match s.sysWrite f va bs with
  | .ok s => s
  | .error _ => s
def State.sysWord (s : State) (f : Nat) (va : Word) : Except Trap Nat := (s.sysRead f va 8).map leNat

/-- Why a record can be neither claimed nor written: its page needs R and W (03:R27-R28). -/
def State.recTrap (s : State) (f : Nat) (recA : Word) : Option Trap :=
  match s.sysPieces f .read recA 64, s.sysPieces f .write recA 64 with
  | .error t, _ => some t
  | .ok _, .error t => some t
  | .ok _, .ok _ => none
/-- Sets STATE of a record (03:R27). -/
def State.setRecState (s : State) (f : Nat) (recA : Word) (st : Nat) : State :=
  match s.sysWord f (recA + 8) with
  | .error _ => s
  | .ok w => s.sysPut f (recA + 8) (leBytes 8 (w - bits w 14 12 * 4096 + st * 4096))
/-- STATE of a record, none where it cannot be read. -/
def State.recState (s : State) (f : Nat) (recA : Word) : Option Nat :=
  match s.sysWord f (recA + 8) with
  | .error _ => none
  | .ok w => some (bits w 14 12)

/-- Sets NEXT of a record (03:R27). -/
def State.linkRec (s : State) (f : Nat) (recA next : Word) : State :=
  match s.sysWord f (recA + 40) with
  | .error _ => s
  | .ok w => s.sysPut f (recA + 40) (leBytes 8 (w / 2 ^ 52 * 2 ^ 52 + bits next.toNat 51 6 * 64 + w % 64))
/-- Queues a record on a run queue, linked through NEXT (03:R27, 23:R286); a function that is not bound has none (25:R295), and its record
stays as it is (DESIGN CHOICE, log 78). -/
def State.enqueue (s : State) (e : RunEntry) : State :=
  if (s.nodeOf e.dom).isNone then s else
  let s := match (s.st.runq.filter (fun x => x.die == e.die && x.dom == e.dom && x.pri == e.pri)).getLast? with
    | none => s
    | some l => s.linkRec l.dom l.recA e.recA
  { s with st := { s.st with runq := s.st.runq ++ [e] } }
/-- The record after another in its run queue. -/
def nextQueued (q : List RunEntry) (e : RunEntry) : Option Word :=
  ((q.filter (fun x => x.die == e.die && x.dom == e.dom && x.pri == e.pri)).dropWhile (· != e)).tail.head?.map (·.recA)
/-- The run queues after records have left them: NEXT of a record goes on to the record that is now behind it (23:R286). -/
def State.setQueued (s : State) (q : List RunEntry) : State :=
  let was := s.st.runq
  (q.filter (fun e => nextQueued q e != nextQueued was e)).foldl (fun s e => s.linkRec e.dom e.recA ((nextQueued q e).getD 0))
    { s with st := { s.st with runq := q } }

/-- A waiter's record is queued as RUNNABLE; its own package is told of another's (13:R178). -/
def State.wakeOne (s : State) (w : Waiter) : State := match w.far with
  | some (p, tag) => s.sendReply w.dom p tag .done []
  | none => (s.setRecState w.dom w.recA 1).enqueue ⟨w.die, w.dom, w.pri, w.recA⟩
/-- A resident thread whose WAITA read the line last has it to read again (13:R178-R179). -/
def State.noteWaiters (s : State) (line : Nat) : State :=
  let hit (t : Thread) : Bool := t.flow.waitAt == some (s.me * 2 ^ 48 + line)
  if s.threads.any hit then s.mapThreads (fun t => if hit t then { t with flow := { t.flow with waitAt := none } } else t) else s
/-- Queues every record that waits on a line, as RUNNABLE (13:R178). -/
def State.wakeLine (s : State) (line : Nat) : State :=
  let s := s.noteWaiters line
  let ws := s.ms.waits.filter (·.line == line)
  let s := { s with ms := { s.ms with waits := s.ms.waits.filter (·.line != line) } }
  ws.foldl State.wakeOne s

/-- The pages of a ring translate in a function's space (23:R279): the state with their entries accessed. -/
def State.ringTouch (s : State) (f : Nat) (base : Word) (bytes : Nat) (k : AccKind) : Option State :=
  (List.range (bytes / 65536 + 2)).foldl (fun (r : Option State) i =>
    let a := base.toNat / 65536 * 65536 + i * 65536
    match r with
    | none => none
    | some s =>
      if a < base.toNat + bytes then
        (match s.translate noTile f .s k (BitVec.ofNat 64 a) with
          | .ok (_, _, u) => some { u with ms := { u.ms with tlb := s.ms.tlb } }
          | .error _ => none)
      else some s) (some s)
def State.ringOk (s : State) (f : Nat) (base : Word) (bytes : Nat) (k : AccKind) : Bool := (s.ringTouch f base bytes k).isSome

/-- Writes an event to a function's ring, or drops it (23:R291). -/
def State.postEvent (s : State) (f code : Nat) (arg : Word) : State :=
  let v := s.vcp f
  let lg := bits v.evctl.toNat 4 0
  let lost := s.setVcp f { v with evlost := v.evlost + 1 }
  if !bitOf v.evctl.toNat 8 || lg < 4 || 16 < lg || (v.evw - v.evr).toNat = 2 ^ lg then lost
  else match s.ringTouch f v.evbase (16 * 2 ^ lg) .write with
    | none => lost
    | some u =>
      match u.sysWrite f (v.evbase + BitVec.ofNat 64 (16 * (v.evw.toNat % 2 ^ lg))) (leBytes 8 (code * 2 ^ 48) ++ leBytes 8 arg.toNat) with
      | .error _ => lost
      | .ok s => (s.setVcp f { s.vcp f with evw := v.evw + 1 }).emit (.msix f)
/-- FATAL to the record's function and to the PF (23:R291). -/
def State.postFatal (s : State) (f : Nat) (recA : Word) (code : Nat) : State :=
  let arg := BitVec.ofNat 64 (recA.toNat / 64 * 64 + code)
  let s := s.postEvent f 10 arg
  if f = 0 then s else s.postEvent 0 10 arg
/-- Functions bound to a partition. -/
def State.bound (s : State) (n : Nat) : List Nat := (s.st.binds.filter (·.2 == n)).map (·.1)
/-- SEALREQ to every function of a partition, and to the other packages of its group (21:R269). -/
def State.postSealReq (s : State) (n : Nat) : State :=
  let s := (s.bound n).foldl (fun s g => s.postEvent g 1 (BitVec.ofNat 64 (s.rgs n).rin)) s
  (s.rgs n).peers.foldl (fun s p => s.emit (.steward 7 n p)) s

-- Stores --------------------------------------------------------------------------------------------------------------

/-- A store of group work that the larder holds until its interval is sealed (09:R125, 17:R235, 21:R270). -/
def State.held (s : State) (a : Acc) (p : Piece) : Bool :=
  (s.nodeOf a.dom).isSome && !a.irr && (leafXt p.leaf || regionOf p.off == .host || regionOf p.off == .mmio)
def State.larderUsed (s : State) (die : Nat) : Nat := ((s.ms.larder.filter (·.die == die)).map (·.data.length)).sum
/-- Bytes a larder holds (21:R270). -/
def larderSize : Nat := 2097152
/-- The larder of a tile's die has room for the held ones of some pieces (21:R271). -/
def State.larderFits (s : State) (a : Acc) (ps : List Piece) : Bool :=
  let k := ((ps.filter (s.held a)).map (·.n)).sum
  k == 0 || decide (s.larderUsed (dieOf a.tile) + k ≤ larderSize)

/-- The refusal of a store's piece that its on-package target gives: a retired tile, a line pinned for others (01:R20, 03:R35, R40). -/
def State.refusal (s : State) (a : Acc) (p : Piece) : Option Trap :=
  if s.held a p || p.pkg != s.me then none
  else match regionOf p.off with
    | .dram => (match (lineOf p.off).bind s.pinOfHome with
      | some pin => if s.ownsPin a.tid pin then none else some ⟨.cprot, 0, p.va⟩
      | none => none)
    | .tiles =>
      let (t, o) := p.slot
      if s.retired t then some ⟨.notile, 0, p.va⟩
      else if Config.sramSize ≤ o || !s.bankScratch t (o / Config.bankSize) then none
      else (match s.pinOfSram t (o / 192) with
        | some pin => if s.ownsPin a.tid pin then none else some ⟨.cprot, 0, p.va⟩
        | none => none)
    | _ => none
/-- The dirty sectors of a pinned line after a store (03:R39). -/
def State.pinDirty (s : State) (pin : Pin) (mask : Nat) : State :=
  { s with ms := { s.ms with pins := s.ms.pins.map (fun (q : Pin) => if q.line == pin.line && q.far.isNone then { q with dirty := q.dirty ||| mask } else q) } }

/-- The larder of the tile's die holds a store (21:R270). -/
def State.holdStore (s : State) (a : Acc) (p : Piece) (bs : List Byte) : State :=
  { s with ms := { s.ms with larder := s.ms.larder ++
      [(⟨dieOf a.tile, (s.nodeOf a.dom).getD 0, s.rinOf a.dom, a.tid, a.stamp, p.va, p.pa, bs, s.fresh, a.who, none, false, none, a.blk⟩ : LarderEntry)] } }.tick
/-- A store of one piece, or the refusal that its target gives (03:R40, 17:R237-R239, 21:R265, R270, 29:R324). -/
def State.storePiece (s : State) (a : Acc) (p : Piece) (bs : List Byte) : State :=
  if s.held a p then s.holdStore a p bs
  else if p.pkg != s.me then
    match (s.pinOfFar p.pa).filter (s.ownsPin a.tid) with
    | some pin =>
      let o := 2 ^ 60 + p.pa - pin.line
      (s.pinDirty pin (sectorMask 0 o p.n)).write (sramAddr pin.tile (pin.sline * 192 + o)) bs
    | none =>
      if !s.pkgLive p.pkg then s.refuseA a.tid ⟨.notile, 0, p.va⟩
      else
        let (tag, s) := s.request a (.acc .write) p bs
        s.posts (.of tag a.tid p.va p.pa (p.oc == 1) ((s.nodeOf a.dom).getD 0))
  else match s.refusal a p with
    | some t => s.refuseD a.tid t
    | none => match regionOf p.off with
      | .dram =>
        match lineOf p.off with
        | none => s
        | some line =>
          match s.pinOfHome line with
          | some pin => (s.pinDirty pin (sectorMask line p.off p.n)).write (sramAddr pin.tile (pin.sline * 192 + (p.off - line))) bs
          | none =>
            let rin := s.storeRin a p
            match s.tagged a.dom line rin p.off (s.memberOf a.tid).isSome with
            | .ok s =>
              let (s, miss) := s.cacheAccess a.tile a.dom line (sectorMask line p.off p.n) true a.cp
              let s := if miss then s.onThread a.tid (fun t => t.countEv 5 1) else s
              (s.writeLine line rin p.off bs).wakeLine line
            | .stall => s
            | .roll s => s
      | .tiles =>
        let (t, o) := p.slot
        if Config.sramSize ≤ o || !s.bankScratch t (o / Config.bankSize) then s
        else match s.pinOfSram t (o / 192) with
          | some pin => (s.pinDirty pin (sectorMask (o / 192 * 192) o p.n)).write p.off bs
          | none => (s.write p.off bs).wakeLine (waitLine p.off)
      | .mmio => s.postWrite (p.off - Config.mmioSpace) bs (a.priv == .h)
      | _ => (s.write p.off bs).wakeLine (waitLine p.off)

/-- Why a store must hold before any of it is made: a full larder, a forced seal, an exhausted cellar (21:R269, R271). A seal that its own
lines force begins, and it holds for that. -/
def State.storeBlock (s : State) (a : Acc) (ps : List Piece) : Option State :=
  if !s.larderFits a ps then some s
  else
    let exempt := (s.memberOf a.tid).isSome
    let asked (u : State) : State := match s.nodeOf a.dom with
      | some n => if (u.rgs n).forced && !(s.rgs n).forced then
          (s.setRgs n { s.rgs n with req := (u.rgs n).req, forced := true, sealing := true }).plan (u.inbox.filter (fun t => t == .sealReq n || t == .forced n))
        else s
      | none => s
    let step (r : State × Option State) (p : Piece) : State × Option State :=
      match r.2 with
      | some _ => r
      | none =>
        if s.held a p || regionOf p.off != .dram || s.storeRin a p == 0 then r
        else if p.pkg != s.me then (if r.1.forcedOf a.dom && !exempt then (r.1, some (asked r.1)) else r)
        else match lineOf p.off with
          | none => r
          | some line =>
            if (s.pinOfHome line).isSome then r
            else match r.1.tagged a.dom line (s.rinOf a.dom) p.off exempt with
              | .ok u => (u, none)
              | .stall => (r.1, some (asked r.1))
              | .roll u => (r.1, some (s.plan (u.inbox.drop r.1.inbox.length)))
    (ps.foldl step ({ s with inbox := [] }, none)).2

/-- The rest of a store follows a register write, on its turn, or an acknowledgement. -/
def State.addRest (s : State) (a : Acc) (ps : List Piece) (bs : List Byte) (after : Option Nat) : State :=
  let r : StoreRest := ⟨s.fresh, after, a, ps, bs, s.fresh, none⟩
  let s' := { s with pl := { s.pl with rests := s.pl.rests ++ [r] } }.tick
  if after.isNone then s'.plan [.stores r.key] else s'
/-- Stores of checked pieces in ascending order; after one that writes a register, the rest follows that write (17:R348, 19:R251); the
parts of class SO on other packages are made one after the other (19:R252, 11:R138). -/
def storePieces (a : Acc) : List Piece → List Byte → State → State
  | [], _, s => s
  | p :: ps, bs, s =>
    let s' := s.storePiece a p (bs.take p.n)
    if regionOf p.off = .mmio ∧ p.pkg = s.me ∧ !s.held a p ∧ !ps.isEmpty then s'.addRest a ps (bs.drop p.n) none
    else if p.oc = 1 ∧ ps.any (fun q => q.oc == 1) ∧ s'.pl.posted.length ≠ s.pl.posted.length then s'.addRest a ps (bs.drop p.n) (some s.fresh)
    else storePieces a ps (bs.drop p.n) s'
/-- The posted parts of one instruction, from tag `t0` on, report their refusals as one (27:R317). -/
def State.asOne (s : State) (tid t0 : Nat) : State :=
  let one (x : Posted) : Posted := if x.tid = tid ∧ t0 ≤ x.tag then { x with grp := t0 } else x
  let rest (x : StoreRest) : StoreRest := if x.acc.tid = tid ∧ t0 ≤ x.key then { x with grp := t0 } else x
  { s with pl := { s.pl with posted := s.pl.posted.map one, rests := s.pl.rests.map rest } }
/-- A store of checked pieces: one that a target refuses writes nothing (09:R125). -/
def State.storeAll (s : State) (a : Acc) (ps : List Piece) (bs : List Byte) : State :=
  match ps.findSome? (s.refusal a) with
  | some t => s.refuseD a.tid t
  | none => (storePieces a ps bs s).asOne a.tid s.fresh

-- Continuation records ------------------------------------------------------------------------------------------------

def Priv.code (p : Priv) : Nat := match p with | .u => 0 | .s => 1 | .h => 2
def Guard.code (g : Guard) : Nat := match g with | .fls => 0 | .tru => 1 | .pend => 3
/-- LP0 or LP1 as the record holds it (03:R27). -/
def Loop.code (l : Loop) : Nat := if l.act then 2 ^ 31 + l.creg.toNat * 2 ^ 26 + l.off * 2 ^ 13 + l.len else 0
def Loop.of (w : Nat) : Loop := if bitOf w 31 then ⟨true, BitVec.ofNat 5 (bits w 30 26), bits w 25 13, bits w 12 0⟩ else .none
def qgWord (gs : List Guard) : Nat := ((List.range 7).map (fun i => (gs.getD i .fls).code * 4 ^ i)).sum

/-- The record of a thread with a given STATE (03:R27). -/
def Thread.record (t : Thread) (state : Nat) : List Byte :=
  let i := t.info
  let ws : List Word := [t.pc,
    pack [(1, 56), (idxCoord t.tile, 17), (t.slot / 4, 15), (state, 12), (t.dom, 2), (t.priv.code, 0)],
    pack [(t.gran, 57), (bits i.save.toNat 51 10, 10)],
    pack [(if t.lp0.act then bits t.lps.toNat 51 2 else 0, 14), (qgWord t.guards, 0)],
    pack [(t.lp1.code, 32), ({ t.lp0 with off := 0 }.code, 0)],
    pack [(i.pri, 4)],
    pack [(i.kind, 62), (i.tdie, 48), (i.tnode, 32), (i.gang, 16), (i.gsize, 12), (i.gidx, 8)],
    pack [(i.rin, 32), (b2n i.ckv, 0)]]
  ws.flatMap (fun w => leBytes 8 w.toNat)

/-- The window image: g registers, then the rest of the window (27:R318). -/
def Thread.image (t : Thread) : List Byte :=
  (t.regs.toList.flatMap (fun w => leBytes 8 w.toNat)) ++ readBytes t.win 256 (t.gran * 1024 - 256)
def TrapBank.bytes (b : TrapBank) : List Byte :=
  [b.epc, b.estat, b.cause, b.tval, b.scr].flatMap (fun w => leBytes 8 w.toNat)
/-- The state block (27:R318). -/
def Thread.block (t : Thread) : List Byte :=
  let m := t.mu
  let muw := pack [(b2n t.flow.gba, 48), (m.rst, 40), (m.own.getD 3 0, 38), (m.own.getD 2 0, 36), (m.own.getD 1 0, 34), (m.own.getD 0 0, 32),
    ((m.fx.getD 3 0).toNat, 24), ((m.fx.getD 2 0).toNat, 16), ((m.fx.getD 1 0).toNat, 8), ((m.fx.getD 0 0).toNat, 0)]
  ([BitVec.ofNat 64 t.fx.toNat, t.oob, t.vv, t.va, t.vx, muw].flatMap (fun w => leBytes 8 w.toNat)) ++
    t.sb.bytes ++ t.hb.bytes ++ (t.cnt.flatMap (fun w => leBytes 8 w.toNat)) ++ (t.sel.flatMap (fun w => leBytes 8 w.toNat))

/-- Word `i` of a byte list. -/
def wordAt (bs : List Byte) (i : Nat) : Nat := leNat ((bs.drop (8 * i)).take 8)

/-- A record meets R28 step 3 (03:R27-R28). -/
def recordOk (bs : List Byte) : Bool :=
  let w := wordAt bs
  bits (w 1) 63 56 == 1 && bits (w 1) 1 0 ≤ 1 && bits (w 1) 55 28 == 0 && bits (w 1) 14 12 ≤ 5 && bits (w 1) 11 2 ≤ 512 &&
  bits (w 2) 56 52 == 0 && bits (w 2) 9 0 == 0 && bits (w 5) 63 52 == 0 && bits (w 5) 3 0 == 0 &&
  bits (w 6) 63 62 != 3 && bits (w 6) 61 50 == 0 && bits (w 6) 7 0 == 0 && bits (w 7) 31 1 == 0 &&
  w 0 % 4 == 0 && canonical (BitVec.ofNat 64 (w 0)) && 1 ≤ bits (w 2) 63 57 && bits (w 2) 63 57 ≤ 64 &&
  (List.range 7).all (fun i => bits (w 3) (2 * i + 1) (2 * i) ≤ 1) && bits (w 4) 25 13 == 0 &&
  (let l0 := Loop.of (bits (w 4) 31 0)
   let l1 := Loop.of (bits (w 4) 63 32)
   !(l0.act && l0.creg == 0) && !(l1.act && (l1.creg == 0 || !l0.act || l0.len < l1.off + l1.len))) &&
  !(bits (w 6) 63 62 == 1 && bits (w 6) 15 12 < bits (w 6) 11 8)

/-- Sign-extends a 52-bit address. -/
def addr52 (x : Nat) : Word := BitVec.ofNat 64 (sextN 52 64 x)

def bankOf (w : Nat → Nat) (i : Nat) : TrapBank :=
  ⟨BitVec.ofNat 64 (w i), BitVec.ofNat 64 (w (i + 1)), BitVec.ofNat 64 (w (i + 2)), BitVec.ofNat 64 (w (i + 3)), BitVec.ofNat 64 (w (i + 4))⟩
def bankOk (b : TrapBank) : Bool := b.estat.toNat < 16 && bits b.estat.toNat 1 0 ≤ 2 && b.cause.toNat < 65536
/-- A state block in which every field meets its register's map (27:R318-R319). -/
def blockOk (bs : List Byte) (gran : Nat) : Bool :=
  let w := wordAt bs
  let v (i : Nat) : Word := BitVec.ofNat 64 (w i)
  w 0 < 64 && vvOk (v 2) gran && vaOk (v 3) gran && vxOk (v 4) gran &&
  bits (w 5) 63 49 == 0 && bits (w 5) 31 30 == 0 && bits (w 5) 23 22 == 0 && bits (w 5) 15 14 == 0 && bits (w 5) 7 6 == 0 &&
  bankOk (bankOf w 6) && bankOk (bankOf w 11) &&
  (List.range 8).all (fun i => w (16 + i) < 2 ^ 48) &&
  (List.range 8).all (fun i => w (24 + i) < 2 ^ 11 && bits (w (24 + i)) 8 8 == 0 && bits (w (24 + i)) 7 0 ≤ 13)

/-- Cells of a byte list laid from an offset, the window part of an image. -/
def cellsOf (o : Nat) (bs : List Byte) : List Host.Cell :=
  (((List.range bs.length).map (· + o)).zip bs).filter (fun c => c.2 != 0)
/-- The thread a record and its save area describe, in a slot with a window base (27:R319). -/
def threadOf (recA : Word) (rb image block : List Byte) (tid wbase : Nat) : Thread :=
  let w := wordAt rb
  let b := wordAt block
  let v (i : Nat) : Word := BitVec.ofNat 64 (b i)
  let mw := b 5
  { Thread.empty with
    live := true, tid := tid
    info := ⟨recA, addr52 (bits (w 2) 51 10 * 1024), bits (w 6) 63 62, bits (w 6) 49 48, bits (w 6) 47 32, bits (w 6) 31 16,
      bits (w 6) 15 12, bits (w 6) 11 8, bits (w 5) 5 4, bitOf (w 7) 0, bits (w 7) 63 32⟩
    dom := bits (w 1) 11 2, priv := if bits (w 1) 1 0 = 0 then .u else .s, gran := bits (w 2) 63 57, wbase := wbase
    pc := BitVec.ofNat 64 (w 0)
    regs := Vector.ofFn (fun i => if i.val = 0 then 0 else BitVec.ofNat 64 (wordAt image i.val))
    win := cellsOf 256 (image.drop 256)
    guards := (List.range 7).map (fun i => if bits (w 3) (2 * i) (2 * i) = 1 then .tru else .fls)
    lp0 := Loop.of (bits (w 4) 31 0), lp1 := Loop.of (bits (w 4) 63 32)
    lps := if bitOf (w 4) 31 then addr52 (bits (w 3) 63 14 * 4) else 0
    vv := v 2, va := v 3, vx := v 4, fx := BitVec.ofNat 6 (b 0), oob := v 1
    sb := bankOf b 6, hb := bankOf b 11
    mu := ⟨[32, 32, 32, 32], (List.range 4).map (fun i => BitVec.ofNat 6 (bits mw (8 * i + 5) (8 * i))),
      (List.range 4).map (fun i => bits mw (33 + 2 * i) (32 + 2 * i)), bits mw 47 40⟩
    cnt := (List.range 8).map (fun i => v (16 + i)), sel := (List.range 8).map (fun i => v (24 + i))
    flow := { Flow.fresh with gba := bitOf mw 48 } }

end Sys2Proof.Machine
end

