-- ==== Sys2Proof/Machine/Slots.lean ====
section
/-! DEFINITION. Threads entering and leaving thread slots: the run's results, the save area and the record, claims, the slot's
holder (03:R28-R35, R48, 11:R151, R158, 15:R207, 23:R286-R287, 27:R311-R313, R318-R319). -/

namespace Sys2Proof.Machine
open Sys2Proof

-- Results of a run ----------------------------------------------------------------------------------------------------

/-- An engine that no package has. -/
def noEngine : Nat := 2 ^ 20
/-- The engine a job handle names, and its job identifier; none for a reserved field or class (13:R188). A bay 3, or a cluster or bay of a
collective engine, names no job. -/
def handleEngine (h : Word) : Option (Nat × Nat) :=
  let x := h.toNat
  if bits x 63 26 ≠ 0 then none
  else match bits x 25 24 with
    | 0 => some (if bits x 17 16 = 3 then noEngine else 48 * bits x 23 22 + 3 * bits x 21 18 + bits x 17 16, x % 65536)
    | 1 => some (if bits x 21 16 = 0 then 192 + bits x 23 22 else noEngine, x % 65536)
    | _ => none
def State.engine (s : State) (e : Nat) : Engine := lookupD s.eng.engines e .reset
def State.setEngine (s : State) (e : Nat) (x : Engine) : State := { s with eng := { s.eng with engines := setKey s.eng.engines e x } }
/-- The unretired job of a handle that a thread issued (13:R188). -/
def State.job? (s : State) (h : Word) (who : Nat × Word) : Option (Nat × JobEntry) :=
  match handleEngine h with
  | none => none
  | some (e, jid) => ((s.engine e).jobs.find? (fun j => j.jid == jid && j.win.isNone && j.who == who)).map (fun j => (e, j))
def State.dropJob (s : State) (e jid : Nat) : State :=
  s.setEngine e { s.engine e with jobs := (s.engine e).jobs.filter (fun j => j.jid != jid) }

/-- The jobs of a thread that has ended retire when they end (13:R191). -/
def State.orphanJobs (s : State) (who : Nat × Word) : State :=
  let ended (j : JobEntry) : Bool := j.who == who && j.win.isNone && j.stage == 2
  let mark (j : JobEntry) : JobEntry := if j.who == who then { j with orphan := true } else j
  let engines := s.eng.engines.map (fun (p : Nat × Engine) => (p.1, { p.2 with jobs := (p.2.jobs.filter (fun j => !ended j)).map mark }))
  { s with eng := { s.eng with engines := engines } }

/-- The value of an outstanding result: its bytes, its flags and the fault it reports (03:R34-R35, 13:R191, R194). -/
def State.srcResult (s : State) (t : Thread) (x : Src) : List Byte × Flags × Option Trap × State :=
  match x with
  | .parts ps fix =>
    let bs := (partBytes ps).getD []
    match fix with
    | .raw => (bs, 0, none, s)
    | .scalar sz ef => (leBytes 8 (scalarValue sz ef bs).toNat, 0, none, s)
    | .vector w n ef dec => (vectorBytes w n ef dec bs, 0, none, s)
    | .old n sg => (leBytes 8 (if sg then sextN (8 * n) 64 (leNat bs) else leNat bs), 0, none, s)
    | .afadd y =>
      let r := Num.add (Fmt.f32.val (leNat bs)) (Fmt.f32.val y)
      let c := enc .f32 r.1
      (leBytes 8 (leNat bs), r.2 ||| c.2, none, s)
  | .watermark a => (leBytes 8 (t.mu.wm.getD a 32), 0, none, s)
  | .winState w =>
    match (s.tile t.tile).wins.find? (fun p => p.1 == w) with
    | some (_, x) => (leBytes 8 (x.state + 4 * x.code), 0, none, s)
    | none => (leBytes 8 0, 0, none, s)
  | .jobState h =>
    match s.job? h t.who with
    | none => (leBytes 8 0, 0, none, s)
    | some (e, j) =>
      if j.stage = 0 then (leBytes 8 1, 0, none, s)
      else if j.stage ≠ 2 then (leBytes 8 2, 0, none, s)
      else if j.st = 4 then (leBytes 8 0, 0, some ⟨.engine, j.code, j.card⟩, s.dropJob e j.jid)
      else (leBytes 8 0, j.fx, none, s.dropJob e j.jid)
  | .late i a b d =>
    let r := vecEval i a.bytes b.bytes d.bytes
    (r.1, r.2, none, s)

/-- A result has returned (03:R34, 07:R93). -/
def Outst.complete (t : Thread) (o : Outst) : Bool :=
  match o.src with
  | .parts ps _ => (partBytes ps).isSome
  | .late _ a b d => (a.rows ++ b.rows ++ d.rows).all t.rowPast
  | _ => true
def Thread.outsDone (t : Thread) : Bool := t.flow.outs.all (·.complete t)

/-- A result that brings flags (05:R63). -/
def Src.flagged : Src → Bool
  | .parts _ (.afadd _) => true
  | .late .. => true
  | .jobState _ => true
  | _ => false
/-- An earlier instruction's flags have not come (05:R63). -/
def Thread.awaitsFlags (t : Thread) : Bool := t.flow.outs.any (fun o => o.src.flagged && !o.complete t)
/-- The flags of earlier results of the run enter TS.FX, in program order before an access of it; the results await the park without
them (05:R63). -/
def takeFlagsFrom : List Outst → State → List Outst × State
  | [], s => ([], s)
  | o :: os, s =>
    if o.src.flagged then
      let (bs, fx, ft, s) := s.srcResult s.th o.src
      let o' := { o with src := .parts [.have bs] .raw, fault := o.fault.or ft }
      let s := if o'.fault.isNone then { s with th := { s.th with fx := s.th.fx ||| fx } } else s
      let r := takeFlagsFrom os s
      (o' :: r.1, r.2)
    else
      let r := takeFlagsFrom os s
      (o :: r.1, r.2)
def State.takeFlags (s : State) : State :=
  let s := { s with th := s.th.capture }
  let r := takeFlagsFrom s.th.flow.outs s
  { r.2 with th := { r.2.th with flow := { r.2.th.flow with outs := r.1 } } }

/-- Writes window bytes where a destination byte still belongs to the result. -/
def writeOffs (m : List Host.Cell) : List Nat → List Byte → List Host.Cell
  | o :: os, b :: bs => writeOffs (if o = 0 then m else setByte m o b) os bs
  | _, _ => m
/-- Writes the outstanding results of the issuing thread in program order; answers their faults (03:R34-R35). -/
def State.settleFrom : List Outst → State → List Trap × State
  | [], s => ([], s)
  | o :: os, s =>
    let (bs, fx, ft, s) := s.srcResult s.th o.src
    let fault := match o.fault with
      | some f => some f
      | none => ft
    let s := match fault with
      | some _ => s
      | none =>
        let t := s.th.setRaw o.g (BitVec.ofNat 64 (leNat bs))
        { s with th := { t with win := writeOffs t.win o.win bs, fx := t.fx ||| fx } }
    let r := State.settleFrom os s
    (fault.toList ++ r.1, r.2)
def State.settle (s : State) : List Trap × State :=
  let s := { s with th := s.th.capture }
  let r := State.settleFrom s.th.flow.outs s
  (r.1, { r.2 with th := { r.2.th with flow := { r.2.th.flow with outs := [] } } })

-- The holder of an issue slot -----------------------------------------------------------------------------------------

/-- Matrix commands of a thread, or received on its accumulators, not yet complete (11:R151). -/
def State.muBusy (s : State) (t : Thread) : Bool :=
  !t.flow.mq.isEmpty || (s.tile t.tile).mrun.any (·.entry.tid == t.tid) || (s.tile t.tile).mrecv.any (·.tid == t.tid)
/-- Earlier stores of the thread to other packages are acknowledged (29:R324); held stores are not waited for (19:R260). -/
def State.storesDone (s : State) (tid : Nat) : Bool :=
  s.pl.posted.all (fun p => p.tid != tid) && s.pl.rests.all (fun r => r.acc.tid != tid) &&
    s.pl.flags.all (fun f => f.tid != tid || f.tags.all (fun g => s.ms.larder.any (·.tag == g)))
/-- A router message whose answer returns to the thread in a slot (01:R15). -/
def RouterMsg.awaitedBy (m : RouterMsg) (tid : Nat) : Bool :=
  match m with
  | .mmar _ src .. => src == tid
  | .scale _ src .. => src == tid
  | .acvt _ src .. => src == tid
  | .status src .. => src == tid
  | .scaleAck src .. => src == tid
  | .rows src .. => src == tid
  | .packetAck src .. => src == tid
  | .packetWait _ src _ _ => src == tid
/-- Resolved condition guards are kept with the queued commands and jobs that they hold (07:R94, 13:R189). -/
def State.noteGuards (s : State) : State :=
  let s := s.mapThreads (fun t => { t with flow := { t.flow with mq := t.flow.mq.map (fun e => { e with guard := t.noted e.guard }) } })
  let job (j : JobEntry) : JobEntry := match s.thread? j.tid with
    | some t => if t.who == j.who then { j with guard := t.noted j.guard } else j
    | none => j
  let engines := s.eng.engines.map (fun (p : Nat × Engine) => (p.1, { p.2 with jobs := p.2.jobs.map job }))
  { s with eng := { s.eng with engines := engines } }
/-- Nothing keeps the thread's record from being written (03:R29): no result, guard, matrix command or message of it is in flight, its
stores are performed (19:R253). -/
def State.leaveReady (s : State) (t : Thread) : Bool :=
  t.flow.outs.isEmpty && t.flow.egress.isEmpty && t.guards.all (· != .pend) && !s.muBusy t && s.storesDone t.tid &&
    !s.eng.router.any (·.awaitedBy t.tid)

/-- A leaving thread leaves its slot now: a gang that is stopped leaves as a whole, each of its threads at its boundary (03:R26, R48). -/
def State.mayLeave (s : State) (t : Thread) : Bool :=
  s.leaveReady t && (t.flow.leave < 3 || 6 ≤ t.flow.leave ||
    (s.gangOfThread t).all (fun u => u.tid == t.tid || (u.status == .leaving && s.leaveReady u)))

/-- Handling mode of a cause met in a mode (27:R311). -/
def Cause.target (c : Cause) (m : Priv) : Priv :=
  match c with
  | .domain => .h | .mcheck => .h | .double => .h | .novec => .h
  | .compact => .s | .record => .s | .sealto => .s
  | .svc => if m = .u then .s else .h
  | _ => if m = .h then .h else .s
def Cause.code (c : Cause) : Nat :=
  match c with
  | .illenc => 1 | .illstate => 2 | .transient => 3 | .priv => 4 | .xlate => 5 | .align => 6 | .cprot => 7 | .domain => 8
  | .cap => 9 | .wdog => 10 | .engine => 11 | .notile => 12 | .swtrap => 13 | .svc => 14 | .compact => 15 | .record => 16
  | .sealto => 17 | .mcheck => 18 | .double => 19 | .novec => 20
def Thread.bank (t : Thread) (m : Priv) : TrapBank := if m = .h then t.hb else t.sb
def Thread.setBank (t : Thread) (m : Priv) (b : TrapBank) : Thread := if m = .h then { t with hb := b } else { t with sb := b }
def Thread.busy (t : Thread) (m : Priv) : Bool := bitOf (t.bank m).estat.toNat 2

/-- Order of asynchronous causes at one boundary (27:R313). -/
def asyncRank (c : Cause) : Nat :=
  match c with
  | .compact => 1 | .sealto => 2 | .wdog => 3 | .record => 4 | _ => 0
/-- Asynchronous causes of a thread, the watchdog's among them (27:R311-R312, 03:R33). -/
def Thread.causes (t : Thread) : List Trap :=
  t.flow.asyncs ++ (if t.flow.wdog then [⟨.wdog, 0, if t.flow.aborted then 1 else 0⟩] else [])
/-- The asynchronous cause that is taken first among those not held by a busy bank (27:R312-R313). Inside a gate call only the
watchdog's and SEALTO are taken (15:R211, 27:R316; log 18). -/
def Thread.nextCause (t : Thread) : Option Trap :=
  let ok := t.causes.filter (fun x => (x.cause == .wdog || !t.busy (x.cause.target t.priv)) &&
    (t.caller.isNone || x.cause == .wdog || x.cause == .sealto))
  (List.range 5).findSome? (fun r => ok.find? (fun x => asyncRank x.cause == r))
/-- An instruction boundary at which asynchronous causes may be taken, outside gate calls a pre-emption boundary (03:R48). A thread that
has arrived at a barrier is not inside its group; one whose checkpoint a seal has taken stands still until it is resumed (21:R267-R268). -/
def Thread.atBoundary (t : Thread) : Bool :=
  t.flow.packet.isNone && t.flow.chain.isNone && (t.flow.group.isNone || t.status == .gbar || t.status == .sync) &&
    t.flow.pend.isNone && t.flow.hold == 0 && !t.flow.sealed &&
    t.status != .parked && t.status != .leaving && t.status != .sealing
/-- A hold that an expired watchdog ends: the boundary before the held instruction is then one at which causes are taken (03:R349). -/
def Thread.givesWay (t : Thread) : Bool :=
  t.flow.wdog && (t.flow.hold == 1 || t.flow.hold == 4) && t.flow.packet.isNone && t.flow.chain.isNone
/-- The asynchronous cause due now, if any: at a boundary, and where a hold gives way, the first of all due there (03:R349, 27:R313). -/
def Thread.due (t : Thread) : Option Trap := if t.atBoundary || t.givesWay then t.nextCause else none
/-- The stop requested of a thread or of one of its gang, which is pre-empted as a whole (03:R48), as in Flow.preempt: in a forced
seal, and once the seal timeout has expired, every thread that has not arrived is a laggard (21:R267). -/
def State.stopKind (s : State) (t : Thread) : Nat :=
  let g := s.gangOfThread t
  match g.find? (fun u => u.flow.preempt != 0) with
  | some u => u.flow.preempt
  | none => match s.nodeOf t.home with
    | some n => if ((s.rgs n).forced || ((s.rgs n).sealing && (s.rgs n).late)) && g.any (fun u => !u.flow.sealed) then 3 else 0
    | none => 0
/-- A requested pre-emption takes effect now (03:R48, 13:R213): at a boundary, before a stalled store (21:R269, R271), and where the
thread waits, arrived, while its gang goes; compacts wait for their boundary (03:R47). -/
def State.stopDue (s : State) (t : Thread) : Bool :=
  s.stopKind t != 0 && t.caller.isNone && (s.memberOf t.tid).isNone &&
    ((t.atBoundary && t.nextCause.isNone) || (t.flow.hold == 3 && t.flow.packet.isNone && t.flow.chain.isNone) ||
      (t.status == .sealing && t.flow.sealed))

/-- The thread can act when it gets the slot (03:R31): it is ready, or what it waits for may have come. A thread whose checkpoint the seal of
its compact has taken does not run until SEALED (21:R267-R268). -/
def State.canRun (s : State) (t : Thread) : Bool :=
  t.live && (t.due.isSome || s.stopDue t || (match t.status with
    | .ready => !t.flow.sealed
    | .waiting => !t.flow.sealed
    | .parked => t.outsDone
    | .windowPark w => !t.flow.sealed && (match (s.tile t.tile).wins.find? (fun p => p.1 == w) with
        | some (_, x) => x.state != 1
        | none => true)
    | .leaving => s.mayLeave t
    | _ => false))

/-- Threads of one issue slot (03:R30). -/
def sameSlot (a b : Nat) : Bool := a / 4 == b / 4
/-- Makes a thread the one that issues next. -/
def State.focus (s : State) (tid : Nat) : State :=
  if s.th.live && s.th.tid == tid then s
  else match s.others.find? (fun t => t.tid == tid) with
    | none => s
    | some t =>
      let rest := s.others.filter (fun u => u.tid != tid)
      { s with th := t, others := if s.th.live then rest ++ [s.th] else rest }
/-- Gives the issue slot of a thread to it, and makes it issue next. -/
def State.grant (s : State) (tid : Nat) : State :=
  (s.mapThreads (fun t => if sameSlot t.tid tid then { t with flow := { t.flow with holder := t.tid == tid } } else t)).focus tid
/-- The next thread of an issue slot that can act, in increasing thread-slot order with wrap-around, the given one last (03:R31). -/
def State.nextOn (s : State) (tid : Nat) : Option Nat :=
  ([1, 2, 3, 4].map (fun k => tid / 4 * 4 + (tid + k) % 4)).find? (fun x => match s.thread? x with
    | some t => s.canRun t
    | none => false)
/-- The slot's watchdog restarts, with the period last set (03:R33, 15:R215). -/
def State.restartWatchdog (s : State) (tid : Nat) : State :=
  let t := s.tile (tid / 16)
  s.setTile (tid / 16) { t with wdexp := t.wdexp.set (tid % 16) (t.wdnew.getD (tid % 16) 24) }
/-- The thread that a slot issues for, by one of its threads: its holder while that can act, else the next one that can (03:R30-R31). -/
def State.slotTurn (s : State) (u : Thread) : Option Nat :=
  if u.flow.holder || !s.threads.any (fun v => sameSlot v.tid u.tid && v.flow.holder) then
    (if s.canRun u then some u.tid else s.nextOn u.tid)
  else none
/-- Another thread gets the turn: the next one of the slot of `tid`, else that of another slot, else none (03:R31). -/
def State.passOn (s : State) (tid : Nat) : State :=
  match s.nextOn tid with
  | some t => s.grant t
  | none => match (s.others.filter (fun u => !sameSlot u.tid tid)).findSome? s.slotTurn with
    | some t => s.grant t
    | none => s
/-- A suspension point of the issuing thread: the watchdog restarts and the slot passes on (03:R31, R33). -/
def State.suspend (s : State) : State := (s.restartWatchdog s.th.tid).passOn s.th.tid

/-- Empties a slot: MU.HOST of its thread ends, its number kept, scale entries tagged with it go, a gate it holds is free, and what its guards
have resolved to stays with its jobs (11:R151, R158, 13:R189, 15:R211). -/
def State.vacate (s : State) (tid : Nat) : State :=
  let s := s.noteGuards
  let t := s.tile (tid / 16)
  let gate := (s.thread? tid).bind (fun u => u.caller.map (fun c => (c.dom, c.gate)))
  let s := s.setTile (tid / 16) { t with
    host := t.host.map (fun h => if h.2 = tid % 16 then (false, h.2) else h)
    gates := match gate with
      | some g => t.gates.erase g
      | none => t.gates
    scq := t.scq.filter (fun e => e.slot != tid % 16) }
  let mine := s.th.live && s.th.tid == tid
  let held := s.threads.any (fun t => t.tid == tid && t.flow.holder)
  let s := (s.freeSlot tid).restartWatchdog tid
  if mine then s.passOn tid
  else if held then
    (match s.nextOn tid with
      | some u => s.mapThreads (fun t => if t.tid == u then { t with flow := { t.flow with holder := true } } else t)
      | none => s)
  else s
/-- A thread enters its slot; it holds the issue slot when no other thread of it does, has the causes and faults again that were held
for it when it left (03:R35), and takes a RECORD cause kept for its domain on the tile (27:R311). -/
def State.enter (s : State) (t : Thread) : State :=
  let holder := !(s.threads.any (fun u => sameSlot u.tid t.tid && u.flow.holder))
  let mine (p : Nat × Nat × Word) : Bool := p.1 == t.tile && p.2.1 == t.dom
  let as := (s.st.pendTrap.filter (fun p => p.1 == t.who)).map (·.2) ++
    (s.st.pendRec.filter mine).map (fun p => (⟨.record, 0, p.2.2⟩ : Trap))
  let held := (s.st.pendHeld.filter (fun p => p.1 == t.who)).map (·.2)
  let t := { t with flow := { t.flow with
    holder := holder, asyncs := t.flow.asyncs ++ as, held := t.flow.held ++ held, gdone := s.st.pendGbar.contains t.who
    irr := if s.st.pendIrr.contains t.who then 2 else 0 } }
  let s := s.addThread t
  { s with st := { s.st with
      pendRec := s.st.pendRec.filter (fun p => !mine p), pendTrap := s.st.pendTrap.filter (fun p => p.1 != t.who)
      pendHeld := s.st.pendHeld.filter (fun p => p.1 != t.who), pendGbar := s.st.pendGbar.filter (· != t.who)
      pendIrr := s.st.pendIrr.filter (· != t.who) } }
/-- The causes and held faults of a thread that leaves its slot are kept for its record (03:R35), with the word that the seal it is a
laggard of is the one its irrevocable store waits for (13:R171). -/
def State.keepCauses (s : State) (t : Thread) : State :=
  { s with st := { s.st with
      pendTrap := s.st.pendTrap ++ t.flow.asyncs.map (fun x => (t.who, x))
      pendHeld := s.st.pendHeld ++ t.flow.held.map (fun x => (t.who, x))
      pendGbar := s.st.pendGbar ++ (if t.flow.gdone then [t.who] else [])
      pendIrr := s.st.pendIrr ++ (if t.flow.irr = 1 ∧ t.flow.leave = 5 then [t.who] else []) } }
/-- What was kept for a record is dropped: its thread is stopped for good (03:R35). -/
def State.dropCauses (s : State) (who : Nat × Word) : State :=
  { s with st := { s.st with
      pendTrap := s.st.pendTrap.filter (fun p => p.1 != who), pendHeld := s.st.pendHeld.filter (fun p => p.1 != who)
      pendGbar := s.st.pendGbar.filter (· != who), pendIrr := s.st.pendIrr.filter (· != who)
      pendSpawn := s.st.pendSpawn.filter (fun p => p.1 != who) } }

-- Leaving -------------------------------------------------------------------------------------------------------------

/-- Writes a save area or record line by line: the lines that pass are written; answers the first cause (03:R29). -/
def State.putLines (s : State) (f : Nat) : Nat → Word → List Byte → State × Option Cause
  | 0, _, _ => (s, none)
  | n + 1, va, bs =>
    if bs.isEmpty then (s, none)
    else match s.sysWrite f va (bs.take 64) with
      | .ok s => s.putLines f n (va + 64) (bs.drop 64)
      | .error t =>
        let r := s.putLines f n (va + 64) (bs.drop 64)
        (r.1, some t.cause)
/-- A slot number that no thread has. -/
def noSlot : Nat := 2 ^ 20
/-- A member thread has ended as fatal: no other thread takes its place in the compact, which stays as it stands (03:R37; DESIGN CHOICE,
log 74). -/
def State.memberEnds (s : State) (tid : Nat) : State :=
  let leave (m : Member) : Member := if m.tid = tid then { m with tid := noSlot } else m
  let compacts := s.eng.compacts.map (fun (c : Nat × Compact) => if c.2.preempted then c else (c.1, { c.2 with members := c.2.members.map leave }))
  { s with eng := { s.eng with compacts := compacts } }
/-- Ends a thread as fatal: record FAULTED, slot freed, FATAL posted (03:R29, 15:R207); its code is that of the cause, also where the record or
the save area lies on a pinned line or in a retired tile's slot, which R29 does not name (DESIGN CHOICE, log 79). -/
def State.fatal (s : State) (t : Thread) (c : Nat) : State :=
  let s := (((s.setRecState t.home t.info.addr 5).orphanJobs t.who).memberEnds t.tid).vacate t.tid
  s.postFatal t.home t.info.addr c
/-- STATE written by a way of leaving (03:R29). -/
def Thread.leaveState (code : Nat) : Nat := if code = 1 then 4 else if code = 2 then 3 else 1

/-- A thread's checkpoint of its group's interval is part of the seal in progress (21:R267). -/
def State.arrive (s : State) (t : Thread) (laggard : Bool) : State :=
  match s.nodeOf t.home with
  | none => s
  | some n =>
    let g := s.rgs n
    let e : RunEntry := ⟨dieOf t.tile, t.home, t.info.pri, t.info.addr⟩
    s.setRgs n { g with
      arrived := if g.arrived.contains e then g.arrived else g.arrived ++ [e]
      laggards := if laggard then g.laggards ++ [e] else g.laggards }
/-- A record waits on a line: at the line's home directory, linked behind those that wait there (03:R27, 13:R178); of another
package's line, that package is told. One that was woken on its way out of the slot is runnable again. -/
def State.addWaiter (s : State) (t : Thread) : State :=
  match t.flow.waitAt with
  | none => (s.setRecState t.home t.info.addr 1).enqueue ⟨dieOf t.tile, t.home, t.info.pri, t.info.addr⟩
  | some pa =>
    if pa / 2 ^ 48 ≠ s.me then
      let w : Waiter := ⟨2 ^ 61 + 16 * s.fresh + pa / 2 ^ 48, t.info.addr, t.home, t.info.pri, dieOf t.tile, none⟩
      State.tick (({ s.emit (.request .waiter (pa / 2 ^ 48) s.fresh pa t.home (s.rinOf t.home) []) with ms := { s.ms with waits := s.ms.waits ++ [w] } }).flits t.home 0)
    else
      let w : Waiter := ⟨pa % 2 ^ 48, t.info.addr, t.home, t.info.pri, dieOf t.tile, none⟩
      let s := match (s.ms.waits.filter (fun x => x.line == w.line && x.dom == w.dom && x.far.isNone)).getLast? with
        | some x => s.linkRec x.dom x.recA w.recA
        | none => s
      { s with ms := { s.ms with waits := s.ms.waits ++ [w] } }
/-- A thread leaves its slot: save area, record, slot freed, queued again where the way of leaving says so (03:R29), or it ends as fatal.
Codes as in Flow.leave. A thread of a laggard's gang that has arrived at the seal leaves with the checkpoint it has (21:R267). -/
def State.leaveSlot (s : State) (t : Thread) : State :=
  let code := t.flow.leave
  if 16 ≤ code then s.fatal t (code - 16)
  else if code = 5 && t.flow.sealed then (((s.setRecState t.home t.info.addr 1).vacate t.tid).keepCauses t).arrive t true else
  let t := { t with info := { t.info with ckv := code == 5, rin := if code = 5 then s.rinOf t.home else 0 } }
  let w1 := s.putLines t.home 1100 t.info.save (t.image ++ t.block)
  let w2 := w1.1.putLines t.home 2 t.info.addr (t.record (Thread.leaveState code))
  let s := w2.1
  match w1.2, w2.2 with
  | some c, _ => s.fatal t c.code
  | none, some c => s.fatal t c.code
  | none, none =>
    let s := s.vacate t.tid
    let s := if code = 1 then s.orphanJobs t.who else s.keepCauses t
    if code = 2 then s.addWaiter t
    else if code = 3 then s.enqueue ⟨dieOf t.tile, t.home, t.info.pri, t.info.addr⟩
    else if code = 4 then
      s.mapThreads (fun u => match u.flow.ctx with
        | some (x, r, _) => if x = t.tid then { u with flow := { u.flow with ctx := some (x, r, true) } } else u
        | none => u)
    else if code = 5 then s.arrive t true
    else s

/-- A thread that may leave its slot leaves it; where its gang is stopped, all of the gang (03:R26, R48). -/
def State.leaveGang (s : State) (t : Thread) : State :=
  if t.flow.leave < 3 || 6 ≤ t.flow.leave then s.leaveSlot t
  else (s.gangOfThread t).foldl (fun s u => match s.thread? u.tid with
    | some v => s.leaveSlot (if v.tid = t.tid then t else v)
    | none => s) s

/-- A checkpoint of a resident thread for its group's interval, with the pc it resumes at; a failing write ends it as fatal
(21:R267, 13:R200, 03:R29). -/
def State.checkpoint (s : State) (t : Thread) (pc : Word) : State × Bool :=
  let t' := { t with pc := pc, info := { t.info with ckv := true, rin := s.rinOf t.home } }
  let w1 := s.putLines t.home 1100 t.info.save (t'.image ++ t'.block)
  let w2 := w1.1.putLines t.home 2 t.info.addr (t'.record 2)
  match w1.2, w2.2 with
  | some c, _ => (w2.1.fatal t c.code, false)
  | none, some c => (w2.1.fatal t c.code, false)
  | none, none => (w2.1.arrive t false, true)

-- Traps ---------------------------------------------------------------------------------------------------------------

/-- Trap vector of a mode for a domain (15:R205). -/
def State.tvec (s : State) (m : Priv) (dom : Nat) : Word :=
  let v := if m = .h then s.st.htvec else (s.cfg dom).svec
  BitVec.ofNat 64 (v.toNat / 4 * 4)
/-- Where a trap goes after the redirections of 15:R207: cause, subcause, value and mode, or the code of a fatal end. -/
def State.redirect (s : State) (t : Thread) (x : Trap) : Except Nat (Trap × Priv) :=
  let m := x.cause.target t.priv
  if t.busy m then
    if m = .s then
      if s.tvec .h t.dom = 0 then .error 20
      else if t.busy .h then .error 19
      else .ok (⟨.double, 0, BitVec.ofNat 64 x.cause.code⟩, .h)
    else .error 19
  else if s.tvec m t.dom = 0 then
    if m = .s then
      if t.busy .h then .error 19
      else if s.tvec .h t.dom = 0 then .error 20
      else .ok (⟨.novec, 0, x.tval⟩, .h)
    else .error 20
  else .ok (x, m)
/-- The issuing thread ends as fatal: at once, or, where commands of it are under way, once they have completed (11:R151, 15:R207). -/
def State.endFatal (s : State) (c : Nat) : State :=
  if s.leaveReady s.th then s.fatal s.th c
  else { s with th := { s.th with status := .leaving, flow := { s.th.flow with
    leave := 16 + c, bypass := [], chain := none, group := none, packet := none, pend := none, hold := 0, heldReads := [] } } }.suspend
/-- TAKING AN EXCEPTION (15:R207): the issuing thread enters the handling mode of a cause with a restart point; its results are
already written. A trap is a suspension point (03:R30). -/
def State.enterTrap (s : State) (x : Trap) (epc : Word) : State :=
  let t := s.th
  match s.redirect t x with
  | .error c => s.endFatal c
  | .ok (y, m) =>
    let pkt := t.flow.packet.isSome
    let b := t.bank m
    let t := t.setBank m { b with
      epc := epc
      estat := pack [(b2n pkt, 3), (1, 2), (t.priv.code, 0)]
      cause := pack [(y.sub, 8), (y.cause.code, 0)]
      tval := y.tval }
    let t := { t with
      priv := m, pc := s.tvec m t.dom, status := .ready
      flow := { t.flow with bypass := [], chain := none, group := none, jumped := false, packet := none, pend := none,
                            hold := 0, heldReads := [], waitVa := none, waitAt := none, irr := 0, decoded := false } }
    { s with th := t }.suspend

/-- Order of synchronous causes at one boundary (27:R313). -/
def syncRank (c : Cause) : Nat :=
  match c with
  | .illenc => 0 | .transient => 0 | .priv => 0 | .align => 1 | .xlate => 2 | .domain => 3 | .cprot => 4 | .cap => 5
  | _ => 6
/-- Causes in the order of R313, equal ones in program order. The decoder's own ILLSTATE goes before them all (Flow.decoded). -/
def sortTraps (l : List Trap) : List Trap := (List.range 7).flatMap (fun r => l.filter (fun t => syncRank t.cause == r))

/-- The restart point of a fault of the issuing thread's instruction (07:R84, R88). -/
def Thread.faultPc (t : Thread) : Word := match t.flow.chain with
  | some c => c.start
  | none => t.groupStart
/-- Writes the run's results at its boundary and takes the first fault due there; the others are held (03:R34-R35). -/
def State.takePark (s : State) : State :=
  let r := s.settle
  let s := r.2
  let epc := match s.th.flow.pend with
    | some (_, e) => e
    | none => s.th.groupStart
  let own := match s.th.flow.pend with | some (x, _) => [x] | none => []
  let all := if s.th.flow.decoded then own ++ sortTraps r.1 else sortTraps (r.1 ++ own)
  match all with
  | [] => { s with th := { s.th with status := .ready, flow := { s.th.flow with decoded := false } } }
  | x :: rest =>
    ({ s with th := { s.th with flow := { s.th.flow with held := rest.map (·, epc) ++ s.th.flow.held } } }).enterTrap x epc
/-- A synchronous fault of the issuing thread's instruction: the results of its run are written first (03:R35, 07:R88). -/
def State.raise (s : State) (x : Trap) (epc : Word) : State :=
  let t := s.th
  let t := { t with flow := { t.flow with bypass := [], chain := none, group := none, jumped := false, hold := 0,
                                          heldReads := [], pend := some (x, epc) } }
  let s := { s with th := t }
  if t.outsDone then s.takePark
  else { s with th := { t with status := .parked, flow := { t.flow with since := (s.tile t.tile).cyc } } }.suspend

end Sys2Proof.Machine
end

