-- ==== Sys2Proof/Machine/Ops.lean ====
section
/-! DEFINITION. The issue of one instruction: hint groups, transient chains, packets and privilege before it; loops, chain,
marker, counters and the slot after it (03:R30-R35, 07:R79-R88, 09:R118-R119, 13:R181, 15:R203, R207-R209, 25:R307). -/

namespace Sys2Proof.Machine
open Sys2Proof

/-- How a taken transfer meets loops and hint groups (07:R84, 09:R119). -/
inductive Jump where
  | branch   -- closes loops it leaves; may not enter a hint group
  | call     -- leaves loops alone; may not enter a hint group
  | skip     -- neither: LOOP over an empty body, GATE
  deriving DecidableEq, Repr

/-- What an instruction does once it issues. -/
inductive Done where
  | ok (s : State)                               -- completes
  | jump (k : Jump) (target : Word) (s : State)  -- completes with a taken transfer
  | again (s : State)                            -- a block move's next byte: the same word issues again
  | trap (t : Trap)                              -- a precise trap with no effect
  | trapAt (t : Trap) (epc : Word)               -- a trap with its own restart point (SVC)
  | trapWith (t : Trap) (s : State)              -- a precise trap that keeps an effect (JOBW)
  | hold (kind : Nat) (s : State)                -- holds the slot; the kinds of Flow.hold (03:R349, 21:R269)
  | wait (st : Status) (s : State)               -- a suspension point that waits
  | drain (s : State)                            -- waits at a park for the results of its run first, then issues again
  | pass (s : State)                             -- completes as a suspension point
  | left (s : State)                             -- the thread has left its slot
  | refuse (r : Refusal)

-- Before -------------------------------------------------------------------------------------------------------------

def privRank (p : Priv) : Nat := match p with | .u => 0 | .s => 1 | .h => 2
/-- The word of an instruction. -/
def wordOf (i : Instr) : Nat := (encode i).getD 0
/-- TS.TVAL of an illegal encoding: the word and its position in its group (07:R79). -/
def illencTval (w pos : Nat) : Word := BitVec.ofNat 64 (w % 2 ^ 32 + pos * 2 ^ 32)
/-- A hint that the group's instruction does not permit (07:R81-R82). -/
def hintBad (f : Form) (h : Instr) : Bool :=
  match h with
  | .himm .. => !f.himm
  | .hmod _ r e _ c => (r == 1 && !f.irr) || (e == 1 && !f.efe) || (c != 0 && !f.cp)
  | _ => false
/-- The first hint of the group that breaks R80 for its instruction (07:R80-R82). -/
def groupError (f : Form) : List Instr → Nat → Option Trap
  | [], _ => none
  | h :: hs, n => if hintBad f h then some ⟨.illenc, 0, illencTval (wordOf h) n⟩ else groupError f hs (n + 1)

/-- The loop whose end word this is steps back unless the instruction writes its count (09:R118). -/
def Thread.stepsBack (t : Thread) (i : Instr) : Bool :=
  let w := (regsOf i).2.1
  let test (l : Loop) (e : Nat) : Option Bool :=
    if l.act && t.pc.toNat == e then (if w.contains l.creg then some false else if 1 < (t.gr l.creg).toNat then some true else none)
    else none
  match test t.lp1 t.loop1.2 with
  | some b => b
  | none => (test t.lp0 t.loop0.2).getD false
/-- Forms that may not stand in a chain but as its first producer (07:R87). -/
def Form.noChain (f : Form) : Bool :=
  f.store || (0x50 ≤ f.major && f.major ≤ 0x53) || (0x58 ≤ f.major && f.major ≤ 0x6B) || (0x2A ≤ f.major && f.major ≤ 0x2E)
/-- Forms that transfer control or move loops themselves. -/
def Form.moves (f : Form) : Bool := 0x20 ≤ f.major && f.major ≤ 0x2B
/-- A breach of the transient windows (07:R85, R87). -/
def Thread.transientBad (t : Thread) (i : Instr) : Bool :=
  let tr := transientMark (instrMark i)
  let f := (formOf i)
  let r := (regsOf i)
  let bad (inch : Bool) (count left : Nat) (reads : List (Nat × Nat)) : Bool :=
    (tr && 16 < count + 4) || ((instrMark i).s && left != 0) || (!tr && rangesMeet (t.ranges r.2.1 r.2.2.2) reads) ||
      (inch && f.noChain) || (!f.moves && t.stepsBack i) ||
      (tr && 0x41 ≤ f.major && f.major ≤ 0x44 && (t.ranges [] r.2.2.1).any (fun p => t.meetsAcc p.1 p.2))
  match t.flow.chain with
  | some c => bad true c.count (if tr then 3 else c.left - 1) c.reads
  | none => tr && bad false 0 3 []
/-- A form that may issue inside an open packet (13:R181). -/
def packetForm (i : Instr) : Bool :=
  (match i with | .sende .. => true | _ => !(instrMark i).s) &&
  (match i with
    | .send .. => true | .sende .. => true
    | _ => (formOf i).major ≤ 2 || (0x10 ≤ (formOf i).major && (formOf i).major ≤ 0x19))
/-- The checks before an instruction acts, in the order of R79: the trap it takes instead. -/
def Thread.precheck (t : Thread) (i : Instr) : Option Trap :=
  let f := (formOf i)
  match groupError f t.hints 0 with
  | some x => some x
  | none =>
    if t.transientBad i then some ⟨.transient, 0, t.pc⟩
    else if privRank t.priv < privRank f.priv then some ⟨.priv, 0, BitVec.ofNat 64 (wordOf i)⟩
    else if t.flow.packet.isSome && !packetForm i then some ⟨.illstate, 0, t.pc⟩
    else none

-- After --------------------------------------------------------------------------------------------------------------

/-- Hardware loops after an instruction at `t.pc` completes without a taken transfer (09:R118): the thread with its next pc. LP0 closes an
LP1 still active with it, as LP1.ACT requires LP0.ACT (03:R27; DESIGN CHOICE, log 75). -/
def Thread.loopStep (t : Thread) : Thread :=
  let next := { t with pc := t.pc + 4 }
  let outer (t : Thread) : Thread :=
    if t.lp0.act && t.pc.toNat == t.loop0.2 then
      let c := t.gr t.lp0.creg
      if c.toNat ≤ 1 then { (t.gw t.lp0.creg 0) with lp0 := .none, lp1 := .none, pc := t.pc + 4 }
      else { (t.gw t.lp0.creg (c - 1)) with pc := BitVec.ofNat 64 t.loop0.1 }
    else { t with pc := t.pc + 4 }
  if t.lp1.act && t.pc.toNat == t.loop1.2 then
    let c := t.gr t.lp1.creg
    if c.toNat ≤ 1 then outer { (t.gw t.lp1.creg 0) with lp1 := .none }
    else { (t.gw t.lp1.creg (c - 1)) with pc := BitVec.ofNat 64 t.loop1.1 }
  else if t.lp0.act then outer t
  else next
/-- Loops that a taken branch leaves close, with those inside them (09:R119). -/
def Thread.closeLoops (t : Thread) (target : Word) : Thread :=
  let x := target.toNat
  if t.lp0.act && !(t.loop0.1 ≤ x && x ≤ t.loop0.2) then { t with lp0 := .none, lp1 := .none }
  else if t.lp1.act && !(t.loop1.1 ≤ x && x ≤ t.loop1.2) then { t with lp1 := .none }
  else t

/-- The chain after an instruction of the thread `pre` (07:R86-R87). -/
def chainAfter (pre : Thread) (i : Instr) : Option Chain :=
  let tr := transientMark (instrMark i)
  let rd := pre.ranges (regsOf i).1 (regsOf i).2.2.1
  match pre.flow.chain with
  | some c =>
    let left := if tr then 3 else c.left - 1
    if left = 0 then none else some { c with count := c.count + 1, left := left, reads := c.reads ++ rd }
  | none => if tr then some ⟨pre.groupStart, 1, 3, rd⟩ else none
/-- Transient results whose windows still cover the next instruction (07:R86). -/
def ageBypass (l : List Bypass) : List Bypass :=
  (l.map (fun b => { b with left := b.left - 1 })).filter (fun b => b.left != 0)

/-- One cycle of a tile's clock passes, and more where timing adds them; the issuing thread's cycle counters run, in the mode of
`who` (15:R206, 25:R307; log 7). -/
def State.clockAs (s : State) (who : Thread) : State :=
  let n := 1 + Config.extraCycles s.fresh
  let t := s.tile s.th.tile
  let s := s.setTile s.th.tile { t with cyc := t.cyc + BitVec.ofNat 64 n }
  { s with th := s.th.countAs who 1 n, fresh := s.fresh + 1 }
def State.clock (s : State) : State := s.clockAs s.th
/-- The counters of an issued instruction, in the mode it issued in (25:R307-R308). -/
def Thread.counted (t pre : Thread) (i : Instr) : Thread :=
  let t := t.countAs pre 2 1
  if 0x40 ≤ (formOf i).major && (formOf i).major ≤ 0x44 then t.countAs pre 10 1 else t

/-- The thread between two instructions: group closed, chain and bypass moved on. A handler's instructions are not the
thread's own (13:R176). -/
def Thread.afterIssue (t pre : Thread) (i : Instr) (jumped : Bool) : Thread :=
  { t with status := .ready, flow := { t.flow with
      group := none, jumped := jumped, chain := chainAfter pre i, bypass := ageBypass t.flow.bypass, hold := 0,
      heldReads := [], synced := pre.flow.synced && (pre.busy .s || pre.busy .h), irr := 0 } }
/-- A switch marker parks the thread (03:R30, R34). -/
def State.marker (s : State) (i : Instr) : State :=
  if (instrMark i).s then
    let t := s.th.countEv 3 1
    let t := if t.flow.outs.isEmpty then t
      else { t with status := .parked, flow := { t.flow with since := (s.tile t.tile).cyc } }
    { s with th := t }.suspend
  else s
/-- Ends an instruction of the thread `pre` (09:R118, 07:R86, 03:R34): `s` is the state after its effect. -/
def State.retire (s : State) (pre : Thread) (i : Instr) : State :=
  let s := { s with th := (s.th.loopStep.afterIssue pre i false).counted pre i }.clockAs pre
  s.marker i
def State.retireJump (s : State) (pre : Thread) (i : Instr) (k : Jump) (target : Word) : State :=
  let t := if k = .branch then s.th.closeLoops target else s.th
  let s := { s with th := (({ t with pc := target }).afterIssue pre i (k != Jump.skip)).counted pre i }.clockAs pre
  s.marker i
/-- The end of a waiting instruction of a thread that another step completes (03:R44, 13:R177, 21:R268): the word after it. -/
def Thread.stepOver (t : Thread) : Thread :=
  let t := t.loopStep.countEv 2 1
  { t with status := .ready, flow := { t.flow with group := none, jumped := false, hold := 0 } }

/-- A wait whose instruction executes again, with its whole group (07:R84, 09:R130); a barrier's is passed by another step. -/
def Status.waitsAgain (st : Status) : Bool := match st with
  | .windowPark _ => true
  | .waiting => true
  | _ => false
/-- The thread in its wait. -/
def Thread.inWait (t : Thread) (st : Status) : Thread :=
  if st.waitsAgain then { t with status := st, pc := t.groupStart, flow := { t.flow with group := none } } else { t with status := st }

/-- An instruction that ends in its trap, and is not made again, was the first one after SYNC (03:R46, 13:R176). -/
def Thread.past (t : Thread) : Thread := { t with flow := { t.flow with synced := t.flow.synced && (t.busy .s || t.busy .h) } }
/-- The end of a wait: a suspension point unless it has waited (03:R30). -/
def State.passed (s : State) : Done := if s.th.status = .waiting then .ok s else .pass s
/-- The trap is one of the decoder's checks (07:R79): the form is not one of an open packet (13:R181), or a register that it names does not
exist in the current views. -/
def Thread.decodeTrap (t : Thread) (i : Instr) (x : Trap) : Bool :=
  x.cause == .illstate && ((t.flow.packet.isSome && !packetForm i) || t.viewsLack i)
/-- A trap that is the instruction's own effect: the instruction has issued (25:R307). -/
def Thread.trapCounted (t : Thread) (x : Trap) : Thread := if x.cause = .swtrap ∨ x.cause = .svc then t.countEv 2 1 else t
/-- A walk that ended in a fault has started and missed: of an address that no TLB entry maps (25:R307). -/
def State.missCounted (s : State) (t : Thread) (x : Trap) : Thread :=
  if x.cause = .xlate ∧ x.sub ≠ 5 ∧ s.tlb? t.tile t.fn x.tval.toNat = none then (t.countEv 6 1).countEv 7 1 else t
/-- An instruction of the issuing thread takes a precise trap with no effect but its counts (25:R307, 27:R312). -/
def State.trapping (s : State) (i : Instr) (x : Trap) : State :=
  let pre := s.th
  let t := s.missCounted (pre.trapCounted x) x
  ({ s with th := { t with flow := { t.flow with decoded := pre.decodeTrap i x } } }).clock.raise x pre.faultPc
/-- An instruction takes its trap with a restart point of its own (15:R208, 03:R46). -/
def State.trappingAt (s : State) (x : Trap) (epc : Word) : State := ({ s with th := s.th.past.trapCounted x }).clock.raise x epc
/-- What the end of an instruction makes of the state. -/
def State.finish (s : State) (i : Instr) (d : Done) : Host.Outcome State Fault Refusal :=
  let pre := s.th
  match d with
  | .ok t =>
    if (pre.flow.chain.isSome || transientMark (instrMark i)) && (t.th.loopStep.pc != t.th.pc + 4) then .next (s.raise ⟨.transient, 0, pre.pc⟩ pre.faultPc).clock
    else .next (t.retire pre i)
  | .jump k a t => .next (t.retireJump pre i k a)
  | .again t => .next ({ t with th := { t.th with flow := { t.th.flow with hold := 0, heldReads := [] } } }).clock
  | .trap x => .next (s.trapping i x)
  | .trapAt x e => .next (s.trappingAt x e)
  | .trapWith x t => .next (t.clock.raise x pre.faultPc)
  | .hold k t => .next ({ t with th := { t.th with flow := { t.th.flow with hold := k } } }).clock
  | .wait st t => .next ({ t with th := t.th.inWait st }).clock.suspend
  | .drain t => .next ({ t with th := { t.th with status := .parked, flow := { t.th.flow with since := (t.tile t.th.tile).cyc } } }).clock.suspend
  | .pass t =>
    .next ({ t with th := (t.th.loopStep.afterIssue pre i false).counted pre i }.clockAs pre).suspend
  | .left t => .next t
  | .refuse r => .refused r

/-- A byte that the instruction reads of the thread's window is uncorrectable: its window offset (21:R273, 27:R311). -/
def State.regFault (s : State) (i : Instr) : Option Nat :=
  if s.ms.regErrs.isEmpty then none
  else
    let t := s.th
    let rs := t.ranges (regsOf i).1 (regsOf i).2.2.1
    (s.ms.regErrs.find? (fun e => e.1 == t.tile && decide (t.wbase * 1024 ≤ e.2) && rangesMeet rs [(e.2 - t.wbase * 1024, 1)])).map (fun e => e.2 - t.wbase * 1024)
/-- Issues an instruction for the thread: its checks, an error in the registers it reads, which its group rolls back for (21:R273), the results of its run where it is a suspension point (03:R35), its
effect `body`, and its end. -/
def State.issue (s : State) (i : Instr) (body : State → Done) : Host.Outcome State Fault Refusal :=
  match s.th.precheck i with
  | some x => s.finish i (.trap x)
  | none =>
    match s.regFault i with
    | some o => s.finish i (match s.coverTile s.th.tile with
      | some n => .hold 2 (s.postOnce (.rollback n 3 s.me (idxCoord s.th.tile)))
      | none => .trap ⟨.mcheck, 0, BitVec.ofNat 64 o⟩)
    | none =>
      if (formOf i).flush && !s.th.flow.outs.isEmpty then s.finish i (.drain s)
      else s.finish i (body s)

/-- A hint word (07:R80-R84): it joins the open group, with what `f` does besides, or fails. -/
def State.issueHint (s : State) (i : Instr) (f : State → State) : Host.Outcome State Fault Refusal :=
  let t := s.th
  let dup := match i with
    | .hmod .. => t.hints.any (fun h => match h with | .hmod .. => true | _ => false)
    | .hsched .. => t.hints.any (fun h => match h with | .hsched .. => true | _ => false)
    | _ => false
  let ends := (t.lp0.act && t.pc.toNat == t.loop0.2) || (t.lp1.act && t.pc.toNat == t.loop1.2)
  if 2 ≤ t.hints.length || dup || ends then
    s.finish i (.trap ⟨.illenc, 0, illencTval (wordOf i) t.hints.length⟩)
  else
    .next (f { s with th := ({ t with pc := t.pc + 4, flow := { t.flow with
      group := some ⟨t.groupStart, t.hints ++ [i]⟩, jumped := false } }).countEv 2 1 }.clock)

/-- Return from exception (15:R209): mode and pc of the executing mode's bank. -/
def State.returnTrap (s : State) : Done :=
  let t := s.th
  let b := t.bank t.priv
  let p := bits b.estat.toNat 1 0
  if p = 3 ∨ privRank t.priv < p then .trap ⟨.illstate, 0, b.estat⟩
  else if b.epc.toNat % 4 ≠ 0 then .trap ⟨.align, 0, b.epc⟩
  else
    let t' := t.setBank t.priv { b with estat := pack [(bits b.estat.toNat 3 3, 3), (p, 0)] }
    .jump .call b.epc { s with th := { t' with priv := if p = 0 then .u else if p = 1 then .s else .h } }

/-- The thread at the boundary where it is stopped: an instruction that held its slot is given up (03:R349). -/
def Thread.giveUp (t : Thread) : Thread :=
  { t with pc := t.groupStart, status := .ready, flow := { t.flow with group := none, hold := 0, heldReads := [] } }
/-- Before an asynchronous cause or a pre-emption the results of the run are written, with their faults (03:R35). -/
def State.drain (s : State) : State :=
  if s.th.outsDone then s.takePark
  else { s with th := { s.th with status := .parked, flow := { s.th.flow with since := (s.tile s.th.tile).cyc } } }.suspend
/-- An asynchronous cause is taken at the boundary it is due (03:R33, R48, 27:R312-R313). -/
def State.serviceTrap (s : State) : State :=
  match s.th.due with
  | none => s
  | some x =>
    let s := { s with th := s.th.giveUp }
    if !s.th.flow.outs.isEmpty then s.drain
    else
      let f := s.th.flow
      let f := if x.cause == .wdog then { f with wdog := false, aborted := false } else { f with asyncs := f.asyncs.erase x }
      ({ s with th := { s.th with flow := f } }).enterTrap x s.th.pc

end Sys2Proof.Machine
end

