-- ==== Sys2Proof/Machine/Windows.lean ====
section
/-! DEFINITION. Local-alias accesses: banks, region windows and their fills, stores that a matrix command still reads, and what
orders a thread's accesses across packages (09:R129-R130, 11:R155, 13:R193, 17:R245, 29:R324). -/

namespace Sys2Proof.Machine
open Sys2Proof

def Tile.win? (t : Tile) (w : Nat) : Option Win := (t.wins.find? (fun p => p.1 == w)).map (·.2)
def Tile.setWin (t : Tile) (w : Nat) (x : Win) : Tile := { t with wins := setKey t.wins w x }
/-- Copy engine of the tile's bay (01:R13). -/
def copyEngine (tile : Nat) : Nat := bayOf tile
/-- Entries of an engine's queue: copy jobs and fills 64, collectives 256 (01:R13, 13:R195). -/
def queueSize (e : Nat) : Nat := if e < 192 then 64 else 256
/-- Entries of an engine's queue that accepted jobs occupy. -/
def State.engineUsed (s : State) (e : Nat) : Nat := ((s.engine e).jobs.filter (fun j => j.stage != 2)).length
/-- A submission finds every entry occupied, or promised to a fill that waits to be accepted (01:R13, 13:R195). -/
def State.engineFull (s : State) (e : Nat) : Bool := queueSize e ≤ s.engineUsed e + (s.engine e).subs.length
/-- A fill of a window of a tile, submitted for a thread (13:R193). -/
def State.startFill (s : State) (tile w : Nat) (x : Win) (t : Thread) (early : Bool) : State :=
  let s := s.setTile tile ((s.tile tile).setWin w { x with state := 1 })
  let e := s.engine (copyEngine tile)
  s.setEngine (copyEngine tile) { e with subs := e.subs ++ [(
    { cls := 0, jid := 0, card := x.card, tid := t.tid, tile := tile, who := t.who, dom := t.dom, priv := x.priv,
      guard := 0, win := some w, graph := 0, reads := [], writes := [], preds := [], acts := [], orphan := false, early := early,
      stage := 0, todo := [], esz := 1, st := 0, code := 0, fx := 0, faddr := 0, rin := s.rinOf t.dom } : JobEntry)] }

/-- What R129 and R130 make of a local access. -/
inductive Local where
  | out                       -- out of range, or a bank held as cache: reads zero, writes nothing
  | trap (t : Trap)
  | outsider                  -- scratch of a compact, the thread outside the member gang
  | park (w : Nat)            -- a window absent or filling
  | ok
  deriving DecidableEq, Repr

/-- Banks of `n` bytes at SRAM offset `e`. -/
def banksOf (e n : Nat) : List Nat := (List.range 16).filter (fun b => e / Config.bankSize ≤ b && b ≤ (e + n - 1) / Config.bankSize)
/-- The thread is of the member gang signed on its tile (03:R37, R40). -/
def State.insider (s : State) (t : Thread) : Bool := match s.memberOf t.tid with
  | some (_, _, m) => m.tile == t.tile
  | none => false
/-- A window whose lines hold a byte of the range, in a given state (17:R245). -/
def Tile.winAt (t : Tile) (e n : Nat) (st : Nat → Bool) : Option (Nat × Win) :=
  t.wins.find? (fun p => st p.2.state && e < (p.2.sline + p.2.nline) * 192 && p.2.sline * 192 < e + n)
/-- R129 and R130 for the `n` bytes at local offset `e`; `tv` is the offset a domain fault reports. -/
def State.localCheck (s : State) (t : Thread) (e n tv : Nat) : Local :=
  if Config.sramSize < e + n then .out
  else
    let bs := banksOf e n
    if bs.any (fun b => !s.bankGranted t.tile t.dom b) then .trap ⟨.domain, 0, BitVec.ofNat 64 tv⟩
    else if bs.any (fun b => !s.bankScratch t.tile b) then .out
    else if bs.any (s.compactBank t.tile) && !s.insider t then .outsider
    else match (s.tile t.tile).winAt e n (· != 2) with
      | some (w, x) => if x.state = 3 then .trap ⟨.engine, x.code, x.faddr⟩ else .park w
      | none => .ok
/-- Parks the issuing thread on a window; the first touch starts the fill (13:R193, 17:R245), which holds the issue slot while the engine's
queue is full (01:R13). The park passes the slot on as the park at
a marker does: R30's list of suspension points does not name it (DESIGN CHOICE, log 66). -/
def State.touch (s : State) (w : Nat) : Done :=
  match ((s.tile s.th.tile).win? w).filter (·.state == 0) with
  | some x => if s.engineFull (copyEngine s.th.tile) then .hold 2 s else .wait (.windowPark w) (s.startFill s.th.tile w x s.th false)
  | none => .wait (.windowPark w) s

/-- HSCHED PREFW: the fill of an absent window may start early, where a touch of the thread would start it (07:R83; log 7). -/
def State.prefetch (s : State) (w : Nat) : State :=
  let t := s.th
  match (s.tile t.tile).win? w with
  | some x =>
    if Config.prefetches s.fresh && x.state == 0 && s.localCheck t (x.sline * 192) (x.nline * 192) 0 == .park w &&
        !s.engineFull (copyEngine t.tile)
      then s.tick.startFill t.tile w x t true
    else s.tick
  | none => s.tick

/-- TS.OOB records the first out-of-range address (09:R129). -/
def Thread.outOfRange (t : Thread) (e : Nat) : Thread :=
  if bitOf t.oob.toNat 63 then t else { t with oob := BitVec.ofNat 64 (2 ^ 63 + e % 2 ^ 63) }
/-- Lines of 192 bytes that a local range covers, as deferred reads of an outsider, one of a line for an access (03:R41). -/
def State.deferLocal (s : State) (a : Acc) (t0 : Nat) : Nat → Nat → Nat → List Part × State
  | 0, _, _ => ([], s)
  | fuel + 1, e, n =>
    if n = 0 then ([], s)
    else
      let c := Nat.min n (192 - e % 192)
      let (g, s) := s.deferRead a (sramAddr a.tile (e / 192 * 192)) (e % 192) c a.tile t0
      let (ps, s) := s.deferLocal a t0 fuel (e + c) (n - c)
      match g with
      | .part p => (s.ownPart a ⟨0, s.me * 2 ^ 48 + sramAddr a.tile e, c, 0⟩ p ++ ps, s)
      | _ => (ps, s)

/-- Bytes of one plane group of a matrix format code (11:R150). -/
def groupSize (code : Nat) : Nat := 64 + 4 * ((mfc code).map Mfc.prec).getD 0
/-- SRAM bytes a matrix command still reads (11:R155): its operands' plane groups, or its entries. -/
def readsSram (c : MCmd) (e n : Nat) : Bool :=
  let hit (o : MOper) (k : Nat) : Bool :=
    e < o.base + (o.k0 + k) * groupSize o.fmt && o.base + o.k0 * groupSize o.fmt < e + n
  match c with
  | .mma _ _ a b k => k != 0 && (hit a k || hit b k)
  | .mscl _ o cnt => e < o + 64 * cnt && o < e + n
  | .mzero .. => false
/-- A local-alias store must wait for a matrix command of the thread that has not read these bytes (11:R155). -/
def State.matrixReads (s : State) (t : Thread) (e n : Nat) : Bool :=
  (t.flow.mq ++ (((s.tile t.tile).mrun.filter (·.res.isEmpty)).map (·.entry)).filter (fun m => m.tid == t.tid && m.sender == t.tid)).any
    (fun m => readsSram m.cmd e n)
/-- Bytes stored into a tile's SRAM; a pinned line becomes dirty (03:R39, 13:R178). -/
def State.tileStore (s : State) (tile : Nat) (e : Nat) (bs : List Byte) : State :=
  let pins := s.ms.pins.map (fun (p : Pin) =>
    if p.tile == tile && !p.away && p.far.isNone && p.sline * 192 < e + bs.length && e < (p.sline + 1) * 192 then
      { p with dirty := p.dirty ||| sectorMask (p.sline * 192) e bs.length } else p)
  let s := { s with ms := { s.ms with pins := pins } }
  ((s.write (sramAddr tile e) bs).wakeLine (waitLine (sramAddr tile e))).wakeLine (waitLine (sramAddr tile (e + bs.length - 1)))
/-- Bytes of the thread's tile at a local offset as it reads them: those that it wrote through the tile space, and that are held, are its
own (19:R260). -/
def State.localBytes (s : State) (t : Thread) (e n : Nat) : List Byte :=
  s.withHeld (some t.who) (s.me * 2 ^ 48 + sramAddr t.tile e) (s.read (sramAddr t.tile e) n)
/-- A local-alias store of checked bytes. -/
def State.localStore (s : State) (t : Thread) (e : Nat) (bs : List Byte) : State := s.tileStore t.tile e bs

/-- Earlier loads of the thread are performed (13:R172). -/
def Thread.loadsDone (t : Thread) : Bool := t.flow.outs.all (fun o => !o.src.pending)
/-- A release of the thread may be made (19:R253, 29:R324). -/
def State.mayRelease (s : State) (t : Thread) : Bool := t.loadsDone && s.storesDone t.tid

/-- The order that a load of some pieces gives later accesses (19:R252-R253). -/
def loadOrd (acq : Bool) (ps : List Piece) : Nat := if acq then 2 else if ps.any (fun p => p.oc == 1) then 1 else 0

/-- An access of a kind whose budget is spent waits, and one whose port trains (23:R289, 31:R343). -/
def State.overBudget (s : State) (a : Acc) (ps : List Piece) : Bool :=
  ps.any (fun p =>
    if p.pkg != s.me then s.spent a.dom 1 || s.portTrains
    else regionOf p.off == .dram && (s.spent a.dom 0 || s.spent a.dom 3) &&
      (match lineOf p.off with
        | some l => (s.pinOfHome l).isNone && !((s.tile a.tile).cache.any (fun c => c.line == l && c.dom == a.dom))
        | none => false))

/-- An access waits: for its budget, or for earlier accesses of its thread. -/
def State.accessWaits (s : State) (a : Acc) (ps : List Piece) : Bool := s.overBudget a ps || s.orderWaits a ps

/-- A message of the steward to every other package of a partition's group. -/
def State.tellGroup (s : State) (n kind : Nat) : State := (s.rgs n).peers.foldl (fun s p => s.emit (.steward kind n p)) s
/-- A seal of a partition's group begins, on every package of it (21:R267). -/
def State.beginSeal (s : State) (n : Nat) : State :=
  let g := s.rgs n
  if g.sealing then s else (s.setRgs n { g with sealing := true }).tellGroup n 8
/-- Starts or joins a forced seal of a partition's interval (21:R267, R269). -/
def State.forceSeal (s : State) (n : Nat) : State :=
  let g := s.rgs n
  if g.forced then s else (s.setRgs n { g with forced := true, sealing := true }).tellGroup n 9
/-- HMOD IRR on a store of group work: the forced seal of its group completes before the write (07:R82, 13:R171, 21:R271): what the store
does instead of its write, none once the seal is complete. It holds its slot, and the thread is pre-empted before the store as a laggard
of that seal, as a store stalled by a forced seal is (21:R269; log 20). -/
def State.irrFirst (s : State) : Option Done :=
  let t := s.th
  match s.nodeOf t.dom with
  | none => none
  | some n =>
    if !t.irr || t.flow.irr == 2 then none
    else
      let s := s.forceSeal n
      some (.hold 3 { s with th := { s.th with flow := { s.th.flow with irr := 1 } } })

/-- An instruction's own read (25:R303): what follows on its bytes. -/
def Held.andThen (h : Held) (f : List Byte → State → Done) : Done :=
  match h with
  | .ok bs s => f bs s
  | .trap t => .trap t
  | .hold s => .hold 2 s
  | .refuse o => .refuse (.unassignedMmio o)

end Sys2Proof.Machine
end

