-- ==== Sys2Proof/Machine/Loads.lean ====
section
/-! DEFINITION. Scalar loads and stores, local-alias accesses and block moves (09:R125-R132). -/

namespace Sys2Proof.Machine
open Sys2Proof

/-- Adds an outstanding result to the run (03:R34). -/
def State.await (s : State) (o : Outst) : State :=
  { s with th := { s.th with flow := { s.th.flow with outs := s.th.flow.outs ++ [o] } } }

/-- The accesses of a load on pages of class SO are made one after the other, where some of them are awaited (19:R252, 11:R138). -/
def State.inTurn (s : State) (ps : List Piece) : Bool :=
  decide (1 < (ps.filter (fun p => p.oc == 1)).length) && (ps.any (fun p => p.pkg != s.me) || !s.ms.pins.isEmpty)
/-- A load of checked pieces, its result `res` outstanding (03:R34). -/
def State.loadThen (s : State) (a : Acc) (ps : List Piece) (res : List Part → Option Trap → Outst) : Done :=
  if s.inTurn ps then
    match s.heldInTurn a ps with
    | .ok bs s => .ok (s.await (res [.have bs] none))
    | .trap x => .ok (s.await (res [.have []] (some x)))
    | .hold s => .hold 2 s
    | .refuse o => .refuse (.unassignedMmio o)
  else
    let (parts, ft, un, s) := loadPieces a ps s
    match un with
    | some o => .refuse (.unassignedMmio o)
    | none => .ok (s.await (res parts ft))
/-- A load of `n` bytes at `ea` into g(d), long-latency (09:R125-R127, R118): `ord` for LDA, which acquires (19:R253). Bytes on pages of
different element formats are decoded by the first byte's: R127 does not say which (DESIGN CHOICE, log 67). -/
def State.load (s : State) (ord : Bool) (d : Reg) (z : BitVec 3) (ea : Word) : Done :=
  let t := s.th
  let n := szBytes z
  match s.pieces t.acc .read ea n ord with
  | .error x => .trap x
  | .ok (ps, s) =>
    if t.countsBy d then .trap ⟨.illstate, 0, t.pc⟩
    else if s.accessWaits t.acc ps then .hold 2 s
    else
      let k := loadOrd ord ps
      let ef := t.loadEf ((ps.head?.map (fun p => leafEf p.leaf)).getD 0)
      s.loadThen t.acc ps (fun parts ft => ⟨d, [], .parts parts (.scalar z.toNat ef), ft, k⟩)
/-- A store of bytes at `ea` (09:R125-R126, 21:R269-R271): `ord` for a form that a page of class UN refuses, `rel` for a
release. -/
def State.store (s : State) (ord rel : Bool) (ea : Word) (bs : List Byte) : Done :=
  let t := s.th
  match s.pieces t.acc .write ea bs.length ord with
  | .error x => .trap x
  | .ok (ps, s') =>
    if rel && !s.mayRelease t then .hold 2 s
    else match s'.irrFirst with
      | some d => d
      | none =>
        if s'.accessWaits t.acc ps then .hold 2 s'
        else match s'.storeBlock t.acc ps with
          | some s => .hold 3 s
          | none => .ok (s'.storeAll t.acc ps bs)
/-- The bytes a scalar store writes. -/
def regBytes (x : Word) (n : Nat) : List Byte := leBytes n x.toNat

/-- Address of format FM: base and an offset scaled by the access size (09:R126). -/
def Thread.eaOff (t : Thread) (b : Reg) (z : BitVec 3) (o n : Nat) : Word := t.gr b + BitVec.ofNat 64 (szBytes z) * t.simm o n
def Thread.eaIdx (t : Thread) (b i : Reg) (z : BitVec 3) : Word := t.gr b + BitVec.ofNat 64 (szBytes z) * t.gr i

/-- LD (09:R126-R127). -/
def execLd (m : Mark) (d b : Reg) (z : BitVec 3) (o : BitVec 8) (s : State) : Host.Outcome State Fault Refusal :=
  s.issue (.ld m d b z o) (fun s => s.load false d z (s.th.eaOff b z o.toNat 8))
/-- ST (09:R126). -/
def execSt (m : Mark) (d b : Reg) (z : BitVec 3) (o : BitVec 8) (s : State) : Host.Outcome State Fault Refusal :=
  s.issue (.st m d b z o) (fun s => s.store false false (s.th.eaOff b z o.toNat 8) (regBytes (s.th.gr d) (szBytes z)))
/-- LDX (09:R126-R127). -/
def execLdx (m : Mark) (d b : Reg) (z : BitVec 3) (i : Reg) (s : State) : Host.Outcome State Fault Refusal :=
  s.issue (.ldx m d b z i) (fun s => s.load false d z (s.th.eaIdx b i z))
/-- STX (09:R126). -/
def execStx (m : Mark) (d b : Reg) (z : BitVec 3) (i : Reg) (s : State) : Host.Outcome State Fault Refusal :=
  s.issue (.stx m d b z i) (fun s => s.store false false (s.th.eaIdx b i z) (regBytes (s.th.gr d) (szBytes z)))
/-- LDA (09:R128): aligned, refused on a page of class UN; later accesses of the thread wait for it (19:R253, R259; log 2). -/
def execLda (m : Mark) (d b : Reg) (z c : BitVec 3) (o : BitVec 5) (s : State) : Host.Outcome State Fault Refusal :=
  s.issue (.lda m d b z c o) (fun s =>
    let ea := s.th.eaOff b z o.toNat 5
    if ea.toNat % szBytes z ≠ 0 then .trap ⟨.align, 0, ea⟩ else s.load true d z ea)
/-- STREL (09:R128, 29:R324). -/
def execStrel (m : Mark) (d b : Reg) (z c : BitVec 3) (o : BitVec 5) (s : State) : Host.Outcome State Fault Refusal :=
  s.issue (.strel m d b z c o) (fun s =>
    let ea := s.th.eaOff b z o.toNat 5
    if ea.toNat % szBytes z ≠ 0 then .trap ⟨.align, 0, ea⟩ else s.store true true ea (regBytes (s.th.gr d) (szBytes z)))

/-- LDL (09:R129-R130). -/
def execLdl (m : Mark) (d b : Reg) (z : BitVec 3) (o : BitVec 8) (s : State) : Host.Outcome State Fault Refusal :=
  s.issue (.ldl m d b z o) (fun s =>
    let t := s.th
    let e := (t.eaOff b z o.toNat 8).toNat
    let n := szBytes z
    let ef := t.loadEf 0
    match s.localCheck t e n e with
    | .out => .ok { s with th := (t.gw d 0).outOfRange e }
    | .trap x => .trap x
    | .park w => s.touch w
    | .outsider =>
      if t.countsBy d then .trap ⟨.illstate, 0, t.pc⟩
      else if t.ordered 2 then .hold 2 s
      else
        let (ps, s) := s.deferLocal t.acc s.fresh 3 e n
        .ok (s.await ⟨d, [], .parts ps (.scalar z.toNat ef), none, 0⟩)
    | .ok => if t.ordered 2 then .hold 2 s else .ok (s.gw d (scalarValue z.toNat ef (s.localBytes t e n))))
/-- STL (09:R129-R130, 11:R155). -/
def execStl (m : Mark) (d b : Reg) (z : BitVec 3) (o : BitVec 8) (s : State) : Host.Outcome State Fault Refusal :=
  s.issue (.stl m d b z o) (fun s =>
    let t := s.th
    let e := (t.eaOff b z o.toNat 8).toNat
    let n := szBytes z
    match s.localCheck t e n e with
    | .out => .ok { s with th := t.outOfRange e }
    | .trap x => .trap x
    | .park w => s.touch w
    | .outsider => .ok (s.refuseD t.tid ⟨.cprot, 0, BitVec.ofNat 64 e⟩)
    | .ok => if s.matrixReads t e n then .hold 1 s else if t.ordered 2 then .hold 2 s else .ok (s.localStore t e (regBytes (t.gr d) n)))

/-- One byte of a block move stored at `dst` (09:R131-R132): what follows when it is made; a refusal at its target is a fault on the
move, at that byte. -/
def State.moveByte (s : State) (dst : Word) (v : Byte) (next : State → State) : Done :=
  match s.pieces s.th.acc .write dst 1 with
  | .error x => .trap x
  | .ok (ps, s') =>
    match ps.findSome? (s'.refusal s.th.acc) with
    | some x => .trap x
    | none => match s.store false false dst [v] with
      | .ok s => .again (next s)
      | d => d
/-- BMOV (09:R131-R132): each issue moves one byte until the count is zero (log 22). -/
def execBmov (m : Mark) (d a b : Reg) (s : State) : Host.Outcome State Fault Refusal :=
  s.issue (.bmov m d a b) (fun s =>
    let t := s.th
    if t.gr b = 0 then .ok s
    else (s.ldHeld t.acc .read (t.gr a) 1).andThen (fun bs s =>
      s.moveByte (t.gr d) (bs.headD 0) (fun s =>
        { s with th := ((s.th.gw a (t.gr a + 1)).gw d (t.gr d + 1)).gw b (t.gr b - 1) })))
/-- BFILL (09:R131-R132). -/
def execBfill (m : Mark) (d a b : Reg) (s : State) : Host.Outcome State Fault Refusal :=
  s.issue (.bfill m d a b) (fun s =>
    let t := s.th
    if t.gr b = 0 then .ok s
    else s.moveByte (t.gr d) ((t.gr a).setWidth 8) (fun s => { s with th := (s.th.gw d (t.gr d + 1)).gw b (t.gr b - 1) }))

end Sys2Proof.Machine
end

