-- ==== Sys2Proof/Machine/Atomics.lean ====
section
/-! DEFINITION. Atomics, flagged stores and fences (13:R168-R172, 19:R253-R255, R260, 29:R324). -/

namespace Sys2Proof.Machine
open Sys2Proof

/-- Atomic operations, numbered as a request to another package carries them (log 13). -/
inductive AOp where
  | add | and | or | xor | swp | min (u : Bool) | max (u : Bool) | cas | fadd
  deriving DecidableEq, Repr

def AOp.code : AOp → Nat
  | .add => 0 | .and => 1 | .or => 2 | .xor => 3 | .swp => 4 | .min u => 5 + b2n u | .max u => 7 + b2n u | .cas => 9 | .fadd => 10
def AOp.of (c : Nat) : AOp :=
  match c with
  | 0 => .add | 1 => .and | 2 => .or | 3 => .xor | 4 => .swp | 5 => .min false | 6 => .min true | 7 => .max false
  | 8 => .max true | 9 => .cas | _ => .fadd
/-- The new value of `n` bytes from the old one, the operand and the comparand; none where nothing is written (13:R168). -/
def AOp.eval (f : AOp) (n m y c : Nat) : Option Nat :=
  let w := 8 * n
  let less (u : Bool) : Bool := if u then decide (m < y) else decide (sInt w m < sInt w y)
  match f with
  | .add => some ((m + y) % 2 ^ w)
  | .and => some (m &&& y)
  | .or => some (m ||| y)
  | .xor => some (m ^^^ y)
  | .swp => some y
  | .min u => some (if less u then m else y)
  | .max u => some (if less u then y else m)
  | .cas => if m = c then some y else none
  | .fadd => some (enc .f32 (Num.add (Fmt.f32.val m) (Fmt.f32.val y)).1).1
/-- The payload of an atomic sent to another package. -/
def AOp.payload (f : AOp) (n y c : Nat) : List Byte := [BitVec.ofNat 8 f.code, BitVec.ofNat 8 n] ++ leBytes 8 y ++ leBytes 8 c

/-- One atomic access at the point of coherence of its bytes: the old bytes, or its refusal (13:R168-R169, 03:R40). One of a unit is not
stalled by a forced seal, and one of a thread has been asked about it before (21:R269); where the group rolls back, it is not made. -/
def State.atomicPiece (s : State) (a : Acc) (p : Piece) (f : Nat → Option Nat) (rin : Nat := s.storeRin a p) : Except Trap (List Byte × State) :=
  let put (s : State) (loc : Nat) : List Byte × State × Bool :=
    let old := s.read loc p.n
    match f (leNat old) with
    | some x => (old, s.write loc (leBytes p.n x), true)
    | none => (old, s, false)
  let pinned (pin : Pin) (loc : Nat) : Except Trap (List Byte × State) :=
    if !s.ownsPin a.tid pin then .error ⟨.cprot, 0, p.va⟩
    else
      let r := put s loc
      .ok (r.1, if r.2.2 then r.2.1.pinDirty pin (sectorMask (pin.sline * 192) (loc - sramAddr pin.tile 0) p.n) else r.2.1)
  if p.pkg != s.me then
    match s.pinOfFar p.pa with
    | some pin => pinned pin (sramAddr pin.tile (pin.sline * 192 + (2 ^ 60 + p.pa - pin.line)))
    | none => .ok (List.replicate p.n 0, s)
  else match regionOf p.off with
  | .dram =>
    match lineOf p.off with
    | none => .ok (List.replicate p.n 0, s)
    | some line =>
      match s.pinOfHome line with
      | some pin => pinned pin (sramAddr pin.tile (pin.sline * 192 + (p.off - line)))
      | none =>
        match s.tagged a.dom line rin p.off ((s.memberOf a.tid).isSome || a.who.isNone) with
        | .stall => .ok (List.replicate p.n 0, s)
        | .roll s => .ok (List.replicate p.n 0, s)
        | .ok s =>
          let (s, miss) := s.cacheAccess a.tile a.dom line (sectorMask line p.off p.n) true a.cp
          let s := if miss then s.onThread a.tid (fun t => t.countEv 5 1) else s
          let old := s.read p.off p.n
          match f (leNat old) with
          | some x => .ok (old, (s.writeLine line rin p.off (leBytes p.n x)).wakeLine line)
          | none => .ok (old, s)
  | .tiles =>
    let (t, o) := p.slot
    if s.retired t then .error ⟨.notile, 0, p.va⟩
    else if Config.sramSize ≤ o || !s.bankScratch t (o / Config.bankSize) then .ok (List.replicate p.n 0, s)
    else match s.pinOfSram t (o / 192) with
      | some pin => pinned pin p.off
      | none =>
        let r := put s p.off
        .ok (r.1, if r.2.2 then r.2.1.wakeLine (waitLine p.off) else r.2.1)
  | .host =>
    let r := put s p.off
    .ok (r.1, if r.2.2 then r.2.1.wakeLine (waitLine p.off) else r.2.1)
  | _ => .ok (List.replicate p.n 0, s)

/-- Translation of an atomic, or of a flag word, with the refusals of R169 that come before the domain check (27:R313). -/
def State.atomicLeaves (s : State) (a : Acc) (va : Word) (n : Nat) (flag : Bool) : Except Trap (List Piece × State) :=
  match accessPieces a .atomic va n s with
  | .error e => .error e
  | .ok (ps, s) =>
    let outside (p : Piece) : Bool := regionOf p.off == .mmio || (!flag && (leafXt p.leaf || regionOf p.off == .host))
    match ps.find? outside, ps.find? (fun p => p.oc == 2) with
    | some p, _ => .error ⟨.xlate, 2, p.va⟩
    | none, some p => .error ⟨.xlate, 4, p.va⟩
    | none, none => .ok (ps, s)
def State.atomicPieces (s : State) (a : Acc) (va : Word) (n : Nat) (flag : Bool) : Except Trap (List Piece × State) :=
  match s.atomicLeaves a va n flag with
  | .error e => .error e
  | .ok (ps, s) => (match ps.findSome? (s.pieceTrap a) with
    | some t => .error t
    | none => .ok (ps, s))

/-- An atomic of `n` bytes (13:R168-R169); later accesses of the thread wait for one that acquires (19:R253). -/
def State.atomic (s : State) (f : AOp) (n : Nat) (sg : Bool) (d a b : Reg) (o : BitVec 2) : Done :=
  let t := s.th
  let ea := t.gr a
  let y := (t.gr b).toNat % 2 ^ (8 * n)
  let c := (t.gr d).toNat % 2 ^ (8 * n)
  let acq := bitOf o.toNat 0
  let long := d != 0 || f == .fadd || acq
  if ea.toNat % n ≠ 0 then .trap ⟨.align, 0, ea⟩
  else match s.atomicPieces t.acc ea n false with
    | .error x => .trap x
    | .ok (ps, s') =>
      if t.countsBy d then .trap ⟨.illstate, 0, t.pc⟩
      else if bitOf o.toNat 1 && !s.mayRelease t then .hold 2 s
      else if s'.accessWaits t.acc ps then .hold 2 s'
      else match s'.storeBlock t.acc ps with
        | some s => .hold 3 s
        | none =>
          let ord := loadOrd acq ps
          let fix : Fix := if f == .fadd then .afadd y else .old n sg
          match ps with
          | [p] =>
            if p.pkg != s'.me && ((s'.pinOfFar p.pa).filter (s'.ownsPin t.tid)).isNone then
              if !s'.pkgLive p.pkg then
                .ok (if long then s'.await ⟨d, [], .parts [.have (List.replicate n 0)] fix, some ⟨.notile, 0, ea⟩, 0⟩
                     else s'.refuseA t.tid ⟨.notile, 0, ea⟩)
              else
                let (tag, s) := s'.request t.acc (.acc .atomic) p (f.payload n y c)
                .ok (if long then s.await ⟨d, [], .parts [.wait tag 0 n ea p.pa] fix, none, ord⟩
                     else s.posts { Posted.of tag t.tid ea p.pa (p.oc == 1) ((s.nodeOf t.dom).getD 0) with atom := true })
            else match s'.atomicPiece t.acc p (fun m => f.eval n m y c) with
              | .error x => .ok (s'.refuseD t.tid x)
              | .ok (old, s) => .ok (if long then s.await ⟨d, [], .parts [.have old] fix, none, ord⟩ else s)
          | _ => .ok s'
/-- Bytes of an atomic by W (07:R75). -/
def aSize (w : BitVec 1) : Nat := if w = 1 then 4 else 8

/-- AADD (13:R168). -/
def execAadd (m : Mark) (d a b : Reg) (o x : BitVec 2) (w : BitVec 1) (s : State) : Host.Outcome State Fault Refusal :=
  s.issue (.aadd m d a b o x w) (fun s => s.atomic .add (aSize w) false d a b o)
/-- AAND (13:R168). -/
def execAand (m : Mark) (d a b : Reg) (o x : BitVec 2) (w : BitVec 1) (s : State) : Host.Outcome State Fault Refusal :=
  s.issue (.aand m d a b o x w) (fun s => s.atomic .and (aSize w) false d a b o)
/-- AOR (13:R168). -/
def execAor (m : Mark) (d a b : Reg) (o x : BitVec 2) (w : BitVec 1) (s : State) : Host.Outcome State Fault Refusal :=
  s.issue (.aor m d a b o x w) (fun s => s.atomic .or (aSize w) false d a b o)
/-- AXOR (13:R168). -/
def execAxor (m : Mark) (d a b : Reg) (o x : BitVec 2) (w : BitVec 1) (s : State) : Host.Outcome State Fault Refusal :=
  s.issue (.axor m d a b o x w) (fun s => s.atomic .xor (aSize w) false d a b o)
/-- ASWP (13:R168). -/
def execAswp (m : Mark) (d a b : Reg) (o x : BitVec 2) (w : BitVec 1) (s : State) : Host.Outcome State Fault Refusal :=
  s.issue (.aswp m d a b o x w) (fun s => s.atomic .swp (aSize w) false d a b o)
/-- AMIN (13:R168). -/
def execAmin (m : Mark) (d a b : Reg) (o x : BitVec 2) (w n : BitVec 1) (s : State) : Host.Outcome State Fault Refusal :=
  s.issue (.amin m d a b o x w n) (fun s => s.atomic (.min (n == 1)) (aSize w) (n == 0) d a b o)
/-- AMAX (13:R168). -/
def execAmax (m : Mark) (d a b : Reg) (o x : BitVec 2) (w n : BitVec 1) (s : State) : Host.Outcome State Fault Refusal :=
  s.issue (.amax m d a b o x w n) (fun s => s.atomic (.max (n == 1)) (aSize w) (n == 0) d a b o)
/-- ACAS (13:R168). -/
def execAcas (m : Mark) (d a b : Reg) (o x : BitVec 2) (w : BitVec 1) (s : State) : Host.Outcome State Fault Refusal :=
  s.issue (.acas m d a b o x w) (fun s => s.atomic .cas (aSize w) false d a b o)
/-- AFADD (13:R168): always long-latency, its flags return with its result. -/
def execAfadd (m : Mark) (d a b : Reg) (o x : BitVec 2) (s : State) : Host.Outcome State Fault Refusal :=
  s.issue (.afadd m d a b o x) (fun s => s.atomic .fadd 4 false d a b o)

-- Flagged stores ------------------------------------------------------------------------------------------------------

/-- The compact-protection check of a piece of a flagged store (13:R171). -/
def State.pinTrap (s : State) (a : Acc) (p : Piece) : Option Trap :=
  let pin := if p.pkg != s.me then none
    else match regionOf p.off with
      | .dram => (lineOf p.off).bind s.pinOfHome
      | .tiles => s.pinOfSram p.slot.1 (p.slot.2 / 192)
      | _ => none
  match pin with
  | some q => if s.ownsPin a.tid q then none else some ⟨.cprot, 0, p.va⟩
  | none => none
/-- Adds 1 to the flag word of a flagged store whose data are visible (13:R171, 19:R255). -/
def State.flagAdd (s : State) (w : FlagWait) : State :=
  let a : Acc := ⟨w.tid, w.tid / 16, w.dom, w.dom, w.priv, 0, w.irr, none, false⟩
  let p : Piece := ⟨w.va, w.pa, 8, w.leaf⟩
  if p.pkg != s.me && ((s.pinOfFar p.pa).filter (s.ownsPin w.tid)).isNone then
    if !s.pkgLive p.pkg then s.refuseA w.tid ⟨.notile, 0, w.va⟩
    else
      let (tag, s) := s.request a (.acc .atomic) p (AOp.add.payload 8 1 0)
      s.posts (.of tag w.tid w.va w.pa (p.oc == 1) ((s.nodeOf w.dom).getD 0))
  else match s.atomicPiece a p (fun m => some ((m + 1) % 2 ^ 64)) with
    | .ok (_, s) => s
    | .error x => s.refuseD w.tid x
/-- The flags whose data are all acknowledged are added to (29:R324). -/
def State.flagsReady (s : State) : State :=
  let ready := s.pl.flags.filter (fun f => f.tags.isEmpty)
  let s := { s with pl := { s.pl with flags := s.pl.flags.filter (fun f => !f.tags.isEmpty) } }
  ready.foldl State.flagAdd s
/-- A flag waits for the acknowledgements of its data. -/
def State.awaitFlag (s : State) (w : FlagWait) : State := State.flagsReady { s with pl := { s.pl with flags := s.pl.flags ++ [w] } }
/-- One acknowledgement, or the release of a held store, has come (29:R324, 21:R272); a refused datum cancels the increment. -/
def State.flagTag (s : State) (tag : Nat) (ok : Bool) : State :=
  let fs := s.pl.flags.filter (fun f => ok || !f.tags.contains tag)
  State.flagsReady { s with pl := { s.pl with flags := fs.map (fun (f : FlagWait) => { f with tags := f.tags.filter (· != tag) }) } }
/-- Flags that wait for a tag wait for others in its place: those of the store that it stood for. -/
def State.retag (s : State) (tag : Nat) (tags : List Nat) : State :=
  let turn (f : FlagWait) : FlagWait := if f.tags.contains tag then { f with tags := f.tags.filter (· != tag) ++ tags } else f
  State.flagsReady { s with pl := { s.pl with flags := s.pl.flags.map turn } }
/-- The tags under which the stores of some pieces that led from `s` to `s'` are not made yet: posted, held, put off, or written to a
register, for which a turn of the agenda tells (19:R255, R260). -/
def State.newTags (s s' : State) (a : Acc) (ps : List Piece) : List Nat × State :=
  let tags := (s'.pl.posted.drop s.pl.posted.length).map (·.tag) ++ (s'.ms.larder.drop s.ms.larder.length).map (·.tag) ++
    (s'.pl.rests.drop s.pl.rests.length).map (·.key)
  if ps.any (fun p => regionOf p.off == .mmio && p.pkg == s.me && !s.held a p) then (s'.fresh :: tags, (s'.plan [.flag s'.fresh]).tick)
  else (tags, s')
/-- The rest of a store is made (17:R348, 19:R251-R252); a refusal of its earlier parts that no part reports any more is reported now. -/
def State.storeRest (s : State) (key : Nat) : State :=
  match s.pl.rests.find? (·.key == key) with
  | none => s
  | some r =>
    let s := { s with pl := { s.pl with rests := s.pl.rests.filter (·.key != key) } }
    let s' := storePieces r.acc r.pieces r.data s
    let one (x : Posted) : Posted := if s.fresh ≤ x.tag ∧ x.tid = r.acc.tid then { x with grp := r.grp, bad := r.bad } else x
    let more (x : StoreRest) : StoreRest := if s.fresh ≤ x.key ∧ x.acc.tid = r.acc.tid then { x with grp := r.grp, bad := r.bad } else x
    let (tags, s') := if s.pl.flags.any (·.tags.contains key) then s.newTags s' r.acc r.pieces else ([], s')
    let s' := ({ s' with pl := { s'.pl with posted := s'.pl.posted.map one, rests := s'.pl.rests.map more } }).retag key tags
    match r.bad with
    | some (_, t) => if s'.pl.posted.any (·.grp == r.grp) || s'.pl.rests.any (·.grp == r.grp) then s' else s'.refuseA r.acc.tid t
    | none => s'
/-- A datum that its target refuses at once: a retired tile, a package that is not live (01:R20, 29:R330). -/
def State.datumRefused (s : State) (a : Acc) (p : Piece) : Bool :=
  (s.refusal a p).isSome || (p.pkg != s.me && !s.held a p && !s.pkgLive p.pkg)
/-- The end of a flagged store whose checks have passed: its data, then its flag, none where a datum is refused (13:R171, 19:R255); `blk`: the data
are FBLK's (29:R323). -/
def State.flagged (s : State) (data flag : List Piece) (bs : List Byte) (blk : Bool := false) : Done :=
  let t := s.th
  match s.irrFirst with
  | some d => d
  | none =>
    if s.accessWaits t.acc (data ++ flag) then .hold 2 s
    else match s.storeBlock t.acc (data ++ flag) with
      | some s => .hold 3 s
      | none =>
        let s' := s.storeAll { t.acc with blk := blk } data bs
        match (if data.any (s.datumRefused t.acc) then [] else flag) with
        | [p] =>
          let s' := if s.held t.acc p then s'.holdStore t.acc p [] else s'
          let (tags, s') := s.newTags s' t.acc data
          .ok (s'.awaitFlag ⟨tags, t.tid, t.dom, t.priv, p.va, p.pa, p.leaf, t.irr⟩)
        | _ => .ok s'
/-- Checks of data and flag of a flagged store, with those of `src` bytes that it reads, in the order of R313 (13:R171). -/
def State.flagChecks (s : State) (dst : Word) (n : Nat) (flag : Word) (src : Option Word := none) : Except Trap (List Piece × List Piece × State) :=
  let a := s.th.acc
  match (match src with
    | some x => accessPieces a .read x n s
    | none => .ok ([], s)) with
  | .error x => .error x
  | .ok (rs, s) =>
    match accessPieces a .write dst n s with
    | .error x => .error x
    | .ok (ps, s) =>
      match s.atomicLeaves a flag 8 true with
      | .error x => .error x
      | .ok (qs, s) =>
        match (rs ++ ps ++ qs).findSome? (s.pieceTrap a), (ps ++ qs).findSome? (s.pinTrap a) with
        | some x, _ => .error x
        | none, some x => .error x
        | none, none => .ok (ps, qs, s)
/-- FST (13:R170-R171). -/
def execFst (m : Mark) (d a b : Reg) (z : BitVec 2) (s : State) : Host.Outcome State Fault Refusal :=
  s.issue (.fst m d a b z) (fun s =>
    let t := s.th
    let n := 2 ^ z.toNat
    if (t.gr a).toNat % n ≠ 0 then .trap ⟨.align, 0, t.gr a⟩
    else if (t.gr b).toNat % 8 ≠ 0 then .trap ⟨.align, 0, t.gr b⟩
    else match s.flagChecks (t.gr a) n (t.gr b) with
      | .error x => .trap x
      | .ok (ps, qs, s) => s.flagged ps qs (regBytes (t.gr d) n))
/-- FBLK (13:R170-R171). -/
def execFblk (m : Mark) (d a b : Reg) (s : State) : Host.Outcome State Fault Refusal :=
  s.issue (.fblk m d a b) (fun s =>
    let t := s.th
    let cnt := (t.gr (b + 1)).toNat
    if 0x100000 < cnt then .trap ⟨.illstate, 0, t.gr (b + 1)⟩
    else if (t.gr b).toNat % 8 ≠ 0 then .trap ⟨.align, 0, t.gr b⟩
    else match s.flagChecks (t.gr d) cnt (t.gr b) (some (t.gr a)) with
      | .error x => .trap x
      | .ok (ps, qs, s) => (s.ldHeld t.acc .read (t.gr a) cnt).andThen (fun bs s => s.flagged ps qs bs true))

-- Fences --------------------------------------------------------------------------------------------------------------

/-- FENCE (13:R172): accesses are in order, so only those awaited from elsewhere hold it (log 2). -/
def execFence (m : Mark) (k : BitVec 5) (c : BitVec 3) (s : State) : Host.Outcome State Fault Refusal :=
  s.issue (.fence m k c) (fun s =>
    if k = 1 then (if s.th.loadsDone && !s.pl.posted.any (fun p => p.tid == s.th.tid && p.atom) then .ok s else .hold 2 s)
    else if s.mayRelease s.th then .ok s else .hold 2 s)
/-- Deferred reads of the thread on its own tile (13:R172). -/
def State.localReads (s : State) (t : Thread) : Bool :=
  s.ms.defer.any (fun d => d.tile == t.tile && t.flow.outs.any (fun o => o.src.tags.contains d.tag))
/-- LBFENCE (13:R172). -/
def execLbfence (m : Mark) (s : State) : Host.Outcome State Fault Refusal :=
  s.issue (.lbfence m) (fun s => if s.localReads s.th then .hold 2 s else .ok s)

end Sys2Proof.Machine
end

