-- ==== Sys2Proof/Machine/Control.lean ====
section
/-! DEFINITION. Branches, calls, jumps, hardware loops, YIELD, SPAWN and EXIT (09:R112-R123). -/

namespace Sys2Proof.Machine
open Sys2Proof

/-- A branch of format FB: taken or not (09:R112). -/
def State.branch (s : State) (i : Instr) (o : BitVec 16) (taken : Thread → Bool) : Host.Outcome State Fault Refusal :=
  s.issue i (fun s => if taken s.th then .jump .branch (s.th.btgt o) s else .ok s)
/-- A branch on a guard, which holds while the guard is pending (09:R112-R113). -/
def State.guardBranch (s : State) (i : Instr) (c : BitVec 3) (o : BitVec 16) (want : Guard) : Host.Outcome State Fault Refusal :=
  s.issue i (fun s =>
    if s.th.gst c.toNat = .pend then .hold 1 s
    else if s.th.gst c.toNat = want then .jump .branch (s.th.btgt o) s else .ok s)

/-- BR (09:R112). -/
def execBr (m : Mark) (h : BitVec 2) (o : BitVec 16) (s : State) : Host.Outcome State Fault Refusal :=
  s.branch (.br m h o) o (fun _ => true)
/-- BC (09:R112). -/
def execBc (m : Mark) (h : BitVec 2) (c : BitVec 3) (o : BitVec 16) (s : State) : Host.Outcome State Fault Refusal :=
  s.branch (.bc m h c o) o (fun t => t.gr (c.setWidth 5) != 0)
/-- BC.z (09:R112). -/
def execBcZ (m : Mark) (h : BitVec 2) (c : BitVec 3) (o : BitVec 16) (s : State) : Host.Outcome State Fault Refusal :=
  s.branch (.bcZ m h c o) o (fun t => t.gr (c.setWidth 5) == 0)
/-- BG (09:R112-R113). -/
def execBg (m : Mark) (h : BitVec 2) (c : BitVec 3) (o : BitVec 16) (s : State) : Host.Outcome State Fault Refusal :=
  s.guardBranch (.bg m h c o) c o .tru
/-- BG.f (09:R112-R113). -/
def execBgF (m : Mark) (h : BitVec 2) (c : BitVec 3) (o : BitVec 16) (s : State) : Host.Outcome State Fault Refusal :=
  s.guardBranch (.bgF m h c o) c o .fls
/-- CALL (09:R112). -/
def execCall (m : Mark) (h : BitVec 2) (o : BitVec 16) (s : State) : Host.Outcome State Fault Refusal :=
  s.issue (.call m h o) (fun s => .jump .call (s.th.btgt o) (s.gw 31 (s.th.pc + 4)))

/-- A transfer to a register target, which must be aligned (09:R115). -/
def regTarget (k : Jump) (t : Word) (s : State) : Done := if t.toNat % 4 ≠ 0 then .trap ⟨.align, 0, t⟩ else .jump k t s
/-- CALLR (09:R114-R115). -/
def execCallr (m : Mark) (d a : Reg) (s : State) : Host.Outcome State Fault Refusal :=
  s.issue (.callr m d a) (fun s => regTarget .call (s.th.gr a) (s.gw d (s.th.pc + 4)))
/-- RET (09:R114-R115). -/
def execRet (m : Mark) (a : Reg) (s : State) : Host.Outcome State Fault Refusal :=
  s.issue (.ret m a) (fun s => regTarget .call (s.th.gr a) s)
/-- JMPR (09:R114-R115). -/
def execJmpr (m : Mark) (a : Reg) (s : State) : Host.Outcome State Fault Refusal :=
  s.issue (.jmpr m a) (fun s => regTarget .branch (s.th.gr a) s)
/-- JTAB (09:R116). -/
def execJtab (m : Mark) (d a : Reg) (n : BitVec 11) (s : State) : Host.Outcome State Fault Refusal :=
  s.issue (.jtab m d a n) (fun s =>
    let t := s.th
    let i := t.gr d
    if t.uimm n.toNat 11 ≤ i.toNat then .ok s
    else
      let ea := t.gr a + 4 * i
      if ea.toNat % 4 ≠ 0 then .trap ⟨.align, 0, ea⟩
      else (s.ldHeld t.acc .read ea 4).andThen (fun bs s => .jump .branch (t.pc + 4 * BitVec.ofNat 64 (sextN 32 64 (leNat bs))) s))

/-- LOOP (09:R117). -/
def execLoop (m : Mark) (d : Reg) (l : BitVec 16) (s : State) : Host.Outcome State Fault Refusal :=
  s.issue (.loop m d l) (fun s =>
    let t := s.th
    let start := t.pc + 4
    let last := t.pc.toNat + 4 * l.toNat
    if t.lp0.act && t.lp1.act then .trap ⟨.illstate, 0, t.pc⟩
    else if t.lp0.act && !(t.loop0.1 ≤ start.toNat && last ≤ t.loop0.2) then .trap ⟨.illstate, 0, t.pc⟩
    else if t.gr d = 0 then .jump .skip (t.pc + BitVec.ofNat 64 (4 * l.toNat) + 4) s
    else if t.lp0.act then
      .ok { s with th := { t with lp1 := ⟨true, d, (start - t.lps).toNat / 4, l.toNat - 1⟩ } }
    else .ok { s with th := { t with lp0 := ⟨true, d, 0, l.toNat - 1⟩, lps := start } })
/-- LEXIT (09:R120). -/
def execLexit (m : Mark) (s : State) : Host.Outcome State Fault Refusal :=
  s.issue (.lexit m) (fun s =>
    if s.th.lp1.act then .ok { s with th := { s.th with lp1 := .none } }
    else if s.th.lp0.act then .ok { s with th := { s.th with lp0 := .none } }
    else .ok s)

/-- YIELD (09:R121). -/
def execYield (m : Mark) (s : State) : Host.Outcome State Fault Refusal := s.issue (.yield m) (fun s => .pass s)

/-- The record SPAWN stores (09:R122). -/
def spawnRecord (t : Thread) (pc save : Word) (pri : Nat) : List Byte :=
  [pc, pack [(1, 56), (1, 12), (t.dom, 2), (t.priv.code, 0)], pack [(t.gran, 57), (bits save.toNat 51 10, 10)], 0, 0,
    pack [(pri, 4)], 0, 0].flatMap (fun w => leBytes 8 w.toNat)
/-- A store's piece that leaves for its home on another package. -/
def State.postedPiece (s : State) (a : Acc) (p : Piece) : Bool :=
  p.pkg != s.me && !s.held a p && ((s.pinOfFar p.pa).filter (s.ownsPin a.tid)).isNone
/-- A record's store on a page whose stores the larder holds: SPAWN holds its slot until its interval is sealed and its home has accepted
or refused it. As a store that holds for the larder does, it lets its thread be pre-empted before it at a seal, and takes the answer when it
is made again (09:R122, 21:R270-R271; DESIGN CHOICE, log 84). -/
def State.heldSpawn (s : State) (p : Piece) (recA : Word) (bs : List Byte) (queued : State → Done) : Done :=
  let who := s.th.who
  match s.st.pendSpawn.find? (fun x => x.1 == who && x.2.1 == recA) with
  | some x =>
    let s := { s with st := { s.st with pendSpawn := s.st.pendSpawn.erase x } }
    (match x.2.2 with
      | some t => .trapWith t s
      | none => queued s)
  | none =>
    let mine (e : LarderEntry) : Bool := e.spawn && e.who == some who && e.va == recA
    if s.ms.larder.any mine then .hold 3 s
    else if !s.larderFits s.th.acc [p] then .hold 3 s
    else
      let u := s.holdStore s.th.acc p bs
      .hold 3 { u with ms := { u.ms with larder := u.ms.larder.map (fun e => if e.tag = s.fresh then { e with spawn := true } else e) } }
/-- SPAWN (09:R122): its record's store is accepted or refused before it goes on. -/
def execSpawn (m : Mark) (d a b : Reg) (p : BitVec 2) (s : State) : Host.Outcome State Fault Refusal :=
  s.issue (.spawn m d a b p) (fun s =>
    let t := s.th
    let recA := t.gr a
    let save := t.gr d
    let pc := t.gr b
    if recA.toNat % 64 ≠ 0 then .trap ⟨.align, 0, recA⟩
    else if save.toNat % 1024 ≠ 0 then .trap ⟨.align, 0, save⟩
    else if pc.toNat % 4 ≠ 0 then .trap ⟨.align, 0, pc⟩
    else match s.pieces t.acc .write recA 64 with
      | .error x => .trap { x with tval := recA }
      | .ok (ps, s') =>
        match ps.findSome? (s'.refusal t.acc) with
        | some x => .trap { x with tval := recA }
        | none =>
          if !s.mayRelease t then .hold 2 s
          else if s'.accessWaits t.acc ps then .hold 2 s'
          else
            let bs := spawnRecord t pc save p.toNat
            let queued (s : State) : Done := .ok (s.enqueue ⟨dieOf t.tile, t.dom, p.toNat, recA⟩)
            match ps.find? (s'.held t.acc), s'.storeBlock t.acc ps with
            | some q, _ => s'.heldSpawn q recA bs queued
            | none, some u => .hold 3 u
            | none, none =>
              match ps.find? (s'.postedPiece t.acc) with
              | none => queued (storePieces t.acc ps bs s')
              | some q =>
                if !s.pkgLive q.pkg then .trap ⟨.notile, 0, recA⟩
                else match t.flow.heldReads.find? (fun h => h.pa == q.pa && h.n == 64) with
                  | none =>
                    let (tag, s) := s'.request t.acc (.acc .write) q bs
                    .hold 2 { s with th := { s.th with flow := { s.th.flow with heldReads := s.th.flow.heldReads ++ [⟨q.pa, 64, tag, 0, none⟩] } } }
                  | some h => match h.reply with
                    | none => .hold 2 s
                    | some (r, _) => match replyTrap r recA q.pa with
                      | some x => .trap x
                      | none => queued s')

/-- The caller's context in place of a gate's callee (15:R212). -/
def Thread.callerBack (t : Thread) : Thread := match t.caller with
  | none => t
  | some c =>
    { t with pc := c.pc, regs := c.regs, win := c.win, gran := c.gran, wbase := c.wbase, guards := c.guards, lp0 := c.lp0, lp1 := c.lp1
             lps := c.lps, vv := c.vv, va := c.va, vx := c.vx, fx := c.fx, dom := c.dom, priv := c.priv, caller := none }
/-- Frees the gate of a call that returns on the thread's tile (15:R211-R212). -/
def State.freeGate (s : State) (t : Thread) : State := match t.caller with
  | none => s
  | some c => s.setTile t.tile { s.tile t.tile with gates := (s.tile t.tile).gates.erase (c.dom, c.gate) }
/-- The thread leaves its slot now, or waits for what R29 completes first. -/
def State.leaveNow (s : State) : State :=
  if s.mayLeave s.th then s.leaveGang s.th else { s with th := { s.th with status := .leaving } }.suspend
/-- EXIT (09:R123, 03:R29, R37); inside a gate call the caller's context ends (log 21). -/
def execExit (m : Mark) (s : State) : Host.Outcome State Fault Refusal :=
  s.issue (.exit m) (fun s =>
    let t := s.th
    let isMember : Bool := match s.memberOf t.tid with
      | some (_, _, mb) => mb.tid == t.tid
      | none => false
    if isMember then .trap ⟨.illstate, 0, t.pc⟩
    else
      let s := s.freeGate t
      let t := (t.callerBack).countEv 2 1
      let t := { t with pc := t.pc + 4
                        lp0 := .none, lp1 := .none, flow := { t.flow with leave := 1, group := none, hold := 0 } }
      .left ({ s with th := t }.clock.leaveNow))

end Sys2Proof.Machine
end

