-- ==== Sys2Proof/Machine/Fetch.lean ====
section
/-! DEFINITION. What the issuing thread does next: a due event of its own, or the instruction at its pc (03:R30-R35, 07:R79, R84,
09:R115, 17:R230, 23:R288). -/

namespace Sys2Proof.Machine
open Sys2Proof

/-- The bytes of a piece of an instruction word that lie on this package and are not pinned against the thread; the owner of their line
writes it back (17:R225, R239; log 19). -/
def State.fetchPiece (s : State) (a : Acc) (p : Piece) : Option (List Byte × State) :=
  if p.pkg != s.me || s.badAt p.off p.n then none
  else match regionOf p.off with
    | .dram =>
      match lineOf p.off with
      | none => some (List.replicate p.n 0, s)
      | some line =>
        match s.pinOfHome line with
        | some pin => if s.ownsPin a.tid pin then some (s.read (sramAddr pin.tile (pin.sline * 192 + (p.off - line))) p.n, s) else none
        | none => some (s.homeBytes p.off p.n, s.othersYield a.tile a.dom line false)
    | .host => some (s.read p.off p.n, s)
    | _ => none
def State.fetchPieces (a : Acc) : List Piece → State → Option (List Byte × State)
  | [], s => some ([], s)
  | p :: ps, s =>
    match s.fetchPiece a p with
    | none => none
    | some (bs, s) => (State.fetchPieces a ps s).map (fun r => (bs ++ r.1, r.2))
/-- The 4 bytes of an instruction word (07:R72); a word elsewhere is read as a held access (log 19). -/
def State.fetchAt (s : State) (va : Word) : Held :=
  let a := s.th.acc
  match s.pieces a .fetch va 4 with
  | .error t => .trap t
  | .ok (ps, s') =>
    match State.fetchPieces a ps s' with
    | some (bs, s') => .ok bs s'
    | none => s.ldHeld a .fetch va 4
/-- The word before an address, as it is read for R84: whether it is a hint word, or what its read waits for. A word that cannot be
fetched is taken to be none (DESIGN CHOICE, log 64). -/
def State.afterHint (s : State) (va : Word) : Except State Bool :=
  match s.fetchAt (va - 4) with
  | .ok bs _ => .ok (isHintWord (leNat bs))
  | .hold s => .error s
  | _ => .ok false

/-- Domains with a ready thread on the issue slot of the issuing thread (23:R288). -/
def State.rivals (s : State) : List Nat :=
  ((s.threads.filter (fun t => sameSlot t.tid s.th.tid && t.status == .ready)).map (·.dom)).dedup
def State.weight (s : State) (tile dom : Nat) : Int := match (s.tile tile).dp? dom with
  | some (_, d) => d.weight
  | none => 1
/-- Credits of the issue slot for one cycle (23:R288): the state, and whether the holder issues. They change where the holder's domain is one
of two or more with a ready thread. -/
def State.credit (s : State) : State × Bool :=
  let ds := s.rivals
  if ds.length < 2 || !ds.contains s.th.dom then (s, true)
  else
    let t := s.th.tile
    let key (d : Nat) : Nat := s.th.tid / 4 % 4 * 1024 + d
    let c := ds.foldl (fun c d => setKey c (key d) (min (lookupD c (key d) 0 + s.weight t d) 4096)) (s.tile t).credit
    let h := lookupD c (key s.th.dom) 0
    if 0 ≤ h then
      let c := setKey c (key s.th.dom) (max (h - (ds.map (s.weight t)).sum) (-4096))
      (s.setTile t { s.tile t with credit := c }, true)
    else ({ s.setTile t { s.tile t with credit := c } with th := s.th.countEv 13 1 }, false)

/-- What happens next. -/
inductive Act where
  | run (i : Instr) (s : State)
  | idle (s : State)
  | refuse (r : Refusal)

/-- A fault held for the thread's pc, whose handler has returned (03:R35). -/
def Thread.heldHere (t : Thread) : Option (Trap × Word) :=
  if t.flow.group.isNone && t.flow.hold == 0 then t.flow.held.find? (fun h => h.2 == t.pc && !t.busy (h.1.cause.target t.priv)) else none

/-- The instruction at the pc (07:R72, R79, R84, 09:R115). -/
def State.fetch (s : State) : Act :=
  match s.fetchAt s.th.pc with
  | .trap _ => .run (.instructionFetchFault s.th.pc) s
  | .hold s => .idle s.clock
  | .refuse o => .refuse (.unassignedMmio o)
  | .ok bs s' =>
    let w := leNat bs
    match (if s.th.flow.jumped then s'.afterHint s.th.pc else .ok false) with
    | .error s => .idle s.clock
    | .ok true => .run (.illegalEncoding w) s'
    | .ok false => match decodeWord w with
      | .ok i => .run i s'
      | .error _ => .run (.illegalEncoding w) s'

/-- The next act of the issuing thread. -/
def State.act (s : State) : Act :=
  let s := s.noteGuards
  let t := s.th
  if t.due.isSome || t.heldHere.isSome then .run (.asyncCause t.tid) s
  else if s.stopDue t then .run (.preemption t.tid) s
  else match t.status with
    | .parked => .run (.parkComplete t.tid) s
    | .leaving => .run (.leaveSlot t.tid) s
    | _ =>
      let c := s.credit
      if c.2 then c.1.fetch else .idle c.1.clock

/-- The thread that acts next: the issuing one while it can, else the first other that can, which gets its slot (03:R31); one that
holds its slot lets those of other slots go first (log 1). -/
def State.turn (s : State) : Option State :=
  if s.th.flow.holder && s.canRun s.th && s.th.flow.hold == 0 then some s
  else
    let ok (t : Thread) : Bool := s.canRun t &&
      (t.flow.holder || !(s.threads.any (fun u => sameSlot u.tid t.tid && u.flow.holder && s.canRun u)))
    match s.others.find? ok with
    | some t => some (s.grant t.tid)
    | none => if s.th.live && ok s.th then some (s.grant s.th.tid) else none
/-- An issue slot given by the agenda: its holder goes on, when it can (log 1). -/
def State.turnTo (s : State) (tid : Nat) : State :=
  match s.thread? tid with
  | some t => if t.flow.holder && s.canRun t then s.focus tid else s
  | none => s

/-- The clocks of the tiles run (31:R343-R344): in RUN, and on the way from LOW to RUN while ports train. -/
def State.clocked (s : State) : Bool := !s.pl.stopped && (s.pl.pwCur == 0 || s.pl.leaving)

end Sys2Proof.Machine
end

