-- ==== Sys2Proof/Machine/Claims.lean ====
section
/-! DEFINITION. Records taken into thread slots (03:R28, R35, 15:R213, 27:R311, R319). -/

namespace Sys2Proof.Machine
open Sys2Proof

/-- Register-space ranges of a thread, in KiB: its window and a gate caller's (07:R89, 15:R211). -/
def Thread.windows (t : Thread) : List (Nat × Nat) := (t.wbase, t.gran) :: (match t.caller with
  | some c => [(c.wbase, c.gran)]
  | none => [])
/-- Where a window of `gran` KiB of a domain fits on a tile (03:R28). -/
def State.roomFor (s : State) (tile dom gran : Nat) : Option Nat :=
  match (s.tile tile).dp? dom with
  | none => none
  | some (_, d) =>
    let used := (s.threads.filter (fun t => t.tile == tile)).flatMap Thread.windows
    ((List.range (d.rlen + 1 - gran)).map (d.rbase + ·)).find? (fun b => used.all (fun u => u.1 + u.2 ≤ b || b + gran ≤ u.1))
/-- Free thread slots of a domain on a tile; a retired tile has none (03:R28, 15:R219, 31:R347). -/
def State.freeSlots (s : State) (tile dom : Nat) : List Nat :=
  match (if s.retired tile then none else (s.tile tile).dp? dom) with
  | none => []
  | some (_, d) => (List.range 16).filter (fun k => bitOf d.tslot k && (s.thread? (tile * 16 + k)).isNone)

/-- What becomes of a record that a tile tries to take. -/
inductive Load where
  | cut (code : Nat)     -- its own address fails its checks
  | lost                 -- it is not RUNNABLE
  | noRoom               -- it stays where it is
  | invalid (s : State)  -- written FAULTED
  | ok (s : State)

/-- RECORD for an invalid record of a domain (27:R311). -/
def State.recordFault (s : State) (tile dom : Nat) (recA : Word) : State :=
  match (List.range 16).findSome? (fun k => (s.thread? (tile * 16 + k)).bind (fun t => if t.dom == dom then some t.tid else none)) with
  | some tid => s.refuseA tid ⟨.record, 0, recA⟩
  | none => { s with st := { s.st with pendRec := s.st.pendRec ++ [(tile, dom, recA)] } }
/-- Takes the record at `recA` of function `f` into a slot (03:R28, 27:R319). -/
def State.loadRecord (s : State) (f : Nat) (recA : Word) (tid : Nat) : Load :=
  match s.recTrap f recA, s.sysRead f recA 64 with
  | some x, _ => .cut x.cause.code
  | none, .error x => .cut x.cause.code
  | none, .ok rb =>
    let s := s.sysTouch f recA 64
    let w1 := wordAt rb 1
    let gran := bits (wordAt rb 2) 63 57
    if bits w1 14 12 ≠ 1 then .lost
    else
      let bad (s : State) : Load := .invalid ((s.setRecState f recA 5).recordFault (tid / 16) f recA)
      if !recordOk rb || bits w1 11 2 != f then bad s
      else match s.roomFor (tid / 16) f gran with
        | none => .noRoom
        | some base =>
          let save := addr52 (bits (wordAt rb 2) 51 10 * 1024)
          match s.sysRead f save (gran * 1024), s.sysRead f (save + BitVec.ofNat 64 (gran * 1024)) 256 with
          | .ok img, .ok blk =>
            let s := s.sysTouch f save (gran * 1024 + 256)
            if !blockOk blk gran then bad s
            else .ok (((s.setRecState f recA 2).enter (threadOf recA rb img blk tid base)).restartWatchdog tid)
          | _, _ => bad s
/-- A record leaves its run queue. -/
def State.unqueue (s : State) (e : RunEntry) : State := s.setQueued (s.st.runq.erase e)
/-- A record that cannot be claimed cuts its run queue (03:R28). -/
def State.cutQueue (s : State) (e : RunEntry) (code : Nat) : State :=
  let same (x : RunEntry) : Bool := x.die == e.die && x.dom == e.dom && x.pri == e.pri
  let ahead := (s.st.runq.filter same).takeWhile (· != e)
  (s.setQueued (s.st.runq.filter (fun x => !same x || ahead.contains x))).postFatal e.dom e.recA code
/-- KIND, GANG and GSIZE of a record. -/
def State.recGang (s : State) (e : RunEntry) : Option (Nat × Nat × Nat) :=
  match s.sysWord e.dom (e.recA + 48) with
  | .ok w => some (bits w 63 62, bits w 31 16, bits w 15 12)
  | .error _ => none
/-- What becomes of a queued record where it cannot be run: it or its queue leaves (03:R28). -/
def State.claimFails (s : State) (e : RunEntry) (tid : Nat) : Option State :=
  match s.loadRecord e.dom e.recA tid with
  | .invalid s => some (s.unqueue e)
  | .lost => some (s.unqueue e)
  | .cut c => some (s.cutQueue e c)
  | _ => none
/-- Records loaded one by one into slots; none where one of them stays. -/
def State.loadAll (s : State) : List (RunEntry × Nat) → Option State
  | [] => some s
  | (e, tid) :: r =>
    match s.loadRecord e.dom e.recA tid with
    | .ok s => (s.unqueue e).loadAll r
    | _ => none
/-- The record of a run-queue entry is taken into slot `tid`, with its whole gang; none where it stays queued (03:R28). -/
def State.claimEntry (s : State) (e : RunEntry) (tid : Nat) : Option State :=
  match s.recGang e with
  | some (1, g, n) =>
    let mates := s.st.runq.filter (fun x => x.dom == e.dom && s.recGang x == some (1, g, n))
    let slots := tid % 16 :: (s.freeSlots (tid / 16) e.dom).filter (· != tid % 16)
    let all := e :: mates.filter (· != e)
    let into := all.zip (slots.map (tid / 16 * 16 + ·))
    if all.length != n + 1 || slots.length < n + 1 then none
    else match into.findSome? (fun x => s.claimFails x.1 x.2) with
      | some s => some s
      | none => s.loadAll into
  | _ =>
    match s.loadRecord e.dom e.recA tid with
    | .ok s => some (s.unqueue e)
    | _ => s.claimFails e tid

end Sys2Proof.Machine
end

