-- ==== Sys2Proof/Machine/Vector.lean ====
section
/-! DEFINITION. Vector memory forms, lane movement and lane arithmetic (11:R133-R147, 07:R93). -/

namespace Sys2Proof.Machine
open Sys2Proof

-- Memory forms --------------------------------------------------------------------------------------------------------

/-- Width WC of an element (11:R135). -/
def wcOf (w : BitVec 2) : Nat := 2 ^ w.toNat
/-- Element format and decoding of a vector load of elements of `w` bytes, 0 for VLD (11:R137). -/
def vecDecodes (ef w : Nat) : Bool := (efOf ef).bytes != 0 && (w == 0 || (efOf ef).bytes == w)
/-- Pieces of every element in lane order; a fault reports the address of its lane (11:R138). -/
def elementPieces (a : Acc) (k : AccKind) (n : Nat) : List Word → State → Except Trap (List Piece × State)
  | [], s => .ok ([], s)
  | e :: es, s =>
    match s.pieces a k e n with
    | .error t => .error { t with tval := e }
    | .ok (ps, s) =>
      match elementPieces a k n es s with
      | .error t => .error t
      | .ok (qs, s) => .ok (ps ++ qs, s)
/-- A register's bytes overlap accumulator bytes whose rows are not all final (11:R133). -/
def Thread.accPending (t : Thread) (o : Nat) : Bool := t.meetsAcc o 128 && !t.rowsFinal o 128
/-- The window offset of an accumulator as a command binds it: 2^20 is added inside a gate call, whose window is the callee's, and
2^21 stands for a call that has ended (15:R211-R212; log 27). -/
def Thread.bound (t : Thread) (o : Nat) : Nat := if t.caller.isSome then o + 2 ^ 20 else o
/-- A write to window bytes waits for the matrix commands accepted on them (07:R93). -/
def State.writeWaits (s : State) (t : Thread) (o n : Nat) : Bool :=
  t.meetsAcc o n && (s.tile t.tile).mrun.any (fun r => r.entry.tid == t.tid && (match r.entry.cmd with
    | .mma _ x _ _ _ => t.bound o < x + 4096 && x < t.bound o + n
    | .mzero _ x => t.bound o < x + 4096 && x < t.bound o + n
    | .mscl .. => false))

/-- What R129, R130 and R138 make of the elements of a local-alias access: which of them are out of range. -/
inductive LocalAll where
  | trap (t : Trap)
  | park (w : Nat)
  | outsider (out : List Bool)
  | ok (out : List Bool)
def State.localAll (s : State) (t : Thread) (n : Nat) (es : List Nat) : LocalAll :=
  let fits (e : Nat) : Bool := e + n ≤ Config.sramSize
  match es.find? (fun e => fits e && (banksOf e n).any (fun b => !s.bankGranted t.tile t.dom b)) with
  | some e => .trap ⟨.domain, 0, BitVec.ofNat 64 e⟩
  | none =>
    let out (e : Nat) : Bool := !fits e || (banksOf e n).any (fun b => !s.bankScratch t.tile b)
    let outs := es.map out
    if es.any (fun e => !out e && (banksOf e n).any (s.compactBank t.tile)) && !s.insider t then .outsider outs
    else match es.findSome? (fun e => if out e then none else (s.tile t.tile).winAt e n (· != 2)) with
      | some (w, x) => if x.state = 3 then .trap ⟨.engine, x.code, x.faddr⟩ else .park w
      | none => .ok outs
/-- TS.OOB after the elements of an access, in lane order (11:R138). -/
def oobAll (t : Thread) (es : List Nat) (out : List Bool) : Thread :=
  (es.zip out).foldl (fun t p => if p.2 then t.outOfRange p.1 else t) t
/-- Parts of deferred elements, one read of a line for the access (03:R41); those out of range read zero. -/
def deferAll (a : Acc) (t0 n : Nat) : List (Nat × Bool) → State → List Part × State
  | [], s => ([], s)
  | (e, out) :: r, s =>
    let (ps, s) := if out then ([.have (List.replicate n 0)], s) else s.deferLocal a t0 8 e n
    let (qs, s) := deferAll a t0 n r s
    (ps ++ qs, s)

/-- A vector load of `k` elements of `n` bytes into the vector at offset `o` (11:R136-R138): `es` are all the form's element
addresses, `w` the element width or 0 for VLD. A `late` form's result is long-latency on local addresses too (11:R133). -/
def State.vload (s : State) (o : Nat) (isLocal late : Bool) (w : Nat) (es : List Word) : Done :=
  let t := s.th
  let win := (List.range 128).map (o + ·)
  let shape (ef : Nat) : Bool × Nat × Nat :=        -- decodes, elements, bytes of one
    let dec := vecDecodes ef w
    if w = 0 then (if dec then (true, 1, 32 * (efOf ef).bytes) else (false, 1, 128))
    else (dec, if dec then 32 else es.length, w)
  let fix (ef : Nat) (dec : Bool) (k : Nat) : Fix :=
    if dec then .vector (if w = 0 then (efOf ef).bytes else w) 32 ef true else .vector w k ef false
  if s.writeWaits t o 128 then .hold 1 s
  else if isLocal then
    let ef := t.loadEf 0
    let (dec, k, n) := shape ef
    let as := (es.take k).map BitVec.toNat
    match s.localAll t n as with
    | .trap x => .trap x
    | .park w => s.touch w
    | .outsider out =>
      if t.ordered 2 then .hold 2 s
      else
        let (ps, s) := deferAll t.acc s.fresh n (as.zip out) s
        .ok ({ s with th := oobAll s.th as out }.await ⟨0, win, .parts ps (fix ef dec k), none, 0⟩)
    | .ok out =>
      if t.ordered 2 then .hold 2 s else
      let bs := (as.zip out).flatMap (fun p => if p.2 then List.replicate n 0 else s.localBytes t p.1 n)
      let v := match fix ef dec k with
        | .vector fw fk fe fd => vectorBytes fw fk fe fd bs
        | _ => bs
      if late then .ok ({ s with th := oobAll t as out }.await ⟨0, win, .parts [.have bs] (fix ef dec k), none, 0⟩)
      else .ok { s with th := (oobAll t as out).winWrite o v }
  else
    match s.pieces t.acc .read (es.headD 0) 1 with
    | .error x => .trap x
    | .ok (p0, _) =>
      let ef := t.loadEf ((p0.head?.map (fun p => leafEf p.leaf)).getD 0)
      let (dec, k, n) := shape ef
      let r := if w = 0 then s.pieces t.acc .read (es.headD 0) n else elementPieces t.acc .read n (es.take k) s
      match r with
      | .error x => .trap x
      | .ok (ps, s) =>
        if s.accessWaits t.acc ps then .hold 2 s
        else
          let ord := loadOrd false ps
          s.loadThen t.acc ps (fun parts ft => ⟨0, win, .parts parts (fix ef dec k), ft, ord⟩)

/-- The refusal of the lowest lane that its target refuses, with that lane's address (11:R138). -/
def State.refusedLane (s : State) (a : Acc) (n : Nat) (es : List Word) : Option Trap :=
  es.findSome? (fun e => match s.pieces a .write e n with
    | .ok (ps, _) => (ps.findSome? (s.refusal a)).map (fun t => { t with tval := e })
    | .error _ => none)
/-- A vector store of elements of `n` bytes (11:R136-R138, R155): one that a target refuses writes nothing. -/
def State.vstore (s : State) (isLocal whole : Bool) (n : Nat) (es : List Word) (bs : List Byte) : Done :=
  let t := s.th
  if isLocal then
    let as := es.map BitVec.toNat
    match s.localAll t n as with
    | .trap x => .trap x
    | .park w => s.touch w
    | .outsider out =>
      let hit (p : Nat × Bool) : Bool := !p.2 && (banksOf p.1 n).any (s.compactBank t.tile)
      .ok (s.refuseD t.tid ⟨.cprot, 0, BitVec.ofNat 64 ((((as.zip out).find? hit).map (·.1)).getD 0)⟩)
    | .ok out =>
      let put := ((List.range as.length).zip (as.zip out)).filter (fun p => !p.2.2)
      if put.any (fun p => s.matrixReads t p.2.1 n) then .hold 1 s
      else if t.ordered 2 then .hold 2 s
      else
        let s := put.foldl (fun s p => s.localStore t p.2.1 ((bs.drop (n * p.1)).take n)) s
        .ok { s with th := oobAll s.th as out }
  else
    let r := if whole then s.pieces t.acc .write (es.headD 0) n else elementPieces t.acc .write n es s
    match r with
    | .error x => .trap x
    | .ok (ps, s) =>
      if s.accessWaits t.acc ps then .hold 2 s
      else match s.storeBlock t.acc ps with
        | some s => .hold 3 s
        | none => match (if whole then none else s.refusedLane t.acc n es) with
          | some x => .ok (s.refuseD t.tid x)
          | none => .ok (s.storeAll t.acc ps bs)

/-- Element addresses of VLDS and VSTS (11:R136). -/
def strided (b stride : Word) (k : Nat) : List Word := (List.range k).map (fun e => b + BitVec.ofNat 64 e * stride)
/-- Element addresses of VGTH and VSCT: lane e of the index vector scaled by the width (11:R136). -/
def indexed (b : Word) (w : Nat) (idx : List Byte) (k : Nat) : List Word :=
  (List.range k).map (fun e => b + BitVec.ofNat 64 w * BitVec.ofNat 64 (sextN 32 64 (lane idx 4 e)))
/-- Index lanes used (11:R136). -/
def gatherN (w : Nat) : Nat := Nat.min 32 (128 / w)

/-- VLD (11:R135-R138). -/
def execVld (m : Mark) (d a b : Reg) (l : BitVec 1) (s : State) : Host.Outcome State Fault Refusal :=
  s.issue (.vld m d a b l) (fun s => match s.th.vo d.toNat with
    | none => .trap ⟨.illstate, 0, s.th.pc⟩
    | some o => s.vload o (l == 1) false 0 [s.th.gr a + s.th.gr b])
/-- VST (11:R135-R138). -/
def execVst (m : Mark) (d a b : Reg) (l : BitVec 1) (s : State) : Host.Outcome State Fault Refusal :=
  s.issue (.vst m d a b l) (fun s => match s.th.vo d.toNat with
    | none => .trap ⟨.illstate, 0, s.th.pc⟩
    | some o => if s.th.accPending o then .hold 2 s
                else s.vstore (l == 1) true 128 [s.th.gr a + s.th.gr b] (s.th.vread d.toNat o))
/-- VLDS (11:R135-R138). -/
def execVlds (m : Mark) (d a b : Reg) (l : BitVec 1) (w : BitVec 2) (s : State) : Host.Outcome State Fault Refusal :=
  s.issue (.vlds m d a b l w) (fun s => match s.th.vo d.toNat with
    | none => .trap ⟨.illstate, 0, s.th.pc⟩
    | some o => s.vload o (l == 1) false (wcOf w) (strided (s.th.gr a) (s.th.gr b) (128 / wcOf w)))
/-- VSTS (11:R135-R138). -/
def execVsts (m : Mark) (d a b : Reg) (l : BitVec 1) (w : BitVec 2) (s : State) : Host.Outcome State Fault Refusal :=
  s.issue (.vsts m d a b l w) (fun s => match s.th.vo d.toNat with
    | none => .trap ⟨.illstate, 0, s.th.pc⟩
    | some o => if s.th.accPending o then .hold 2 s
                else s.vstore (l == 1) false (wcOf w) (strided (s.th.gr a) (s.th.gr b) (128 / wcOf w)) (s.th.vread d.toNat o))
/-- VGTH (11:R135-R138). -/
def execVgth (m : Mark) (d a b : Reg) (l : BitVec 1) (w : BitVec 2) (s : State) : Host.Outcome State Fault Refusal :=
  s.issue (.vgth m d a b l w) (fun s => match s.th.vo d.toNat, s.th.vo b.toNat with
    | some o, some x =>
      if s.th.accPending x then .hold 2 s
      else s.vload o (l == 1) true (wcOf w) (indexed (s.th.gr a) (wcOf w) (s.th.vread b.toNat x) (gatherN (wcOf w)))
    | _, _ => .trap ⟨.illstate, 0, s.th.pc⟩)
/-- VSCT (11:R135-R138). -/
def execVsct (m : Mark) (d a b : Reg) (l : BitVec 1) (w : BitVec 2) (s : State) : Host.Outcome State Fault Refusal :=
  s.issue (.vsct m d a b l w) (fun s => match s.th.vo d.toNat, s.th.vo b.toNat with
    | some o, some x =>
      if s.th.accPending o || s.th.accPending x then .hold 2 s
      else s.vstore (l == 1) false (wcOf w) (indexed (s.th.gr a) (wcOf w) (s.th.vread b.toNat x) (gatherN (wcOf w)))
        (s.th.vread d.toNat o)
    | _, _ => .trap ⟨.illstate, 0, s.th.pc⟩)

-- Register forms ------------------------------------------------------------------------------------------------------

/-- A v register's bytes and, where they are accumulator bytes, their offset (07:R93, 11:R133). -/
def Thread.operand (t : Thread) (i : Nat) (o : Nat) : List Byte × Nat :=
  (t.vread i o, if t.meetsAcc o 128 && (t.bypassed true i).isNone then o else 0)
/-- An operand as a late form keeps it. -/
def Thread.late (t : Thread) (p : List Byte × Nat) : LateOp := t.lateOp p.2 p.1
/-- A vector form from registers to v register `d`: `rd` also reads it; absent operands are g-register bytes (11:R133). -/
def State.vec (s : State) (i : Instr) (m : Mark) (d : Reg) (rd : Bool) (a b : Option Reg) (xa xb : Thread → List Byte) :
    Host.Outcome State Fault Refusal :=
  s.issue i (fun s =>
    let t := s.th
    let off (r : Option Reg) : Option Nat := match r with
      | some r => t.vo r.toNat
      | none => some 0
    match t.vo d.toNat, off a, off b with
    | some o, some oa, some ob =>
      let pa := match a with | some r => t.operand r.toNat oa | none => (xa t, 0)
      let pb := match b with | some r => t.operand r.toNat ob | none => (xb t, 0)
      let pd := if rd then t.operand d.toNat o else ([], 0)
      if !transientMark m && s.writeWaits t o 128 then .hold 1 s
      else if pa.2 + pb.2 + pd.2 != 0 then
        .ok (s.await ⟨0, (List.range 128).map (o + ·), .late i (t.late pa) (t.late pb) (t.late pd), none, 0⟩)
      else
        let r := vecEval i pa.1 pb.1 pd.1
        .ok (({ s with th := t.vdeliver m d.toNat o r.1 }).setfx r.2)
    | _, _, _ => .trap ⟨.illstate, 0, t.pc⟩)
/-- Without g operands. -/
def noBytes (_ : Thread) : List Byte := []

/-- VBCST (11:R139). -/
def execVbcst (m : Mark) (d a : Reg) (e : BitVec 3) (s : State) : Host.Outcome State Fault Refusal :=
  s.issue (.vbcst m d a e) (fun s =>
    let t := s.th
    match t.vo d.toNat with
    | none => .trap ⟨.illstate, 0, t.pc⟩
    | some o =>
      if s.writeWaits t o 128 then .hold 1 s
      else .ok { s with th := t.winWrite o (lanes (etW e) (128 / etW e) (fun _ => ((t.gr a).toNat, 0))).1 })
/-- VEXT (11:R139). -/
def execVext (m : Mark) (d a b : Reg) (e : BitVec 3) (s : State) : Host.Outcome State Fault Refusal :=
  s.issue (.vext m d a b e) (fun s =>
    let t := s.th
    match t.vo a.toNat with
    | none => .trap ⟨.illstate, 0, t.pc⟩
    | some o =>
      let p := t.operand a.toNat o
      let ix := leBytes 8 (t.gr b).toNat
      if p.2 != 0 then
        if t.countsBy d then .trap ⟨.illstate, 0, t.pc⟩
        else .ok (s.await ⟨d, [], .late (.vext m d a b e) (t.late p) (t.late (ix, 0)) (t.late ([], 0)), none, 0⟩)
      else .ok (s.gw d (BitVec.ofNat 64 (leNat (vecEval (.vext m d a b e) p.1 ix []).1))))
/-- VINS (11:R139). -/
def execVins (m : Mark) (d a b : Reg) (e : BitVec 3) (s : State) : Host.Outcome State Fault Refusal :=
  s.vec (.vins m d a b e) m d true none none (fun t => leBytes 8 (t.gr a).toNat) (fun t => leBytes 8 (t.gr b).toNat)
/-- VADD (11:R140). -/
def execVadd (m : Mark) (d a b : Reg) (e : BitVec 3) (s : State) : Host.Outcome State Fault Refusal :=
  s.vec (.vadd m d a b e) m d false (some a) (some b) noBytes noBytes
/-- VSUB (11:R140). -/
def execVsub (m : Mark) (d a b : Reg) (e : BitVec 3) (s : State) : Host.Outcome State Fault Refusal :=
  s.vec (.vsub m d a b e) m d false (some a) (some b) noBytes noBytes
/-- VMUL (11:R140). -/
def execVmul (m : Mark) (d a b : Reg) (e : BitVec 3) (s : State) : Host.Outcome State Fault Refusal :=
  s.vec (.vmul m d a b e) m d false (some a) (some b) noBytes noBytes
/-- VMIN (11:R140). -/
def execVmin (m : Mark) (d a b : Reg) (e : BitVec 3) (s : State) : Host.Outcome State Fault Refusal :=
  s.vec (.vmin m d a b e) m d false (some a) (some b) noBytes noBytes
/-- VMAX (11:R140). -/
def execVmax (m : Mark) (d a b : Reg) (e : BitVec 3) (s : State) : Host.Outcome State Fault Refusal :=
  s.vec (.vmax m d a b e) m d false (some a) (some b) noBytes noBytes
/-- VSHL (11:R140). -/
def execVshl (m : Mark) (d a b : Reg) (e : BitVec 3) (s : State) : Host.Outcome State Fault Refusal :=
  s.vec (.vshl m d a b e) m d false (some a) (some b) noBytes noBytes
/-- VSHR (11:R140). -/
def execVshr (m : Mark) (d a b : Reg) (e : BitVec 3) (s : State) : Host.Outcome State Fault Refusal :=
  s.vec (.vshr m d a b e) m d false (some a) (some b) noBytes noBytes
/-- VSRA (11:R140). -/
def execVsra (m : Mark) (d a b : Reg) (e : BitVec 3) (s : State) : Host.Outcome State Fault Refusal :=
  s.vec (.vsra m d a b e) m d false (some a) (some b) noBytes noBytes
/-- VMAD (11:R140). -/
def execVmad (m : Mark) (d a b : Reg) (e : BitVec 3) (s : State) : Host.Outcome State Fault Refusal :=
  s.vec (.vmad m d a b e) m d true (some a) (some b) noBytes noBytes
/-- VABS (11:R140). -/
def execVabs (m : Mark) (d a : Reg) (e : BitVec 3) (s : State) : Host.Outcome State Fault Refusal :=
  s.vec (.vabs m d a e) m d false (some a) none noBytes noBytes
/-- VNEG (11:R140). -/
def execVneg (m : Mark) (d a : Reg) (e : BitVec 3) (s : State) : Host.Outcome State Fault Refusal :=
  s.vec (.vneg m d a e) m d false (some a) none noBytes noBytes
/-- VAND (11:R140). -/
def execVand (m : Mark) (d a b : Reg) (s : State) : Host.Outcome State Fault Refusal :=
  s.vec (.vand m d a b) m d false (some a) (some b) noBytes noBytes
/-- VOR (11:R140). -/
def execVor (m : Mark) (d a b : Reg) (s : State) : Host.Outcome State Fault Refusal :=
  s.vec (.vor m d a b) m d false (some a) (some b) noBytes noBytes
/-- VXOR (11:R140). -/
def execVxor (m : Mark) (d a b : Reg) (s : State) : Host.Outcome State Fault Refusal :=
  s.vec (.vxor m d a b) m d false (some a) (some b) noBytes noBytes
/-- VCMP (11:R141). -/
def execVcmp (m : Mark) (d a : Reg) (c : BitVec 5) (e : BitVec 3) (s : State) : Host.Outcome State Fault Refusal :=
  s.vec (.vcmp m d a c e) m d true (some a) none noBytes noBytes
/-- VSEL (11:R141). -/
def execVsel (m : Mark) (d a b : Reg) (s : State) : Host.Outcome State Fault Refusal :=
  s.vec (.vsel m d a b) m d true (some a) (some b) noBytes noBytes
/-- VPERM (11:R139). -/
def execVperm (m : Mark) (d a b : Reg) (e : BitVec 3) (s : State) : Host.Outcome State Fault Refusal :=
  s.vec (.vperm m d a b e) m d false (some a) (some b) noBytes noBytes
/-- VRED (11:R142). -/
def execVred (m : Mark) (d a : Reg) (k : BitVec 5) (e : BitVec 3) (s : State) : Host.Outcome State Fault Refusal :=
  s.vec (.vred m d a k e) m d false (some a) none noBytes noBytes
/-- VFADD (11:R143). -/
def execVfadd (m : Mark) (d a b : Reg) (e : BitVec 3) (s : State) : Host.Outcome State Fault Refusal :=
  s.vec (.vfadd m d a b e) m d false (some a) (some b) noBytes noBytes
/-- VFSUB (11:R143). -/
def execVfsub (m : Mark) (d a b : Reg) (e : BitVec 3) (s : State) : Host.Outcome State Fault Refusal :=
  s.vec (.vfsub m d a b e) m d false (some a) (some b) noBytes noBytes
/-- VFMUL (11:R143). -/
def execVfmul (m : Mark) (d a b : Reg) (e : BitVec 3) (s : State) : Host.Outcome State Fault Refusal :=
  s.vec (.vfmul m d a b e) m d false (some a) (some b) noBytes noBytes
/-- VFMIN (11:R143). -/
def execVfmin (m : Mark) (d a b : Reg) (e : BitVec 3) (s : State) : Host.Outcome State Fault Refusal :=
  s.vec (.vfmin m d a b e) m d false (some a) (some b) noBytes noBytes
/-- VFMAX (11:R143). -/
def execVfmax (m : Mark) (d a b : Reg) (e : BitVec 3) (s : State) : Host.Outcome State Fault Refusal :=
  s.vec (.vfmax m d a b e) m d false (some a) (some b) noBytes noBytes
/-- VFMA (11:R143). -/
def execVfma (m : Mark) (d a b : Reg) (e : BitVec 3) (s : State) : Host.Outcome State Fault Refusal :=
  s.vec (.vfma m d a b e) m d true (some a) (some b) noBytes noBytes
/-- VRCP (11:R143). -/
def execVrcp (m : Mark) (d a : Reg) (e : BitVec 3) (s : State) : Host.Outcome State Fault Refusal :=
  s.vec (.vrcp m d a e) m d false (some a) none noBytes noBytes
/-- VRSQ (11:R143). -/
def execVrsq (m : Mark) (d a : Reg) (e : BitVec 3) (s : State) : Host.Outcome State Fault Refusal :=
  s.vec (.vrsq m d a e) m d false (some a) none noBytes noBytes
/-- VCVT (11:R144). -/
def execVcvt (m : Mark) (d a b : Reg) (e : BitVec 3) (s : State) : Host.Outcome State Fault Refusal :=
  s.vec (.vcvt m d a b e) m d false (some a) none noBytes noBytes
/-- VPACK (11:R145). -/
def execVpack (m : Mark) (d a b : Reg) (e : BitVec 3) (s : State) : Host.Outcome State Fault Refusal :=
  s.vec (.vpack m d a b e) m d false (some a) (some b) noBytes noBytes
/-- VUNPK (11:R145). -/
def execVunpk (m : Mark) (d a b : Reg) (e : BitVec 3) (s : State) : Host.Outcome State Fault Refusal :=
  s.vec (.vunpk m d a b e) m d false (some a) none noBytes noBytes
/-- VSCL (11:R147). -/
def execVscl (m : Mark) (d a b : Reg) (e : BitVec 3) (s : State) : Host.Outcome State Fault Refusal :=
  s.vec (.vscl m d a b e) m d false (some a) none noBytes noBytes

end Sys2Proof.Machine
end

