-- ==== Sys2Proof/Machine/Matrix.lean ====
section
/-! DEFINITION. The matrix unit: plane groups, matrix commands, scale queues and the loft, capabilities and remote commands,
accumulators saved and restored (11:R148-R166, 05:R64-R70). -/

namespace Sys2Proof.Machine
open Sys2Proof

-- Plane groups --------------------------------------------------------------------------------------------------------

/-- A matrix format code up to `top` (11:R146). -/
def mfcUpTo (top c : Nat) : Option Mfc := if c ≤ top then mfc c else none
/-- Descriptor halfword and significand of one element code (11:R150; log 23 for the sign of NaN and iW). -/
def planeOf (f : Mfc) (c : Nat) : Nat × Nat :=
  match f with
  | .planeInt w => (if w ≠ 1 ∧ bitOf c (w - 1) = true then 0x8000 else 0, c % 2 ^ w)
  | .elem _ _ => (0, 0)
  | .flt g =>
    let m := if g.signed then c % 2 ^ (g.width - 1) else c % 2 ^ g.width
    let e := m / 2 ^ g.trail
    match g.val c with
    | .nan _ => ((if g.signed && bitOf c (g.width - 1) then 0x8000 else 0) + 0x4000 + e, 0)
    | .inf s => ((if s then 0x8000 else 0) + 0x2000 + e, 0)
    | .fin s _ _ => ((if s then 0x8000 else 0) + e, m % 2 ^ g.trail + (if e = 0 then 0 else 2 ^ g.trail))
/-- The plane group of 32 element codes (11:R150). -/
def planeGroup (f : Mfc) (codes : List Nat) : List Byte :=
  let es := codes.map (planeOf f)
  es.flatMap (fun e => leBytes 2 e.1) ++
    (List.range f.prec).flatMap (fun j =>
      leBytes 4 (((List.range 32).map (fun e => if bitOf (es.getD e (0, 0)).2 j then 2 ^ e else 0)).sum))
/-- Significand of element `e` of a plane group. -/
def planeSig (f : Mfc) (g : List Byte) (e : Nat) : Nat :=
  ((List.range f.prec).map (fun j => if bitOf (g.getD (64 + 4 * j + e / 8) 0).toNat (e % 8) then 2 ^ j else 0)).sum
/-- Value of element `e` of a plane group of a floating format: every NaN is quiet (11:R150). -/
def planeNum (f : Fmt) (g : List Byte) (e : Nat) : Num :=
  let d := lane g 2 e
  let s := bitOf d 15
  match bits d 14 13 with
  | 0 => .fin s (planeSig (.flt f) g e) ((if bits d 12 0 = 0 then 1 else bits d 12 0 : Nat) - f.bias - f.trail)
  | 1 => .inf s
  | _ => .nan false

-- Operands and arithmetic ---------------------------------------------------------------------------------------------

/-- The operand a descriptor names over `k` elements; none where R153 refuses it. -/
def Tile.operand? (t : Tile) (d : Word) (k : Nat) : Option (MOper × Win × Mfc) :=
  let x := d.toNat
  if bits x 63 32 ≠ 0 ∨ bits x 7 5 ≠ 0 ∨ bits x 31 8 % 32 ≠ 0 then none
  else match t.win? (bits x 4 0) with
    | none => none
    | some w =>
      match (if w.plane then mfcUpTo 0x2F w.fmt else none), w.dims with
      | some f, d0 :: d1 :: _ =>
        if d0.box < 32 ∨ d1.box < bits x 31 8 + k then none
        else some (⟨bits x 4 0, w.sline * 192, bits x 31 8, w.fmt, w.bg, w.scf⟩, w, f)
      | _, _ => none
def Mfc.isInt : Mfc → Bool
  | .planeInt _ => true | _ => false
/-- What R153 makes of the two descriptors and K: the value of the illegal-state trap, or the operands. -/
def Tile.operands (t : Tile) (da db k : Word) : Except Word ((MOper × Win) × (MOper × Win)) :=
  if 0xFFFFFF < k.toNat then .error k
  else match t.operand? da k.toNat, t.operand? db k.toNat with
    | none, _ => .error da
    | some _, none => .error db
    | some (a, wa, fa), some (b, wb, fb) => if fa.isInt != fb.isInt then .error da else .ok ((a, wa), (b, wb))
/-- R130 on the lines of a command's windows (11:R153). -/
def State.windowTrap (s : State) (t : Thread) (ws : List Nat) : Option Trap :=
  let at_ (e b : Nat) : Nat := Nat.max e (b * Config.bankSize)
  let lines := ws.filterMap (fun w => ((s.tile t.tile).win? w).map (fun x => (x.sline * 192, x.nline * 192)))
  let marks := lines.flatMap (fun r => (banksOf r.1 r.2).map (fun b => (b, at_ r.1 b)))
  let low (l : List (Nat × Nat)) : Nat := l.foldl (fun m p => Nat.min m p.2) Config.sramSize
  let dom := marks.filter (fun p => !s.bankGranted t.tile t.dom p.1)
  let out := marks.filter (fun p => s.compactBank t.tile p.1)
  if !dom.isEmpty then some ⟨.domain, 0, BitVec.ofNat 64 (low dom)⟩
  else if !out.isEmpty && !s.insider t then some ⟨.cprot, 0, BitVec.ofNat 64 (low out)⟩
  else none

/-- The 32-bit words of accumulator bytes. -/
def accWords (bs : List Byte) : List Nat := (List.range 1024).map (fun i => lane bs 4 i)
/-- Scale of a row or column from its entry byte (11:R154, 05:R68). -/
def scaleNum (o : MOper) (b : Byte) : Num :=
  if o.bg then (if o.scf then (Fmt.n8 4 true).val b.toNat else Fmt.sx8.val b.toNat) else .fin false 1 0
/-- One chunk over the plane groups of A and B and a scale entry (05:R67-R69). -/
def chunk (a b : MOper) (ga gb : List (List Byte)) (e : List Byte) (acc : List Nat) : List Nat × Flags :=
  let out : List (Nat × Flags) := match mfc a.fmt, mfc b.fmt with
    | some (.planeInt wa), some (.planeInt wb) =>
      let iv (w : Nat) (g : List Byte) (x : Nat) : Int := planeIntVal w (planeSig (.planeInt w) g x)
      let ia := ga.map (fun g => (List.range 32).map (iv wa g))
      let ib := gb.map (fun g => (List.range 32).map (iv wb g))
      (List.range 1024).map (fun x => chunkAddI (acc.getD x 0)
        (((ia.zip ib).map (fun (p : List Int × List Int) => p.1.getD (x / 32) 0 * p.2.getD (x % 32) 0)).sum))
    | some (.flt fa), some (.flt fb) =>
      let na := ga.map (fun g => (List.range 32).map (planeNum fa g))
      let nb := gb.map (fun g => (List.range 32).map (planeNum fb g))
      (List.range 1024).map (fun x =>
        let ps := (na.zip nb).map (fun (p : List Num × List Num) => (p.1.getD (x / 32) (.nan false)).mul (p.2.getD (x % 32) (.nan false)))
        let s := sumExact (ps.map (·.1))
        let c := chunkAddF (acc.getD x 0) s.1 (scaleNum a (e.getD (x / 32) 0)) (scaleNum b (e.getD (32 + x % 32) 0))
        (c.1, ps.foldl (fun f p => f ||| p.2) (s.2 ||| c.2)))
    | _, _ => acc.map (fun x => (x, 0))
  (out.map (·.1), out.foldl (fun f p => f ||| p.2) 0)
/-- Chunks `c` on of a command, `n` of them. -/
def State.chunksFrom (s : State) (tile : Nat) (a b : MOper) (k : Nat) (scales : List (List Byte)) :
    Nat → Nat → List Nat → List Nat × Flags
  | 0, _, acc => (acc, 0)
  | n + 1, c, acc =>
    let group (o : MOper) (i : Nat) : List Byte := s.read (sramAddr tile (o.base + (o.k0 + i) * groupSize o.fmt)) (groupSize o.fmt)
    let ks := (List.range (Nat.min 32 (k - 32 * c))).map (· + 32 * c)
    let r := chunk a b (ks.map (group a)) (ks.map (group b)) (scales.getD c []) acc
    let q := s.chunksFrom tile a b k scales n (c + 1) r.1
    (q.1, r.2 ||| q.2)
/-- Scale entries a command takes (11:R153). -/
def MCmd.chunks : MCmd → Nat
  | .mma _ _ _ _ k => (k + 31) / 32
  | _ => 0
def MCmd.scaled : MCmd → Bool
  | .mma _ _ a b _ => (match mfc a.fmt with
    | some (.flt _) => a.bg || b.bg
    | _ => false)
  | _ => false
def MCmd.acc : MCmd → Nat
  | .mzero a _ => a | .mma a _ _ _ _ => a | .mscl a _ _ => a
def MCmd.isScale : MCmd → Bool
  | .mscl _ _ _ => true | _ => false
/-- Window offset of a command's accumulator. -/
def MCmd.off : MCmd → Nat
  | .mzero _ o => o | .mma _ o _ _ _ => o | .mscl _ o _ => o
/-- A command whose accumulator no thread holds any more: its gate call or its thread has ended (15:R212, R216; log 27). -/
def MCmd.isGone (c : MCmd) : Bool := !c.isScale && decide (2 ^ 21 ≤ c.off)

-- The unit ------------------------------------------------------------------------------------------------------------

/-- Entries a domain may still place in a tile's scale queue (11:R154). -/
def Tile.scaleRoom (t : Tile) (dom : Nat) : Nat :=
  Nat.min (64 - t.scq.length) ((if 1 < (t.dps.filter (·.v)).length then 16 else 64) - (t.scq.filter (·.dom == dom)).length)
/-- An awaited read of accumulator bytes from offset `o`, which a command on them may not overtake (11:R151). -/
def Outst.reads (x : Outst) (o : Nat) : Bool :=
  let hit (x : LateOp) : Bool := x.rows.any (fun r => x.off + r.1 < o + 4096 && o < x.off + r.1 + 128)
  match x.src with
  | .late _ a b d => hit a || hit b || hit d
  | _ => false
/-- The window bytes in which a command's accumulator was bound. -/
def Thread.accWin (t : Thread) (o : Nat) : List Host.Cell := match t.caller with
  | none => if o < 2 ^ 20 then t.win else []
  | some c => if o < 2 ^ 20 then c.win else if o < 2 ^ 21 then t.win else []
/-- Bytes written where a command's accumulator was bound. -/
def Thread.accPut (t : Thread) (o at_ : Nat) (bs : List Byte) : Thread := match t.caller with
  | none => if o < 2 ^ 20 then { t with win := writeBytes t.win (o + at_) bs } else t
  | some c =>
    if o < 2 ^ 20 then { t with caller := some { c with win := writeBytes c.win (o + at_) bs } }
    else if o < 2 ^ 21 then { t with win := writeBytes t.win (o % 2 ^ 20 + at_) bs } else t
/-- An awaited read of the thread, of its own window, meets a command's accumulator (11:R151). -/
def Thread.readsAcc (t : Thread) (o : Nat) : Bool :=
  decide (t.bound 0 ≤ o && o < t.bound 0 + 2 ^ 20) && t.capture.flow.outs.any (·.reads (o % 2 ^ 20))
def Mu.setWm (m : Mu) (a x : Nat) : Mu := { m with wm := m.wm.set a x }
def Mu.setOwn (m : Mu) (a x : Nat) : Mu := { m with own := m.own.set a x }
/-- A command starts on its accumulator: MU.WM is 0 (11:R151). -/
def State.startCmd (s : State) (tile : Nat) (e : MEntry) : State :=
  let t := s.tile tile
  let s := s.setTile tile { t with mrun := t.mrun ++ [⟨e, [], [], 0, 0, t.cyc⟩] }
  if e.cmd.isGone then s else s.onThread e.tid (fun th => { th.capture with mu := th.mu.setWm e.cmd.acc 0 })
/-- The head command of a thread's queue is accepted, discarded or, for MSCL, pushed; none where it must wait (11:R151, R163). -/
def State.acceptHead (s : State) (tile : Nat) (th : Thread) : Option State :=
  match th.flow.mq with
  | [] => none
  | e :: rest =>
    let pop (s : State) : State := s.onThread th.tid (fun t => { t with flow := { t.flow with mq := rest } })
    match th.cond e.guard with
    | .pend => none
    | .fls => some (pop s)
    | .tru => match e.cmd with
      | .mscl a o n =>
        let t := s.tile tile
        let k := Nat.min n (t.scaleRoom th.dom)
        if k = 0 then none
        else
          let put (i : Nat) : ScaleEntry := ⟨th.dom, th.slot, a,
            if o + 64 * (i + 1) ≤ Config.sramSize then s.read (sramAddr tile (o + 64 * i)) 64 else List.replicate 64 0⟩
          let s := s.setTile tile { t with scq := t.scq ++ (List.range k).map put, mlast := th.slot }
          some (if k = n then pop s
            else s.onThread th.tid (fun t => { t with flow := { t.flow with mq := { e with cmd := .mscl a (o + 64 * k) (n - k) } :: rest } }))
      | .mzero _ o =>
        if th.readsAcc o then none
        else some (pop ((s.setTile tile { s.tile tile with mlast := th.slot }).startCmd tile e))
      | .mma _ o _ _ _ =>
        if th.readsAcc o then none
        else some (pop ((s.setTile tile { s.tile tile with mlast := th.slot }).startCmd tile e))
/-- The received queue's head is accepted once its windows are present; an absent one starts its fill (11:R151, R159). One whose window's
fill has failed, or that was unbound after the command was received, waits for the window to be bound and filled anew: R159 refuses nothing
then (DESIGN CHOICE, log 86). -/
def State.acceptReceived (s : State) (tile : Nat) : Option State :=
  let t := s.tile tile
  match t.mrecv with
  | [] => none
  | e :: rest =>
    match e.cmd with
    | .mma c o a b k =>
      let ready (x : MOper) : Bool := match t.win? x.win with
        | some w => w.state == 2
        | none => false
      let now (x : MOper) : MOper := match t.win? x.win with
        | some w => { x with bg := w.bg, scf := w.scf }
        | none => x
      if ready a && ready b then
        some ((s.setTile tile { t with mrecv := rest }).startCmd tile { e with cmd := .mma c o (now a) (now b) k })
      else
        let absent (x : MOper) : Option (Nat × Win) := match t.win? x.win with
          | some w => if w.state = 0 then some (x.win, w) else none
          | none => none
        match (absent a).or (absent b), s.thread? e.tid with
        | some (w, x), some th => if s.engineFull (copyEngine tile) then none else some (s.startFill tile w x th false)
        | _, _ => none
    | _ => some ((s.setTile tile { t with mrecv := rest }).startCmd tile e)
/-- The matrix unit of a tile accepts one command: thread queues round-robin first, then the received queue (11:R151, 01:R18). -/
def State.matrixAccept (s : State) (tile : Nat) : Option State :=
  let t := s.tile tile
  let slots := (List.range 16).map (fun i => tile * 16 + (t.mlast + 1 + i) % 16)
  match slots.findSome? (fun x => (s.thread? x).bind (s.acceptHead tile)) with
  | some s => some s
  | none => s.acceptReceived tile

/-- The command being run takes its next scale entry, the oldest with its tag (11:R154). -/
def State.takeScale (s : State) (tile : Nat) : Option State :=
  let t := s.tile tile
  match t.mrun with
  | [] => none
  | r :: rest =>
    if !r.entry.cmd.scaled || r.entry.cmd.chunks ≤ r.scales.length then none
    else match t.scq.find? (fun e => e.slot == r.entry.tid % 16 && e.acc == r.entry.cmd.acc) with
      | none => none
      | some e => some (s.setTile tile { t with
          scq := t.scq.erase e, mrun := { r with scales := r.scales ++ [e.bytes] } :: rest })
/-- The result of a command over its accumulator's bytes, with its flags (11:R153, R161). -/
def State.runCmd (s : State) (tile : Nat) (r : MRun) (th : Thread) : List Byte × Flags :=
  match r.entry.cmd with
  | .mma _ o x y k =>
    let q := s.chunksFrom tile x y k r.scales ((k + 31) / 32) 0 (accWords (readBytes (th.accWin o) (o % 2 ^ 20) 4096))
    (q.1.flatMap (fun w => leBytes 4 w), q.2)
  | _ => (List.replicate 4096 0, 0)
/-- Four rows of a command's result are written; MU.WM passes them, unless a command accepted later on the accumulator keeps it, and with
the last ones come the flags, which an MZERO clears (11:R151, R161, 05:R64). -/
def MRun.writeRows (r : MRun) (later : Bool) (th : Thread) : Thread :=
  let th := th.capture
  let a := r.entry.cmd.acc
  let mu := if later then th.mu else th.mu.setWm a (r.rows + 4)
  let fx := match r.entry.cmd with
    | .mzero _ _ => 0
    | _ => th.mu.fx.getD a 0 ||| r.fx
  { th.accPut r.entry.cmd.off (128 * r.rows) ((r.res.drop (128 * r.rows)).take 512) with
    mu := if r.rows < 28 then mu else { mu with fx := th.mu.fx.set a fx } }
/-- The command run first, once it has its scale entries, writes its next four rows, after the last of which it has ended (11:R151). -/
def State.matrixComplete (s : State) (tile : Nat) : Option State :=
  let t := s.tile tile
  match t.mrun with
  | [] => none
  | r :: rest =>
    if r.entry.cmd.scaled && r.scales.length < r.entry.cmd.chunks then none
    else
      let r := if r.res.isEmpty then
          (let q := s.runCmd tile r ((s.thread? r.entry.tid).getD .empty)
           { r with res := q.1, fx := q.2 })
        else r
      let later := rest.any (fun q => q.entry.tid == r.entry.tid && q.entry.cmd.acc == r.entry.cmd.acc)
      let put (th : Thread) : Thread := if r.entry.cmd.isGone then th else r.writeRows later th
      if r.rows < 28 then some ((s.setTile tile { t with mrun := { r with rows := r.rows + 4 } :: rest }).onThread r.entry.tid put)
      else some ((s.setTile tile { t with mrun := rest }).onThread r.entry.tid (fun th =>
        ((put th).countEv 8 1).countEv 9 (t.cyc - r.since).toNat))

-- Issue of commands ---------------------------------------------------------------------------------------------------

def Thread.ownOk (t : Thread) (a : Nat) : Bool := t.mu.own.getD a 0 == 0 || t.mu.own.getD a 0 == t.priv.code + 1
/-- Claims an accumulator for the executing mode (11:R149). -/
def Thread.claim (t : Thread) (a : Nat) : Thread := { t with mu := t.mu.setOwn a (t.priv.code + 1) }
/-- The capability trap of an accumulator (11:R149). -/
def Thread.capTrap (t : Thread) (a : Nat) : Option Trap := if t.ownOk a then none else some ⟨.cap, 0, BitVec.ofNat 64 a⟩
/-- An accumulator that a word names is absent from the view: a check of the decoder, before every other cause (07:R79, 11:R160). -/
def Thread.viewTrap (t : Thread) (a : Nat) : Option Trap := if (t.ao a).isNone then some ⟨.illstate, 0, t.pc⟩ else none
/-- The traps of an accumulator that a control register names (11:R165, 27:R313). -/
def Thread.accTrap (t : Thread) (a : Nat) : Option Trap := match t.capTrap a with
  | some x => some x
  | none => t.viewTrap a
/-- Puts a command into the thread's queue; a full queue holds (11:R151). -/
def State.pushCmd (s : State) (q : BitVec 3) (c : MCmd) (f : Thread → Thread) : Done :=
  if 8 ≤ s.th.flow.mq.length then .hold 1 s
  else
    let t := f s.th
    .ok { s with th := { t with flow := { t.flow with mq := t.flow.mq ++ [⟨c, t.condTag q.toNat, t.tid, t.tid⟩] } } }

/-- MMA (11:R152-R153). -/
def execMma (m : Mark) (q : BitVec 3) (c : BitVec 2) (a b : Reg) (k : BitVec 5) (s : State) : Host.Outcome State Fault Refusal :=
  s.issue (.mma m q c a b k) (fun s =>
    let t := s.th
    let da := t.gr a
    let db := t.gr b
    match t.viewTrap c.toNat, (if 0xFFFFFF < (t.gr k).toNat then some ⟨.illstate, 0, t.gr k⟩ else s.windowTrap t [da.toNat % 32, db.toNat % 32]),
      t.capTrap c.toNat with
    | some x, _, _ => .trap x
    | none, some x, _ => .trap x
    | none, none, some x => .trap x
    | none, none, none =>
      match (s.tile t.tile).operands da db (t.gr k) with
      | .error v => .trap ⟨.illstate, 0, v⟩
      | .ok ((oa, wa), (ob, wb)) =>
        match [(oa.win, wa), (ob.win, wb)].find? (fun p => p.2.state != 2) with
        | some (w, x) =>
          if x.state = 3 then .trap ⟨.engine, x.code, x.faddr⟩
          else if wb.state = 0 && ob.win != w && !s.engineFull (copyEngine t.tile) then (s.startFill t.tile ob.win wb t false).touch w
          else s.touch w
        | none => s.pushCmd q (.mma c.toNat (t.bound ((t.ao c.toNat).getD 0)) oa ob (t.gr k).toNat) (·.claim c.toNat))
/-- MZERO (11:R161). -/
def execMzero (m : Mark) (q : BitVec 3) (a : Reg) (s : State) : Host.Outcome State Fault Refusal :=
  s.issue (.mzero m q a) (fun s =>
    let t := s.th
    match t.viewTrap a.toNat, t.capTrap a.toNat with
    | some x, _ => .trap x
    | none, some x => .trap x
    | none, none => s.pushCmd q (.mzero a.toNat (t.bound ((t.ao a.toNat).getD 0))) (·.claim a.toNat))
/-- What R129 and R130 make of a read of entries that is never deferred: bytes, or what happens instead (11:R163-R164). -/
def State.entryCheck (s : State) (t : Thread) (e n : Nat) : Except (Trap ⊕ Nat) Bool :=
  match s.localCheck t e n e with
  | .out => .ok false
  | .trap x => .error (.inl x)
  | .outsider => .error (.inl ⟨.cprot, 0, BitVec.ofNat 64 (((banksOf e n).find? (s.compactBank t.tile)).map (fun b => Nat.max e (b * Config.bankSize)) |>.getD e)⟩)
  | .park w => .error (.inr w)
  | .ok => .ok true
/-- MSCL (11:R163). -/
def execMscl (m : Mark) (q : BitVec 3) (a b : Reg) (c : BitVec 5) (s : State) : Host.Outcome State Fault Refusal :=
  s.issue (.mscl m q a b c) (fun s =>
    let t := s.th
    let e := (t.gr a).toNat
    let n := (t.gr b).toNat
    let bad := n < 1 || 64 < n || e % 64 != 0
    match t.viewTrap c.toNat, (if bad then .ok true else s.entryCheck t e (64 * n)) with
    | some x, _ => .trap x
    | none, .error (.inl x) => .trap x
    | none, .error (.inr w) => s.touch w
    | none, .ok fits =>
      if bad then .trap ⟨.illstate, 0, t.pc⟩
      else s.pushCmd q (.mscl c.toNat (if fits then e else Config.sramSize) n) (fun t => if fits then t else t.outOfRange e))

/-- Commands of the thread, or received, on an accumulator that have not completed, an MSCL tagged with it among them (11:R151, R161,
R165-R166). -/
def State.accBusy (s : State) (t : Thread) (received : Bool) (a : Nat) : Bool :=
  let on (e : MEntry) : Bool := e.tid == t.tid && e.cmd.acc == a && (received || e.sender == t.tid)
  t.flow.mq.any on || (s.tile t.tile).mrun.any (fun r => on r.entry) || (s.tile t.tile).mrecv.any on
/-- Accepted commands on an accumulator that have not completed, those received among them (05:R64). -/
def State.accRunning (s : State) (t : Thread) (a : Nat) : Bool :=
  let on (e : MEntry) : Bool := e.tid == t.tid && e.cmd.acc == a
  (s.tile t.tile).mrun.any (fun r => on r.entry) || (s.tile t.tile).mrecv.any on
/-- A remote ACVT of the thread has not brought its flags (05:R63, 11:R165). -/
def State.acvtOut (s : State) (t : Thread) : Bool :=
  let own (q : Nat) : Bool := t.caller.isNone || 8 ≤ q
  s.eng.router.any (fun m => match m with
    | .acvt _ src q _ _ _ _ => src == t.tid && own q
    | .rows src q _ _ _ => src == t.tid && own q
    | .status src q unit _ => src == t.tid && unit == 3 && own q
    | _ => false)
/-- MWAIT (11:R161): a suspension point whether it waits or not. -/
def execMwait (m : Mark) (k : BitVec 5) (s : State) : Host.Outcome State Fault Refusal :=
  s.issue (.mwait m k) (fun s =>
    let t := s.th
    let as := (List.range 4).filter (fun a => k = 0 || bitOf k.toNat a)
    if as.any (fun a => s.accBusy t false a || t.mu.wm.getD a 32 != 32) then .wait .waiting s else s.passed)
/-- MWM (11:R161), long-latency: MU.WM as sampled at the park. -/
def execMwm (m : Mark) (a b : Reg) (s : State) : Host.Outcome State Fault Refusal :=
  s.issue (.mwm m a b) (fun s =>
    let t := s.th
    if (t.ao b.toNat).isNone || t.countsBy a then .trap ⟨.illstate, 0, t.pc⟩
    else .ok (s.await ⟨a, [], .watermark b.toNat, none, 0⟩))
/-- A local-alias store of `bs` at offset `e` by a form of its own (11:R162, R165). -/
def State.putLocal (s : State) (e : Nat) (bs : List Byte) (f : State → State) : Done :=
  let t := s.th
  match s.localCheck t e bs.length e with
  | .out => .ok (f { s with th := t.outOfRange e })
  | .trap x => .trap x
  | .park w => s.touch w
  | .outsider => .ok (f (s.refuseD t.tid ⟨.cprot, 0, BitVec.ofNat 64 e⟩))
  | .ok =>
    if s.matrixReads t e bs.length then .hold 1 s
    else if t.ordered 2 then .hold 2 s
    else .ok (f (s.localStore t e bs))
/-- MPLN (11:R162). -/
def execMpln (m : Mark) (a b : Reg) (c : BitVec 5) (s : State) : Host.Outcome State Fault Refusal :=
  s.issue (.mpln m a b c) (fun s =>
    let t := s.th
    let e := (t.gr a).toNat
    let ctl := (t.gr c).toNat
    match t.vo b.toNat, (if ctl < 64 then mfcUpTo 0x2F ctl else none) with
    | some o, some f =>
      if e % 4 ≠ 0 then (match s.localCheck t e (64 + 4 * f.prec) e with
        | .trap x => .trap x
        | _ => .trap ⟨.illstate, 0, t.pc⟩)
      else if t.accPending o then .hold 2 s
      else s.putLocal e (planeGroup f ((List.range 32).map (lane (t.vread b.toNat o) f.bytes))) id
    | _, _ => .trap ⟨.illstate, 0, t.pc⟩)

-- Conversion ----------------------------------------------------------------------------------------------------------

/-- One accumulator word converted (05:R70, 11:R165). -/
def acvtElem (srci : Bool) (f : Mfc) (x : Nat) : Nat × Flags :=
  let v := Fmt.f32.val x
  let int (w : Nat) (sg : Bool) : Nat × Flags :=
    if srci then satint (sInt 32 x) w sg
    else
      let r := toint v w sg
      (r.1, r.2 ||| v.snanFlag)
  match f with
  | .flt g =>
    if srci then enc g (Num.ofInt (sInt 32 x))
    else
      let r := enc g v
      (r.1, r.2 ||| v.snanFlag)
  | .planeInt w => int w (w != 1)
  | .elem b sg => int (8 * b) sg
/-- ACVT's control register (11:R165). -/
structure AcvtCtl where
  fmt : Mfc
  planes : Bool
  nrow : Nat
  row0 : Nat
  srci : Bool
  acc : Nat
  deriving DecidableEq, Repr
def acvtCtl (c : Word) : Option AcvtCtl :=
  let x := c.toNat
  let p := bitOf x 25
  let d := bits x 24 19
  let n := bits x 18 13
  let r := bits x 12 8
  if bits x 63 26 ≠ 0 ∨ bits x 7 3 ≠ 0 ∨ n < 1 ∨ 32 < r + n then none
  else match (if p then mfcUpTo 0x2F d else if d ≤ 0x22 ∨ 0x30 ≤ d then mfc d else none) with
    | none => none
    | some f => some ⟨f, p, n, r, bitOf x 2, bits x 1 0⟩
def AcvtCtl.size (k : AcvtCtl) : Nat := k.nrow * (if k.planes then 64 + 4 * k.fmt.prec else 32 * k.fmt.bytes)
/-- The bytes and flags of the converted rows of an accumulator at window offset `o` (11:R165). -/
def Thread.acvtRows (t : Thread) (o : Nat) (k : AcvtCtl) : List Byte × Flags :=
  let rows := (List.range k.nrow).map (fun r =>
    let bs := t.winRead (o + 128 * (k.row0 + r)) 128
    (List.range 32).map (fun e => acvtElem k.srci k.fmt (lane bs 4 e)))
  (rows.flatMap (fun es =>
      let cs := es.map (·.1)
      if k.planes then planeGroup k.fmt cs else cs.flatMap (leBytes k.fmt.bytes)),
    rows.foldl (fun f es => es.foldl (fun f p => f ||| p.2) f) 0)
def Thread.rowsDone (t : Thread) (k : AcvtCtl) : Bool := decide (k.row0 + k.nrow ≤ t.mu.wm.getD k.acc 32)
def State.toRouter (s : State) (m : RouterMsg) : State := { s with eng := { s.eng with router := s.eng.router ++ [m] } }
/-- ACVT (11:R165). -/
def execAcvt (m : Mark) (q : BitVec 3) (a b : Reg) (c : BitVec 5) (s : State) : Host.Outcome State Fault Refusal :=
  s.issue (.acvt m q a b c) (fun s =>
    let t := s.th
    let e := (t.gr a).toNat
    match acvtCtl (t.gr b) with
    | none =>
      let own := if c = 0 then t.accTrap (bits (t.gr b).toNat 1 0) else none
      .trap (own.getD ⟨.illstate, 0, t.pc⟩)
    | some k =>
      match s.localCheck t e k.size e, (if c = 0 then t.accTrap k.acc else none) with
      | .trap x, _ => .trap x
      | _, some x => .trap x
      | .park w, none => s.touch w
      | _, none =>
        if c = 0 then
          if s.accBusy t false k.acc || !t.rowsDone k then .hold 1 s
          else
            let r := t.acvtRows ((t.ao k.acc).getD 0) k
            s.putLocal e r.1 (fun s => { s with th := ((s.th.claim k.acc).setGuard q.toNat .tru) }.setfx r.2)
        else
          .ok (({ s with th := t.setGuard q.toNat .pend }).toRouter
            (.acvt ((coordIdx (bits (t.gr (c.setWidth 5)).toNat 53 43)).getD noTile) t.tid (t.resultTag q.toNat) (t.gr a) (t.gr b) (t.gr (c.setWidth 5)) t.dom)))

-- Capabilities and remote commands ------------------------------------------------------------------------------------

/-- CAPMINT (11:R157-R158). For a thread whose domain has no register on the tile, as a PF thread in H mode, the rule names no dp: register 0
is used (DESIGN CHOICE, log 68). -/
def execCapmint (m : Mark) (a b : Reg) (s : State) : Host.Outcome State Fault Refusal :=
  s.issue (.capmint m a b) (fun s =>
    let t := s.th
    let ctl := (t.gr b).toNat
    if bits ctl 63 11 ≠ 0 then .trap ⟨.illstate, 0, t.pc⟩
    else
      let x := s.tile t.tile
      let dp := ((x.dp? t.dom).map (·.1)).getD 0
      let cep := (x.cep.getD dp 0 + 1) % 2 ^ 32
      let uses := bits ctl 7 0
      let hi := t.dom * 2 ^ 22 + idxCoord t.tile * 2 ^ 11 + bits ctl 10 8 * 2 ^ 8 + uses
      let s := s.setTile t.tile { x with
        cep := x.cep.set dp cep, cuse := x.cuse.set dp uses, host := x.host.set dp (if uses = 0 then (false, (x.host.getD dp (false, 0)).2) else (true, t.slot)) }
      .ok (s.gw a (BitVec.ofNat 64 (hi * 2 ^ 32 + (Config.mac s.pl.key t.tile hi cep).toNat))))
/-- MMAR (11:R159): the command leaves for the tile that its capability names. -/
def execMmar (m : Mark) (q : BitVec 3) (c : BitVec 2) (a b : Reg) (k : BitVec 5) (s : State) : Host.Outcome State Fault Refusal :=
  s.issue (.mmar m q c a b k) (fun s =>
    let t := s.th
    let cap := t.gr (k + 1)
    .ok (({ s with th := t.setGuard q.toNat .pend }).toRouter
      (.mmar ((coordIdx (bits cap.toNat 53 43)).getD noTile) t.tid (t.resultTag q.toNat) c.toNat (t.gr a) (t.gr b) (t.gr k) cap t.dom)))

/-- Checks 1 to 7 of R159 on a received command: the refusal code, or the domain partition register and the host. `rights` are the
bits of the capability it needs, `acc` the accumulator. Where the capability's domain is not resident, check 2 uses MU.CEP[0]: the rule
names no epoch then (DESIGN CHOICE, log 68). -/
def State.capCheck (s : State) (tile : Nat) (cap : Word) (dom : Nat) (rights : List Nat) (acc : Nat) : Except Nat (Nat × Thread) :=
  let x := cap.toNat
  if noTile ≤ tile ∨ s.retired tile then .error 3
  else
    let t := s.tile tile
    let d := t.dp? (bits x 63 54)
    let dp := (d.map (·.1)).getD 0
    if (Config.mac s.pl.key tile (x / 2 ^ 32) (t.cep.getD dp 0)).toNat ≠ x % 2 ^ 32 then .error 1
    else if bits x 63 54 ≠ dom then .error 2
    else if !rights.all (bitOf x) then .error 4
    else if t.cuse.getD dp 0 = 0 then .error 5
    else match d, (let h := t.host.getD dp (false, 0); if h.1 then s.thread? (tile * 16 + h.2) else none) with
      | some _, some h => if (h.ao acc).isNone ∨ 2 ≤ h.mu.own.getD acc 0 then .error 8 else .ok (dp, h)
      | _, _ => .error 6
/-- An accepted command uses its capability once (11:R159). -/
def State.useCap (s : State) (tile dp : Nat) : State :=
  let t := s.tile tile
  let n := t.cuse.getD dp 0
  if n = 255 then s else s.setTile tile { t with cuse := t.cuse.set dp (n - 1) }
def State.dropMsg (s : State) (m : RouterMsg) : State := { s with eng := { s.eng with router := s.eng.router.erase m } }
/-- Target tile and source tile of a command of the router. -/
def RouterMsg.route : RouterMsg → Option (Nat × Nat)
  | .mmar t s _ _ _ _ _ _ _ => some (t, s / 16)
  | .scale t s _ _ _ _ => some (t, s / 16)
  | .acvt t s _ _ _ _ _ => some (t, s / 16)
  | _ => none
/-- The first command for a tile that `p` selects and no earlier command of its source tile stands before (01:R15). Of commands from
different tiles, which are not ordered, the one issued first comes first (DESIGN CHOICE, log 68). -/
def firstFor (tile : Nat) (p : RouterMsg → Bool) : List RouterMsg → List Nat → Option RouterMsg
  | [], _ => none
  | m :: ms, seen =>
    match m.route with
    | some (t, src) =>
      if t = tile then (if p m && !seen.contains src then some m else firstFor tile p ms (src :: seen)) else firstFor tile p ms seen
    | none => firstFor tile p ms seen
def isMmar : RouterMsg → Bool
  | .mmar .. => true | _ => false
/-- A received MMAR is checked, and accepted or refused (11:R159); a full received queue holds it (R151). -/
def State.mmarReceive (s : State) (tile : Nat) : Option State :=
  match firstFor tile isMmar s.eng.router [] with
  | some (.mmar t src q acc a b k cap dom) =>
    let msg : RouterMsg := .mmar t src q acc a b k cap dom
    let answer (s : State) (code : Nat) : Option State := some ((s.dropMsg msg).toRouter (.status src q 1 code))
    match s.capCheck tile cap dom (if k = 0 then [40, 42] else [40]) acc with
    | .error c => answer s c
    | .ok (dp, h) =>
      let x := s.tile tile
      match x.operands a b k, s.windowTrap h [a.toNat % 32, b.toNat % 32] with
        | .ok ((oa, _), (ob, _)), none =>
          if k = 0 then
            answer ((s.setTile tile { x with mrecv := x.mrecv.filter (fun e => !(e.sender == src && e.cmd.acc == acc)) }).useCap tile dp) 0
          else if 16 ≤ x.mrecv.length then none
          else
            let e : MEntry := ⟨.mma acc (h.bound ((h.ao acc).getD 0)) oa ob k.toNat, 0, h.tid, src⟩
            let s := (s.setTile tile { x with mrecv := x.mrecv ++ [e] }).onThread h.tid (fun th => { th with mu := th.mu.setOwn acc 1 })
            answer (s.useCap tile dp) 0
        | _, _ => answer s 7
  | _ => none
/-- The status of a remote command reaches its sender (11:R159, R165). -/
def State.mmarStatus (s : State) (tid : Nat) : Option State :=
  match s.eng.router.find? (fun m => match m with | .status src _ _ _ => src == tid | _ => false) with
  | some (.status src q unit code) =>
    some ((s.dropMsg (.status src q unit code)).onThread tid (fun t =>
      let t := t.resolve q (guardOf (code == 0))
      if code = 0 then t else { t with mu := { t.mu with rst := unit * 16 + code } }))
  | _ => none
def isAcvt : RouterMsg → Bool
  | .acvt .. => true | _ => false
/-- A remote ACVT is checked at its target and the host's rows are converted once they are final (11:R165; log 24). -/
def State.acvtRemote (s : State) (tile : Nat) : Option State :=
  match firstFor tile isAcvt s.eng.router [] with
  | some (.acvt t src q off ctl cap dom) =>
    let msg : RouterMsg := .acvt t src q off ctl cap dom
    match acvtCtl ctl with
    | none => some ((s.dropMsg msg).toRouter (.status src q 3 7))
    | some k =>
      match s.capCheck tile cap dom [41] k.acc with
      | .error c => some ((s.dropMsg msg).toRouter (.status src q 3 c))
      | .ok (dp, h) =>
        let received (e : MEntry) : Bool := e.tid == h.tid && e.cmd.acc == k.acc && !e.cmd.isScale
        let x := s.tile tile
        if x.mrecv.any received || x.mrun.any (fun r => received r.entry) || !h.rowsDone k then none
        else
          let r := h.acvtRows ((h.ao k.acc).getD 0) k
          some (((s.useCap tile dp).dropMsg msg).toRouter (.rows src q off r.1 r.2))
  | _ => none
/-- Converted rows land in the sender's SRAM, with their flags and the guard (11:R165); they wait for a window that is absent or filling
by then, and where the bytes are no longer the sender's to write, nothing is written, the guard is false and the cause is due (log 24). -/
def State.acvtReply (s : State) (tid : Nat) : Option State :=
  match s.eng.router.find? (fun m => match m with | .rows src _ _ _ _ => src == tid | _ => false), s.thread? tid with
  | some (.rows src q off bs fx), some t =>
    let e := off.toNat
    let t := if q < 8 then { t with dom := t.home } else t
    let done (s : State) : Option State := some ((s.dropMsg (.rows src q off bs fx)).onThread tid (fun t => (t.resolve q .tru).orFlags q fx))
    let fails (x : Trap) : Option State :=
      some (((s.dropMsg (.rows src q off bs fx)).onThread tid (fun t => t.resolve q .fls)).refuseD tid x)
    match s.localCheck t e bs.length e with
    | .ok => done (s.localStore t e bs)
    | .out => done (s.onThread tid (fun t => t.outOfRange e))
    | .park w => (match (s.tile t.tile).win? w with
      | some x => if x.state = 0 && !s.engineFull (copyEngine t.tile) then some (s.startFill t.tile w x t false) else none
      | none => none)
    | .trap x => fails x
    | .outsider => fails ⟨.cprot, 0, off⟩
  | some m, none => some (s.dropMsg m)
  | _, _ => none

-- The loft ------------------------------------------------------------------------------------------------------------

/-- The thread was created by the launch that set the loft of its tile (11:R164, 23:R284). -/
def State.ofLoftLaunch (s : State) (t : Thread) : Bool :=
  let x := s.tile t.tile
  bitOf x.loft.toNat 63 && x.loftDom == t.dom &&
    (s.vcp t.dom).queues.any (fun q => q.cmds.any (fun c => c.loft == some t.tile && c.recs.contains t.info.addr))
/-- SCALEMC (11:R164). For a count outside 1-64 the rule names no trap: illegal state (DESIGN CHOICE, log 68). -/
def execScalemc (m : Mark) (q : BitVec 3) (a b : Reg) (c : BitVec 5) (s : State) : Host.Outcome State Fault Refusal :=
  s.issue (.scalemc m q a b c) (fun s =>
    let t := s.th
    let o := (t.gr a).toNat
    let n := (t.gr b).toNat
    let x := (t.gr (c.setWidth 5)).toNat
    let loft := (s.tile t.tile).loft.toNat
    let e := bits loft 23 0 + o
    let bad := decide (o % 64 ≠ 0 ∨ bits loft 44 24 < o + 64 * n ∨ bits x 63 32 ≠ 0)
    if !s.ofLoftLaunch t || n < 1 || 64 < n then .trap ⟨.illstate, 0, t.pc⟩
    else match s.entryCheck t e (64 * n), bad with
      | .error (.inl x), _ => .trap x
      | _, true => .trap ⟨.illstate, 0, t.pc⟩
      | .error (.inr w), _ => s.touch w
      | .ok fits, _ => if t.ordered 2 then .hold 2 s else
        let bs := if fits then s.read (sramAddr t.tile e) (64 * n) else List.replicate (64 * n) 0
        let t' := if fits then t else t.outOfRange e
        let es := (List.range n).map (fun i => (bs.drop (64 * i)).take 64)
        let ts := (List.range 24).filter (bitOf (bits x 23 0))
        if ts.isEmpty then .ok { s with th := t'.setGuard q.toNat .tru }
        else
          let s := { s with th := t'.setGuard q.toNat .pend }
          .ok (ts.foldl (fun s i =>
            s.toRouter (.scale ((bits x 29 28 * 16 + bits x 27 24) * 24 + i) t.tid (t.resultTag q.toNat) (bits x 31 30) t.dom es)) s))
def isScaleMsg : RouterMsg → Bool
  | .scale .. => true | _ => false
/-- Scale entries reach a target: tagged with its host and queued, or refused; a full queue holds the rest (11:R164). -/
def State.scaleMessage (s : State) (tile : Nat) : Option State :=
  match firstFor tile isScaleMsg s.eng.router [] with
  | some (.scale t src q acc dom es) =>
    let msg : RouterMsg := .scale t src q acc dom es
    let x := s.tile tile
    let answer (s : State) (code : Nat) : Option State := some ((s.dropMsg msg).toRouter (.scaleAck src q code))
    if s.retired tile then answer s 3
    else match (x.dp? dom).bind (fun d => let h := x.host.getD d.1 (false, 0); if h.1 then some h.2 else none) with
      | none => answer s 6
      | some slot =>
        let k := Nat.min es.length (x.scaleRoom dom)
        let s' := s.setTile tile { x with scq := x.scq ++ (es.take k).map (fun b => (⟨dom, slot, acc, b⟩ : ScaleEntry)) }
        if k = es.length then answer s' 0
        else if k = 0 then none
        else
          let r := s'.eng.router.map (fun y => if y = msg then RouterMsg.scale t src q acc dom (es.drop k) else y)
          some { s' with eng := { s'.eng with router := r } }
  | _ => none
/-- All targets of a SCALEMC have answered: its guard resolves (11:R164), and only then is MU.RST written, with the code of the target that
refused last: R164 fixes neither (DESIGN CHOICE, log 87). -/
def State.scaleAcks (s : State) (tid : Nat) : Option State :=
  let ack (g : Nat) (m : RouterMsg) : Bool := match m with | .scaleAck src q _ => src == tid && q == g | _ => false
  let open_ (g : Nat) (m : RouterMsg) : Bool := match m with | .scale _ src q _ _ _ => src == tid && q == g | _ => false
  match (List.range 16).find? (fun g => s.eng.router.any (ack g) && !s.eng.router.any (open_ g)) with
  | none => none
  | some g =>
    let codes := (s.eng.router.filter (ack g)).map (fun m => match m with | .scaleAck _ _ c => c | _ => 0)
    let bad := codes.filter (· != 0)
    let s := { s with eng := { s.eng with router := s.eng.router.filter (fun m => !ack g m) } }
    some (s.onThread tid (fun t =>
      let t := t.resolve g (guardOf bad.isEmpty)
      match bad.getLast? with
      | some c => { t with mu := { t.mu with rst := 2 * 16 + c } }
      | none => t))

-- Accumulators in memory ----------------------------------------------------------------------------------------------

/-- The accumulator has no command and its rows are final (11:R166). -/
def State.accDrained (s : State) (t : Thread) (a : Nat) : Bool := !s.accBusy t true a && t.mu.wm.getD a 32 == 32
/-- MSAVE (11:R166): every byte is checked first, a line pinned for others among them. For an address that is not a multiple of 64 the
rule names no trap: alignment, as for MREST (DESIGN CHOICE, log 68). -/
def execMsave (m : Mark) (a b : Reg) (s : State) : Host.Outcome State Fault Refusal :=
  s.issue (.msave m a b) (fun s =>
    let t := s.th
    let va := t.gr a
    let own := t.mu.own.getD b.toNat 0
    match t.ao b.toNat with
    | none => .trap ⟨.illstate, 0, t.pc⟩
    | some o =>
      if va.toNat % 64 ≠ 0 then .trap ⟨.align, 0, va⟩
      else match s.pieces t.acc .write va 4160 with
        | .error x => .trap x
        | .ok (ps, s') =>
            if (ps.findSome? (s'.refusal t.acc)).isSome then .trap ((ps.findSome? (s'.refusal t.acc)).getD ⟨.cprot, 0, va⟩)
            else if t.priv.code + 1 < own then .trap ⟨.cap, 0, BitVec.ofNat 64 b.toNat⟩
            else if !s.accDrained t b.toNat then .wait .waiting s
            else if s'.accessWaits t.acc ps then .hold 2 s'
            else match s'.storeBlock t.acc ps with
              | some s => .hold 3 s
              | none =>
                let img := t.winRead o 4096 ++ leBytes 8 (own * 256 + (t.mu.fx.getD b.toNat 0).toNat) ++ List.replicate 56 0
                let s := s'.storeAll t.acc ps img
                .ok { s with th := { s.th with mu := s.th.mu.setOwn b.toNat 0 } })
/-- MREST (11:R166). -/
def execMrest (m : Mark) (a b : Reg) (s : State) : Host.Outcome State Fault Refusal :=
  s.issue (.mrest m a b) (fun s =>
    let t := s.th
    let va := t.gr a
    if (t.ao b.toNat).isNone then .trap ⟨.illstate, 0, t.pc⟩
    else if va.toNat % 64 ≠ 0 then .trap ⟨.align, 0, va⟩
    else match s.pieces t.acc .read va 4160, t.capTrap b.toNat with
      | .error x, _ => .trap x
      | .ok _, some x => .trap x
      | .ok _, none => (s.ldHeld t.acc .read va 4160).andThen (fun bs s =>
          let w := leNat ((bs.drop 4096).take 8)
          if bits w 63 10 ≠ 0 ∨ bits w 7 6 ≠ 0 ∨ (bs.drop 4104).any (· != 0) ∨ t.priv.code + 1 < bits w 9 8 then
            .trap ⟨.illstate, 0, t.pc⟩
          else if !s.accDrained t b.toNat then .wait .waiting s
          else
            let th := s.th.winWrite ((t.ao b.toNat).getD 0) (bs.take 4096)
            let mu := (th.mu.setOwn b.toNat (bits w 9 8)).setWm b.toNat 32
            .ok { s with th := { th with mu := { mu with fx := th.mu.fx.set b.toNat (BitVec.ofNat 6 (bits w 5 0)) } } }))

-- Steps of the unit ---------------------------------------------------------------------------------------------------

/-- A step of a unit of the device: where its conditions do not hold, nothing happens. -/
def unitStep (s : State) (r : Option State) : Host.Outcome State Fault Refusal := .next (r.getD s)
/-- MATRIX_ACCEPT (11:R151). -/
def execMatrixAccept (tile : Nat) (s : State) : Host.Outcome State Fault Refusal := unitStep s (s.matrixAccept tile)
/-- TAKE_SCALE (11:R154). -/
def execTakeScale (tile : Nat) (s : State) : Host.Outcome State Fault Refusal := unitStep s (s.takeScale tile)
/-- MATRIX_COMMAND_COMPLETE (11:R151). -/
def execMatrixCommandComplete (tile : Nat) (s : State) : Host.Outcome State Fault Refusal := unitStep s (s.matrixComplete tile)
/-- MMAR_RECEIVE (11:R159). -/
def execMmarReceive (tile : Nat) (s : State) : Host.Outcome State Fault Refusal := unitStep s (s.mmarReceive tile)
/-- MMAR_STATUS (11:R159). -/
def execMmarStatus (tid : Nat) (s : State) : Host.Outcome State Fault Refusal := unitStep s (s.mmarStatus tid)
/-- SCALE_MESSAGE (11:R164). -/
def execScaleMessage (tile : Nat) (s : State) : Host.Outcome State Fault Refusal := unitStep s (s.scaleMessage tile)
/-- SCALEMC_ACKNOWLEDGEMENT (11:R164). -/
def execScalemcAcknowledgement (tid : Nat) (s : State) : Host.Outcome State Fault Refusal := unitStep s (s.scaleAcks tid)
/-- ACVT_REMOTE (11:R165). -/
def execAcvtRemote (tile : Nat) (s : State) : Host.Outcome State Fault Refusal := unitStep s (s.acvtRemote tile)
/-- ACVT_REPLY (11:R165). -/
def execAcvtReply (tid : Nat) (s : State) : Host.Outcome State Fault Refusal := unitStep s (s.acvtReply tid)

end Sys2Proof.Machine
end

