-- ==== Sys2Proof/Machine/Sync.lean ====
section
/-! DEFINITION. Compacts, barriers, waits on memory, packets and guards (03:R26, R36-R47, 13:R173-R184, 21:R263, 27:R314-R315,
29:R332-R333, R336). -/

namespace Sys2Proof.Machine
open Sys2Proof

-- Coordinates and compacts --------------------------------------------------------------------------------------------

/-- KIND of its endpoint entry, package and tile index of a fabric coordinate of a function; a UET peer p is package 16 + p;
none for a coordinate that names no tile or a KIND 11 entry (01:R19, 29:R332). -/
def State.coordOf (s : State) (dom k : Nat) : Option (Nat × Nat × Nat) :=
  match coordIdx (k % 2048), s.ept dom (k / 2048 % 16) with
  | none, _ => none
  | some i, (0, b) => some (0, b, i)
  | some i, (1, b) => some (1, b, i)
  | some i, (2, _) => some (2, 16 + k / 2048 % 16, i)
  | some _, _ => none
def State.compact? (s : State) (bar : Nat) : Option Compact := (s.eng.compacts.find? (fun p => p.1 == bar)).map (·.2)
def State.setCompact (s : State) (bar : Nat) (c : Compact) : State :=
  { s with eng := { s.eng with compacts := setKey s.eng.compacts bar c } }
def Compact.setMember (c : Compact) (m : Member) : Compact :=
  { c with members := c.members.map (fun x => if x.idx = m.idx then m else x) }
/-- Resident threads of the member gangs of a compact (03:R37). -/
def State.gangOf (s : State) (bar : Nat) : List Thread :=
  s.threads.filter (fun t => match s.memberOf t.tid with
    | some (b, _, _) => b == bar
    | none => false)
/-- Packages of the members of a compact, a UET peer p as 16 + p (03:R36, 29:R332-R333). -/
def State.packagesOf (s : State) (dom : Nat) (coords : List (Nat × List Range)) : List Nat :=
  (coords.filterMap (fun c => (s.coordOf dom c.1).map (·.2.1))).dedup
/-- The compact and member of a member thread (03:R26, R37). -/
def State.memberThread (s : State) (t : Thread) : Option (Nat × Compact × Member) :=
  (s.memberOf t.tid).filter (fun x => x.2.2.tid == t.tid)

/-- Bytes that were awaited under a tag arrive (03:R34, R41, 29:R324). -/
def Thread.fillTag (tag : Nat) (bs : List Byte) (t : Thread) : Thread :=
  let part (p : Part) : Part := match p with
    | .wait g o n _ _ => if g = tag then .have (((bs ++ List.replicate (o + n) 0).drop o).take n) else p
    | _ => p
  { t with flow := { t.flow with
      outs := t.flow.outs.map (fun o => match o.src with
        | .parts ps f => { o with src := .parts (ps.map part) f }
        | _ => o)
      heldReads := t.flow.heldReads.map (fun h => if h.tag = tag then { h with reply := some (.done, bs) } else h) } }
/-- Serves a deferred read with some bytes. -/
def State.serveWith (s : State) (d : Deferred) (bs : List Byte) : State :=
  let s := { s with ms := { s.ms with defer := s.ms.defer.filter (· != d) } }
  match d.remote with
  | some p => s.sendReply d.dom p d.tag .done bs
  | none => s.mapThreads (Thread.fillTag d.tag bs)
/-- Serves a deferred read with the line's value now (03:R41). -/
def State.serveRead (s : State) (d : Deferred) : State := s.serveWith d (s.read d.pa d.n)
/-- The first `n` held reads of a member's tile. -/
def State.serveReads (s : State) (tile n : Nat) : State := ((s.ms.defer.filter (·.tile == tile)).take n).foldl State.serveRead s

/-- The bytes of a pinned line in its member's SRAM. -/
def State.pinBytes (s : State) (p : Pin) : List Byte := s.read (sramAddr p.tile (p.sline * 192)) 192
/-- A transaction of a pinned line at its home on another package, with the line's bytes; its acknowledgement is awaited (03:R39, R46-R47,
29:R323-R324). -/
def State.tellHome (s : State) (dom node : Nat) (p : Pin) (k : ReqKind) : State :=
  let pa := p.line - 2 ^ 60
  let (tag, s') := s.request (sysAcc dom) k ⟨0, pa, 192, 0⟩ (s.pinBytes p)
  s'.posts (.of tag (2 ^ 60 + p.bar) 0 pa false node)
/-- Dirty sectors of 192 bytes go to their line: a tagged write-back of the group, none where that rolls back (03:R47, 21:R265, R269). -/
def State.sectorsHome (s : State) (dom line rin dirty : Nat) (bs : List Byte) : State :=
  if dirty = 0 then s
  else
    match s.tagged dom line rin line true with
    | .ok s =>
      (((List.range 4).filter (bitOf dirty)).foldl (fun s j => s.write (line + 48 * j) ((bs.drop (48 * j)).take 48)) (s.l2Access line dom true)).wakeLine line
    | .roll s => s
    | .stall => s
/-- The dirty sectors of a pinned line go home; `away` at a pre-emption of its compact (03:R47). -/
def State.writeBackPin (s : State) (dom node : Nat) (p : Pin) (away : Bool) : State :=
  if p.line < 2 ^ 60 then s.sectorsHome dom p.line (s.rinOf dom) p.dirty (s.pinBytes p)
  else if p.dirty = 0 && !away then s
  else s.tellHome dom node p (.save p.bar p.dirty away)
/-- Pinned lines of a compact that members on this package hold. -/
def State.pinsOf (s : State) (bar : Nat) : List Pin := s.ms.pins.filter (fun p => p.bar == bar && p.far.isNone)
/-- The package's own ceiling (29:R334). -/
def State.ownCeil (s : State) : Nat := Nat.min s.pl.hceil s.pl.ownLimit
/-- The package is in no clock group (29:R336). -/
def State.outOfGroup (s : State) : State :=
  { s with pl := { s.pl with autoJoin := false, group := none, index := 0, members := [], agr := 60, self := ⟨s.ownCeil, [], 0, false⟩ } }
/-- What the package tells its clock group of one of its members: a ceiling, or 128 where the member leaves (29:R335-R337). -/
def State.tellClock (s : State) (m level : Nat) : State := s.emit (.ceiling (s.pl.group.getD 0) m level)
/-- Ends automatic membership of the clock group with the package's last compact that made it (29:R336). -/
def State.autoLeave (s : State) : State :=
  if s.pl.autoJoin && !s.eng.compacts.any (·.2.clk) then (s.tellClock s.pl.index 128).outOfGroup else s
/-- The compact is gone: pins released, identifier free. -/
def State.dropCompact (s : State) (bar : Nat) : State :=
  ({ s with eng := { s.eng with compacts := delKey s.eng.compacts bar },
            ms := { s.ms with pins := s.ms.pins.filter (fun p => p.bar != bar || p.far.isSome) } }).autoLeave
/-- What a member's package tells the others of its compact (29:R333; the codes of OutMsg.arrival). -/
def State.tellMembers (s : State) (bar : Nat) (c : Compact) (vote kind : Nat) : State := if c.clk then s.emit (.arrival bar vote kind) else s
/-- A compact is to end with a fault, on every package (27:R314). -/
def State.failCompact (s : State) (bar : Nat) (c : Compact) (sub : Nat) : State :=
  if c.fault ≠ 0 then s.setCompact bar c else (s.setCompact bar { c with fault := sub }).tellMembers bar c 0 (32 + sub)
/-- A member thread that waits at its SYNC or DISSOLVE. -/
def Thread.atBarrier (t : Thread) : Bool := t.status == .sync || t.flow.hold == 4
/-- A pinned line is released: its dirty sectors go home with it (27:R314). -/
def State.releasePin (s : State) (dom node : Nat) (p : Pin) : State :=
  if p.line < 2 ^ 60 then s.writeBackPin dom node p false else s.tellHome dom node p (.unpin p.bar p.dirty)
/-- A compact fault (27:R314-R315): the guard of a SYNC that it ends is a free value (log 3). Its member threads stand at their SYNC or
DISSOLVE, and go on after it. -/
def State.faultCompact (s : State) (bar : Nat) (c : Compact) (sub : Nat) : State :=
  let gang := s.gangOf bar
  let g := guardOf (Config.faultGuard s.fresh)
  let s := (s.pinsOf bar).foldl (fun s p => s.releasePin c.dom c.node p) s.tick
  let s := c.members.foldl (fun s m => s.serveReads m.tile s.ms.defer.length) s
  let s := s.dropCompact bar
  gang.foldl (fun s t => s.onThread t.tid (fun t =>
    let t := match c.members.find? (·.tid == t.tid) with
      | some m =>
        let t := match m.vote with
          | some (_, _, q) => t.resolve q g
          | none => t
        if t.atBarrier then t.stepOver else t
      | none => t
    { t with flow := { t.flow with asyncs := t.flow.asyncs ++ [⟨.compact, sub, c.recAddr⟩] } })) s

-- Signing -------------------------------------------------------------------------------------------------------------

/-- Reads several areas as held accesses, their bytes in one list (25:R303). -/
def State.ldAll (s : State) (a : Acc) : List (Word × Nat) → Held
  | [] => .ok [] s
  | (va, n) :: r =>
    match s.ldHeld a .read va n with
    | .ok bs s =>
      match s.ldAll a r with
      | .ok cs s => .ok (bs ++ cs) s
      | h => h
    | h => h
/-- Member entry `m` of a compact record, its word and its ranges (03:R36). -/
def memberBytes (bs : List Byte) (m : Nat) : List Byte := (bs.drop (64 + 288 * m)).take 288
def memberRanges (e : List Byte) : List Range :=
  (List.range (Nat.min (bits (wordAt e 0) 19 15) 16)).map (fun j =>
    let x := wordAt e (5 + 2 * j)
    ⟨BitVec.ofNat 64 (wordAt e (4 + 2 * j)), bitOf x 33, bitOf x 32, bits x 28 16, bits x 13 0⟩)
/-- Addresses of the fields of a compact record that break R36 or R38, in order. -/
def recordBreaches (recA : Word) (bs : List Byte) (n : Nat) : List Word :=
  let a (o : Nat) : Word := recA + BitVec.ofNat 64 o
  let w := wordAt bs
  let hdr := (if bits (w 0) 31 26 ≠ 0 ∨ n < 1 ∨ 24576 < n then [a 0] else []) ++ (if bits (w 1) 63 32 ≠ 0 then [a 8] else []) ++
    (if bits (w 2) 63 32 ≠ 0 then [a 16] else []) ++ ((List.range 5).filter (fun i => w (3 + i) ≠ 0)).map (fun i => a (24 + 8 * i))
  hdr ++ (List.range (Nat.min n 24576)).flatMap (fun m =>
    let e := memberBytes bs m
    let o := 64 + 288 * m
    (if bits (wordAt e 0) 63 20 ≠ 0 ∨ 16 < bits (wordAt e 0) 19 15 then [a o] else []) ++
    (if wordAt e 3 ≠ 0 then [a (o + 24)] else []) ++
    (List.range (memberRanges e).length).flatMap (fun j =>
      let x := wordAt e (5 + 2 * j)
      (if wordAt e (4 + 2 * j) % 192 ≠ 0 then [a (o + 32 + 16 * j)] else []) ++
      (if bits x 63 34 ≠ 0 ∨ bits x 31 29 ≠ 0 ∨ bits x 15 14 ≠ 0 ∨ bits x 13 0 = 0 ∨ 8192 < bits x 28 16 + bits x 13 0 then
        [a (o + 40 + 16 * j)] else [])))
/-- Ranges that meet an earlier one in SRAM or at home (03:R38). -/
def overlaps (rs : List Range) : List Nat :=
  (List.range rs.length).filter (fun j => (rs.take j).any (fun x => match rs[j]? with
    | some y => (x.sline < y.sline + y.nline && y.sline < x.sline + x.nline) ||
        (x.home.toNat < y.home.toNat + 192 * y.nline && y.home.toNat < x.home.toNat + 192 * x.nline)
    | none => false))
/-- SRAM bytes that lie in the ranges, the ranges taken in any order (03:R42). -/
def insideFrom (rs : List Range) : Nat → Nat → Nat → Bool
  | 0, lo, hi => hi ≤ lo
  | f + 1, lo, hi =>
    if hi ≤ lo then true
    else match rs.find? (fun r => r.sline * 192 ≤ lo && lo < (r.sline + r.nline) * 192) with
      | some r => insideFrom rs f ((r.sline + r.nline) * 192) hi
      | none => false
def inside (rs : List Range) (lo n : Nat) : Bool := insideFrom rs rs.length lo (lo + n)
/-- Counts of the variants of an exchange plan's header; none where it breaks its map (03:R42). -/
def planCounts (h : List Byte) : Option (List Nat) :=
  let w := wordAt h
  let ns := (List.range 4).map (fun v => bits (w 1) (16 * v + 8) (16 * v))
  if bits (w 0) 63 2 ≠ 0 ∨ bits (w 1) 63 57 ≠ 0 ∨ bits (w 1) 47 41 ≠ 0 ∨ bits (w 1) 31 25 ≠ 0 ∨ bits (w 1) 15 9 ≠ 0 ∨
     ns.any (256 < ·) ∨ (List.range 6).any (fun i => w (2 + i) ≠ 0) then none
  else some (ns.take (bits (w 0) 1 0 + 1))
/-- One entry of an exchange plan, from its 32 bytes; none where R42 or R333 refuses it. -/
def State.planEntry (s : State) (dom : Nat) (mine : List Range) (all : List (Nat × List Range)) (tile : Nat) (e : List Byte) :
    Option ExchEntry :=
  let w := wordAt e
  let x : ExchEntry := ⟨bits (w 0) 44 24, bits (w 0) 23 0, bits (w 1) 37 36, bits (w 1) 35 21, bits (w 1) 20 0, bitOf (w 2) 21,
    bits (w 2) 20 0, tile⟩
  let there := all.find? (fun p => p.1 == x.dst)
  let kind := (s.coordOf dom x.dst).map (·.1)
  if bits (w 0) 63 45 ≠ 0 ∨ bits (w 1) 63 38 ≠ 0 ∨ bits (w 2) 63 22 ≠ 0 ∨ w 3 ≠ 0 ∨ x.len % 8 ≠ 0 ∨ x.soff % 8 ≠ 0 ∨ x.doff % 8 ≠ 0 ∨
     x.foff % 8 ≠ 0 ∨ x.len < 8 ∨ 0x180000 < x.len then none
  else match there, kind with
    | some (_, rs), some k =>
      if ((x.path = 0 ∧ k ≤ 1) ∨ (x.path = 1 ∧ k = 2)) ∧ inside mine x.soff x.len ∧ inside rs x.doff x.len ∧
         (!x.fe ∨ inside rs x.foff 8) then some x else none
    | _, _ => none
/-- Entries of one variant, with the address of the first invalid one. -/
def State.planVariant (s : State) (dom : Nat) (mine : List Range) (all : List (Nat × List Range)) (tile : Nat) (at_ : Word)
    (bs : List Byte) : Nat → Except Word (List ExchEntry)
  | 0 => .ok []
  | n + 1 => match s.planVariant dom mine all tile at_ bs n with
    | .error a => .error a
    | .ok l => match s.planEntry dom mine all tile ((bs.drop (32 * n)).take 32) with
      | some e => .ok (l ++ [e])
      | none => .error (at_ + BitVec.ofNat 64 (32 * n))
/-- The plan's variants from the bytes of its tables laid end to end (03:R42). -/
def State.planAll (s : State) (dom : Nat) (mine : List Range) (all : List (Nat × List Range)) (tile : Nat) (plan : Word) :
    List Nat → Nat → List Byte → Except Word (List (List ExchEntry))
  | [], _, _ => .ok []
  | n :: ns, v, bs =>
    match s.planVariant dom mine all tile (plan + BitVec.ofNat 64 (64 + 8192 * v)) bs n with
    | .error a => .error a
    | .ok l => match s.planAll dom mine all tile plan ns (v + 1) (bs.drop (32 * n)) with
      | .error a => .error a
      | .ok ls => .ok (l :: ls)

/-- A line of a member's ranges: its piece at home, its SRAM line, its range. -/
structure HomeLine where
  piece : Piece
  sline : Nat
  range : Range
  deriving DecidableEq, Repr
/-- The home lines of the ranges, translated as writes: one with a page boundary inside is a seam line (03:R38, 17:R226, R230). -/
def State.homeLines (a : Acc) : List (Word × Nat × Range) → State → Except Trap (List HomeLine × State)
  | [], s => .ok ([], s)
  | (va, sl, r) :: rest, s =>
    match piecesFrom a .write 1 va 1 s with
    | .ok ([p], s) =>
      let page := 2 ^ s.pageShift a.tile a.fn va.toNat
      if page < va.toNat % page + 192 then .error ⟨.xlate, 8, va⟩
      else (State.homeLines a rest s).map (fun x => (⟨{ p with n := 192 }, sl, r⟩ :: x.1, x.2))
    | .ok _ => .error ⟨.xlate, 8, va⟩
    | .error e => .error e
/-- The lines of ranges that meet their map. -/
def rangeLines (rs : List Range) : List (Word × Nat × Range) :=
  (rs.filter (fun r => r.home.toNat % 192 == 0 && r.nline != 0 && r.sline + r.nline ≤ 8192)).flatMap (fun r =>
    (List.range r.nline).map (fun k => (r.home + BitVec.ofNat 64 (192 * k), r.sline + k, r)))

/-- What SIGN knows when its checks pass. -/
structure Signing where
  bar : Nat
  dom : Nat
  xto : Nat
  nmem : Nat
  idx : Nat
  coords : List (Nat × List Range)
  lines : List HomeLine
  plan : List (List ExchEntry)
  multi : Bool
  grp : Nat
  ill : Option Trap
  deriving DecidableEq, Repr

/-- The clock group of a compact's packages: that of member 0's package, or one by the compact's BAR where it is in none (29:R336; log 32). -/
def State.clockGroup (s : State) (bar pkg : Nat) : Nat :=
  let g := if pkg = s.me then s.pl.group.getD 0 else Config.groupOf pkg s.fresh % 65536
  if g = 0 then bar % 65535 + 1 else g
/-- The checks of SIGN on its record and plan, in the order of R313 (03:R38, R42, 21:R263, 29:R333, R336). Where R38 does not say, the model
chooses (DESIGN CHOICE, log 60): of two ranges that overlap, in SRAM or at home, the field reported is M+40+16j of the later one; a
pre-empted compact still counts as the compact its tiles are in; a plan whose header breaks R42 is reported at the plan's address. A pin
of a line homed on another package is asked for there, and refused there (03:R39): Signing.ill, the illegal state that is left, comes after
that. -/
def State.signChecks (s : State) (t : Thread) (recA : Word) (bs plan : List Byte) : Except Trap (Signing × State) :=
  let w := wordAt bs
  let bar := bits (w 0) 63 32
  let dom := bits (w 0) 25 16
  let n := bits (w 0) 15 0
  let entries := (List.range (Nat.min n 24576)).map (memberBytes bs)
  let coords := entries.map (fun e => (bits (wordAt e 0) 14 0, memberRanges e))
  let ill (a : Word) : Trap := ⟨.illstate, 0, a⟩
  let fields := recordBreaches recA bs n
  let here (c : Nat) : Bool := match s.coordOf dom c with
    | some (k, p, i) => k ≤ 1 && p == s.me && i == t.tile
    | none => false
  match (List.range coords.length).find? (fun i => match coords[i]? with | some c => here c.1 | none => false) with
  | none => .error (ill (fields.headD recA))
  | some me =>
    let mine := (coords.getD me (0, [])).2
    let ma : Word := recA + BitVec.ofNat 64 (64 + 288 * me)
    let e := memberBytes bs me
    match State.homeLines t.acc (rangeLines mine) s with
    | .error x => .error x
    | .ok (lines, s) =>
      let marks := (mine.filter (·.nline != 0)).flatMap (fun r => (banksOf (r.sline * 192) (r.nline * 192)).map (fun b => (b, Nat.max (r.sline * 192) (b * Config.bankSize))))
      match marks.find? (fun p => !s.bankGranted t.tile dom p.1), lines.findSome? (fun l => s.pieceTrap t.acc l.piece) with
      | some p, _ => .error ⟨.domain, 0, BitVec.ofNat 64 p.2⟩
      | none, some x => .error x
      | none, none =>
        let badSet (l : HomeLine) : Bool := l.sline % 1024 != (lineNum ((lineOf l.piece.off).getD 0) % 1024) ^^^ 0x200
        let taken (l : HomeLine) : Bool := l.piece.pkg == s.me && regionOf l.piece.off == .dram && ((lineOf l.piece.off).bind s.pinOfHome).isSome
        match lines.find? (fun l => regionOf l.piece.off == .dram && (badSet l || taken l)) with
        | some l => .error ⟨.cprot, 0, l.piece.va⟩
        | none =>
          let badHome (r : Range) : Bool := lines.any (fun l => l.range == r && (regionOf l.piece.off != .dram || !s.pkgLive l.piece.pkg))
          let homes := ((List.range mine.length).filter (fun j => match mine[j]? with | some r => badHome r | none => false)).map
            (fun j => ma + BitVec.ofNat 64 (32 + 16 * j))
          let laps := (overlaps mine).map (fun j => ma + BitVec.ofNat 64 (40 + 16 * j))
          let gid := match s.nodeOf dom with
            | some m => if (s.rgs m).gid != bits (w 1) 31 0 then [recA + 8] else []
            | none => []
          let pkgs := (coords.filterMap (fun c => s.coordOf dom c.1)).map (fun c => c.2.1)
          let multi := pkgs.any (· != s.me)
          let grp := s.clockGroup bar (pkgs.headD s.me)
          let busy := s.eng.compacts.any (fun c => c.2.members.any (·.tile == t.tile)) || dom != t.dom || (multi && s.pl.group.any (· != grp)) ||
            (match s.compact? bar with
              | some c => c.dom != dom || c.coords != coords || c.recAddr != recA
              | none => false) ||
            coords.any (fun c => (s.coordOf dom c.1).isNone)
          let counts := planCounts plan
          let pl : Except Word (List (List ExchEntry)) := match counts with
            | none => .error (BitVec.ofNat 64 (wordAt e 1))
            | some ns => s.planAll dom mine coords t.tile (BitVec.ofNat 64 (wordAt e 1)) ns 0 (plan.drop 64)
          let made (p : List (List ExchEntry)) (x : Option Trap) : Signing := ⟨bar, dom, bits (w 2) 31 0, n, me, coords, lines, p, multi, grp, x⟩
          .ok (match fields ++ laps ++ gid ++ (if busy then [recA] else []) ++ homes, pl with
            | a :: _, _ => made [] (some (ill a))
            | [], .error a => made [] (some (ill a))
            | [], .ok p => made p none, s)

/-- Joins clock group `g` at the lowest member index that is free, and announces its ceiling; automatic membership holds CLKL off (15:R221,
29:R335-R336). -/
def State.joinGroup (s : State) (g : Nat) (auto : Bool) : State :=
  if s.pl.group.isSome then s
  else
    let taken := Config.groupTaken g s.fresh
    let i := ((List.range 64).find? (fun i => !taken.contains i)).getD 0
    let s : State := { s with pl := { s.pl with group := some g, autoJoin := auto, index := i, members := [], self := ⟨s.ownCeil, [], 5, false⟩ } }
    (s.tellClock i s.ownCeil).tick
/-- Pins one line of a member (03:R39): `bs` are its bytes where they come from another package. -/
def State.pinLine (s : State) (bar tile dom : Nat) (l : HomeLine) (bs : List Byte) : State :=
  let near := l.piece.pkg == s.me
  let line := if near then l.piece.off else 2 ^ 60 + l.piece.pa
  let s := if near then s.othersYield noTile dom l.piece.off true else s
  let v := if !l.range.init then List.replicate 192 0 else if near then s.read l.piece.off 192 else bs
  let s := s.write (sramAddr tile (l.sline * 192)) v
  { s with ms := { s.ms with pins := s.ms.pins ++
    [(⟨line, bar, none, tile, l.sline, if l.range.init then 0 else 15, l.range.scl, l.range.init, false⟩ : Pin)] } }
/-- Pins lines in order; the bytes of lines from elsewhere lie end to end. -/
def State.pinLines (s : State) (bar tile dom : Nat) : List HomeLine → List Byte → State
  | [], _ => s
  | l :: ls, bs =>
    let far := l.piece.pkg != s.me
    (s.pinLine bar tile dom l (bs.take 192)).pinLines bar tile dom ls (if far then bs.drop 192 else bs)
/-- Lines of a tile's cache in banks that become scratch are written back and dropped (03:R39). -/
def State.emptyBanks (s : State) (tile : Nat) (bank : Nat → Bool) : State :=
  let t := s.tile tile
  let out := t.cache.filter (fun c => bank (c.slot / 512))
  let s := s.setTile tile { t with cache := t.cache.filter (fun c => !bank (c.slot / 512)) }
  out.foldl (fun s c => if c.dirty = 0 then s else
    ({ s with ms := { s.ms with under := cleanLine s.ms.under c.line 15 } }).l2Access c.line c.dom true) s
/-- RIN and ROLLS of a partition's group rise to those of a group that joins it: what its interval has made goes on in the risen one
(21:R264; DESIGN CHOICE, log 80). -/
def State.riseTo (s : State) (n rin rolls : Nat) : State :=
  let g := s.rgs n
  let s := if rolls ≤ g.rolls then s else s.setRgs n { g with rolls := rolls }
  if rin ≤ g.rin then s
  else
    let up (j : JobEntry) : JobEntry := if j.rin = g.rin ∧ s.nodeOf j.dom = some n then { j with rin := rin } else j
    let engines := s.eng.engines.map (fun (e : Nat × Engine) => (e.1, { e.2 with jobs := e.2.jobs.map up, subs := e.2.subs.map up }))
    let es := s.ms.cellar.filter (·.node == n)
    let ms := { s.ms with
      cellar := s.ms.cellar.map (fun (e : CellarEntry) => if e.node = n then { e with rin := rin } else e)
      stamps := es.foldl (fun m e => setKey m e.line rin) s.ms.stamps
      larder := s.ms.larder.map (fun (e : LarderEntry) => if e.node = n ∧ e.rin = g.rin then { e with rin := rin } else e) }
    let late (c : Command) : Command := if c.op = 3 ∧ c.upto = g.rin then { c with upto := rin } else c
    let vcps := s.st.vcps.map (fun (v : Nat × Vcp) => if s.nodeOf v.1 = some n then
      (v.1, { v.2 with queues := v.2.queues.map (fun x => { x with cmds := x.cmds.map late }) }) else v)
    let s := { s with eng := { s.eng with engines := engines }, ms := ms, st := { s.st with vcps := vcps } }
    s.setRgs n { s.rgs n with rin := rin }
/-- The packages of a partition's group grow by some; the group's other packages are told all of them, with RIN and ROLLS (21:R263-R264). -/
def State.joinPeers (s : State) (n : Nat) (pkgs : List Nat) : State :=
  let old := (s.rgs n).peers
  let all := (old ++ pkgs.filter (· != s.me)).dedup
  if all.length = old.length then s
  else all.foldl (fun s p => s.emit (.group n p (s.me :: all) (s.rgs n).rin (s.rgs n).rolls)) (s.setRgs n { s.rgs n with peers := all })
/-- The pin of a line that SIGN has asked its home on another package for (03:R39). -/
def Thread.pinAsked (t : Thread) (l : HomeLine) : Option HeldRead := t.flow.heldReads.find? (fun h => h.n == 0 && h.pa == l.piece.pa)
/-- Pins asked for that have not been answered. -/
def Thread.pinsPending (t : Thread) : Bool := t.flow.heldReads.any (fun h => h.n == 0 && h.reply.isNone)
/-- Asks for the pins of lines homed on other packages (03:R39, 29:R323). -/
def State.askPins (s : State) (bar : Nat) : List HomeLine → State
  | [] => s
  | l :: ls =>
    if l.piece.pkg = s.me || (s.th.pinAsked l).isSome then s.askPins bar ls
    else
      let (tag, s) := s.request s.th.acc (.pin bar l.range.init) l.piece []
      ({ s with th := { s.th with flow := { s.th.flow with heldReads := s.th.flow.heldReads ++ [(⟨l.piece.pa, 0, tag, 0, none⟩ : HeldRead)] } } }).askPins bar ls
/-- A SIGN that refuses releases the pins it was given on other packages (03:R38). -/
def State.releaseAsked (s : State) (bar : Nat) : State :=
  s.th.flow.heldReads.foldl (fun s h => match h.reply with
    | some (.done, _) => if h.n = 0 then (s.request s.th.acc (.unpin bar 0) ⟨0, h.pa, 192, 0⟩ []).2 else s
    | _ => s) s
/-- The effect of a SIGN whose checks have passed (03:R37, R39). -/
def State.signed (s : State) (t : Thread) (recA : Word) (g : Signing) (bs : List Byte) : State :=
  let mine := (g.coords.getD g.idx (0, [])).2
  let m : Member := ⟨g.idx, t.tile, t.tid, if t.info.kind = 1 then some t.info.gang else none, mine, g.plan, 0, false, none, false, false, []⟩
  let c : Compact := match s.compact? g.bar with
    | some c => c
    | none => ⟨recA, g.dom, g.nmem, g.xto, g.coords, [], 0, [], [], false, 0, 0, (s.nodeOf g.dom).getD 0, g.multi⟩
  let s := s.setCompact g.bar { c with members := c.members ++ [m] }
  let s := s.emptyBanks t.tile (s.compactBank t.tile)
  let s := s.pinLines g.bar t.tile g.dom g.lines bs
  let s := match s.nodeOf g.dom with
    | some n => s.joinPeers n (s.packagesOf g.dom g.coords)
    | none => s
  if g.multi then s.joinGroup g.grp true else s
/-- A trap of SIGN: what it has pinned elsewhere is released. -/
def State.signRefused (s : State) (bar : Nat) (x : Trap) : Done :=
  if s.th.flow.heldReads.any (·.n == 0) then .trapWith x (s.releaseAsked bar) else .trap x
/-- The pins of a SIGN: those of lines homed elsewhere are asked for, then all take effect, or it refuses (03:R38-R39, 27:R313). -/
def State.signPins (s : State) (recA : Word) (g : Signing) : Done :=
  let far := g.lines.filter (fun l => l.piece.pkg != s.me && regionOf l.piece.off == .dram && s.pkgLive l.piece.pkg)
  if far.any (fun l => (s.th.pinAsked l).isNone) then .hold 2 (s.askPins g.bar far)
  else
    match (far.findSome? (fun l => ((s.th.pinAsked l).bind (·.reply)).bind (fun r => replyTrap r.1 l.piece.va l.piece.pa))).or g.ill with
    | some x => s.signRefused g.bar x
    | none => .ok (s.signed s.th recA g (far.flatMap (fun l => (((s.th.pinAsked l).bind (·.reply)).map (·.2)).getD [] |>.take 192)))
/-- SIGN (13:R175, 03:R36-R39). -/
def execSign (m : Mark) (a : Reg) (s : State) : Host.Outcome State Fault Refusal :=
  s.issue (.sign m a) (fun s =>
    let t := s.th
    let recA := t.gr a
    if recA.toNat % 64 ≠ 0 then .trap ⟨.align, 0, recA⟩
    else if t.pinsPending then .hold 2 s
    else (s.ldAll t.acc [(recA, 64)]).andThen (fun h s =>
      let n := bits (wordAt h 0) 15 0
      (s.ldAll t.acc [(recA, 64 + 288 * Nat.min n 24576)]).andThen (fun bs s =>
        let dom := bits (wordAt bs 0) 25 16
        let here := (List.range (Nat.min n 24576)).find? (fun i => match s.coordOf dom (bits (wordAt (memberBytes bs i) 0) 14 0) with
          | some (k, p, x) => k ≤ 1 && p == s.me && x == t.tile
          | none => false)
        match here with
        | none => s.signRefused (bits (wordAt bs 0) 63 32) ⟨.illstate, 0, (recordBreaches recA bs n).headD recA⟩
        | some i =>
          let plan := BitVec.ofNat 64 (wordAt (memberBytes bs i) 1)
          (s.ldAll t.acc [(plan, 64)]).andThen (fun ph s =>
            let tabs := match planCounts ph with
              | some ns => (List.range ns.length).map (fun v => (plan + BitVec.ofNat 64 (64 + 8192 * v), 32 * ns.getD v 0))
              | none => []
            (s.ldAll t.acc tabs).andThen (fun tb s =>
              match s.signChecks t recA bs (ph ++ tb) with
              | .error x => s.signRefused (bits (wordAt bs 0) 63 32) x
              | .ok (g, s) => s.signPins recA g)))))

-- Supersteps ----------------------------------------------------------------------------------------------------------

/-- SYNC (13:R173, 03:R43-R46): its result guard is pending until the vote is delivered (07:R94). A member that arrives again, after a
handler, keeps its arrival with the vote it names now; other packages are told of it by State.tellArrivals. -/
def execSync (m : Mark) (q : BitVec 3) (a b : Reg) (s : State) : Host.Outcome State Fault Refusal :=
  s.issue (.sync m q a b) (fun s =>
    let t := s.th
    match s.memberThread t with
    | none => .trap ⟨.illstate, 0, t.pc⟩
    | some (bar, c, mb) =>
      if t.gst q.toNat = .pend && mb.vote.map (·.2.2) != some (t.resultTag q.toNat) then .wait .waiting s
      else
        let op := (t.gr a).toNat % 4
        let kind := b.toNat + (if c.clk && (s.gangOf bar).any (·.flow.preempt != 0) then 4 else 0) + (if c.clk && (s.rgs c.node).sealing then 8 else 0)
        let c := c.setMember { mb with vote := some (op, kind, t.resultTag q.toNat), told := false }
        let s := { s with th := t.setGuard q.toNat .pend }
        .wait .sync (if c.members.any (·.dissolving) then s.failCompact bar c 2 else s.setCompact bar c))
/-- EXCH (13:R174, 03:R43). -/
def execExch (m : Mark) (s : State) : Host.Outcome State Fault Refusal :=
  s.issue (.exch m) (fun s =>
    let t := s.th
    match s.memberThread t with
    | none => .trap ⟨.illstate, 0, t.pc⟩
    | some (bar, c, mb) =>
      if mb.exchDone || c.superstep = 0 then .trap ⟨.illstate, 0, t.pc⟩
      else
        let c := c.setMember { mb with exchDone := true }
        .ok (s.setCompact bar { c with fly := c.fly ++ mb.plan.getD mb.variant [] }))
/-- DISSOLVE (13:R176, 03:R46): the arrival stands while it holds. -/
def execDissolve (m : Mark) (s : State) : Host.Outcome State Fault Refusal :=
  s.issue (.dissolve m) (fun s =>
    let t := s.th
    if t.flow.ddone then .ok { s with th := { t with flow := { t.flow with ddone := false } } }
    else match s.memberThread t with
      | none => .trap ⟨.illstate, 0, t.pc⟩
      | some (bar, c, mb) =>
        if mb.dissolving then .hold 4 s
        else if !t.flow.synced then .trap ⟨.illstate, 0, t.pc⟩
        else
          let late := c.members.any (·.vote.isSome)
          let c := c.setMember { mb with dissolving := true }
          let s := s.tellMembers bar c 0 16
          .hold 4 (if late then s.failCompact bar c 2 else s.setCompact bar c))

/-- Adds 1 to an exchange's flag word in SRAM (03:R43). -/
def State.bumpFlag (s : State) (tile o : Nat) : State :=
  s.tileStore tile o (leBytes 8 ((leNat (s.read (sramAddr tile o) 8) + 1) % 2 ^ 64))
/-- Ports 0-7 of the endpoint entry of a UET peer, package 16 + p of a function; one of them carries a message, a free choice (29:R332,
log 3). -/
def State.portFor (s : State) (dom pkg : Nat) : Option Nat :=
  let w := (lookupD s.pl.ept (dom * 16 + pkg % 16) (0, 0)).1.toNat
  let ps := (List.range 8).filter (fun p => bitOf (bits w 57 50) p)
  ps[Config.uetPort s.fresh % ps.length]?
/-- Bytes that leave through an Ethernet port for a function (23:R289, 25:R309). -/
def State.portSent (s : State) (dom n : Nat) (port : Option Nat) : State :=
  let s := match port with
    | some q => (s.count (325 + q) dom 0 1).count (325 + q) dom 1 n
    | none => s
  s.charge dom 1 ((n + 511) / 512)
/-- A frame that arrives through an Ethernet port for a function (25:R309). -/
def State.portReceived (s : State) (dom : Nat) : State := (s.count (325 + Config.uetPort s.fresh % 8) dom 2 1).tick
/-- An exchange entry leaves for a member on another package, and is in flight until that acknowledges its landing (03:R43, 29:R324, R332,
25:R309). -/
def State.exchangeOut (s : State) (bar : Nat) (c : Compact) (e : ExchEntry) (p : Nat) (bs : List Byte) : State :=
  let port := if e.path = 1 then s.portFor c.dom p else none
  let s := if e.path = 1 then s.portSent c.dom e.len port else s.flits c.dom (dataFlits e.len)
  ((s.setCompact bar { c with sent := c.sent ++ [⟨s.fresh, e.path, p, e.src, p % 16 * 2 ^ 48 + sramAddr (Nat.min ((coordIdx (e.dst % 2048)).getD 0) noTile) e.doff⟩] }).emit
    (.exchange bar e.dst s.fresh e.doff (if e.fe then some e.foff else none) bs port)).tick
/-- An exchange entry's bytes land (03:R43); `data` are those of a member on another package, whose package and tag `src` names (log 13).
Entries to a package that is not live are discarded (29:R330). -/
def State.exchangeWrite (s : State) (bar tile off : Nat) (data : List Byte) (flag : Option Nat) (src : Option (Nat × Nat)) : Option State :=
  match s.compact? bar with
  | none => none
  | some c =>
    if !data.isEmpty then
      if c.members.any (·.tile == tile) && off + data.length ≤ Config.sramSize then
        let s := s.tileStore tile off data
        let s := match src with
          | some (p, _) => if p < 16 then s.flitsIn c.dom (dataFlits data.length) else s.portReceived c.dom
          | none => s
        let s := match flag with
          | some o => s.bumpFlag tile o
          | none => s
        some (match src with
          | some (p, tag) => if p < 16 then s.sendReply c.dom p tag .done [] else s.emit (.reply p tag .done [])
          | none => s)
      else none
    else match c.fly with
      | [] => none
      | e :: rest =>
        let bs := s.read (sramAddr e.src e.soff) e.len
        let c := { c with fly := rest }
        let s := s.setCompact bar c
        match s.coordOf c.dom e.dst with
        | some (k, p, i) =>
          if k ≤ 1 && p == s.me then
            let s := s.tileStore i e.doff bs
            some (if e.fe then s.bumpFlag i e.foff else s)
          else if k ≤ 1 && !s.pkgLive p then some s
          else if s.spent c.dom 1 || (if k = 2 then s.pl.ethDown else s.portTrains) then none
          else some (s.exchangeOut bar c e p bs)
        | none => some s

/-- The result of a vote (03:R45). -/
def voteOf (kind : Nat) (vs : List Nat) : Nat :=
  if kind = 0 then vs.foldl (· ||| ·) 0 else if kind = 1 then vs.foldl (· &&& ·) 3 else Nat.min vs.sum 3
/-- The members resume after their SYNC (03:R44 step 5). -/
def State.resumeCompact (s : State) (bar : Nat) (c : Compact) : State :=
  let s := s.setCompact bar { c with phase := 0 }
  let s := (s.gangOf bar).foldl (fun s t => s.onThread t.tid (fun t => { t with flow := { t.flow with sealed := false } })) s
  c.members.foldl (fun s m => s.onThread m.tid (fun t =>
    if t.status == .sync then
      let t := t.stepOver
      { t with flow := { t.flow with synced := true } }
    else t)) s
/-- Nothing keeps the other threads of the member gangs from being saved: they stand at a boundary, their results written. -/
def State.gangStill (s : State) (bar : Nat) (c : Compact) : Bool :=
  (s.gangOf bar).all (fun t => s.leaveReady t && (t.atBoundary || c.members.any (·.tid == t.tid)))
/-- A thread whose gang leaves with its compact (03:R47): its record is written, not queued. -/
def State.leaveCompact (s : State) (tid : Nat) : State :=
  match s.thread? tid with
  | none => s
  | some t =>
    let t := if t.status == .sync then t.stepOver else { t with status := .ready }
    s.leaveSlot { t with flow := { t.flow with leave := 6 } }
/-- Step 4 of a boundary: pre-emption as a whole (03:R47). -/
def State.preemptCompact (s : State) (bar : Nat) (c : Compact) : State :=
  let gang := s.gangOf bar
  let recsOf (m : Member) : List (Nat × Word) :=
    (gang.filter (fun t => t.tile == m.tile)).map (fun t => (t.tid, t.info.addr))
  let s := (s.pinsOf bar).foldl (fun s p => s.writeBackPin c.dom c.node p true) s
  let s := gang.foldl (fun s t => s.leaveCompact t.tid) s
  let c := { c with preempted := true, phase := 0, members := c.members.map (fun m => { m with recs := recsOf m }) }
  let pins := s.ms.pins.map (fun (p : Pin) => if p.bar = bar && p.far.isNone then { p with away := true, dirty := 0 } else p)
  { s with ms := { s.ms with pins := pins } }.setCompact bar c
/-- Step 4 of a boundary: the compact's part of a seal (21:R267). -/
def State.sealCompact (s : State) (bar : Nat) (c : Compact) : State :=
  let s := ((s.pinsOf bar).filter (·.scl)).foldl (fun s p => s.writeBackPin c.dom c.node p false) s
  let pins := s.ms.pins.map (fun (p : Pin) => if p.bar = bar && p.far.isNone && p.scl then { p with dirty := 0 } else p)
  let s := { s with ms := { s.ms with pins := pins } }.setCompact bar { c with phase := 3 }
  (s.gangOf bar).foldl (fun s t =>
    let r := if t.status == .sync then s.checkpoint (t.loopStep.countEv 2 1) t.loopStep.pc else s.checkpoint t t.pc
    r.1.onThread t.tid (fun t => { t with flow := { t.flow with sealed := true } })) s
/-- Records that wait on a pinned line read again after a boundary (13:R178). -/
def State.wakePin (s : State) (dom : Nat) (p : Pin) : State :=
  let s := s.wakeLine (waitLine (sramAddr p.tile (p.sline * 192)))
  if p.line < 2 ^ 60 then s.wakeLine p.line else (s.request (sysAcc dom) .wake ⟨0, p.line - 2 ^ 60, 192, 0⟩ []).2
/-- What a boundary has to do at its step 4; a compact of several packages goes by what its members' arrivals have said, so that all do the
same (03:R44, R47). -/
def State.stepFour (s : State) (bar : Nat) (c : Compact) (kinds : List Nat) : Nat :=
  if c.clk then (if kinds.any (bitOf · 3) then 2 else if kinds.any (bitOf · 2) then 1 else 0)
  else if (s.rgs c.node).sealing then 2 else if (s.gangOf bar).any (·.flow.preempt != 0) then 1 else 0
/-- A thread of a member gang has a load or an atomic at another package whose bytes are not bound, but for a read of the compact's own
lines there, which a boundary serves (03:R41, 19:R258-R259). -/
def State.farAwaited (s : State) (c : Compact) (t : Thread) : Bool :=
  let own (va : Word) : Bool := c.coords.any (fun x => x.2.any (fun r => r.home.toNat ≤ va.toNat && va.toNat < r.home.toNat + 192 * r.nline))
  let far (p : Part) : Bool := match p with
    | .wait _ _ _ va pa => pa / 2 ^ 48 != s.me && !own va
    | .have _ => false
  t.flow.outs.any (fun o => match o.src with
    | .parts ps _ => ps.any far
    | _ => false)
/-- The accesses of the member gangs on this package in the compute phase, and their exchange, are performed (03:R43, 19:R258). -/
def State.phaseDone (s : State) (bar : Nat) (c : Compact) : Bool :=
  c.fly.isEmpty && c.sent.isEmpty && (s.gangOf bar).all (fun t => s.storesDone t.tid && !s.farAwaited c t)
/-- A member waits at the SYNC it has arrived at. -/
def State.arrivedAt (s : State) (m : Member) : Bool := m.vote.isSome && (match s.thread? m.tid with
  | some t => t.status == .sync
  | none => false)
/-- A member waits in its DISSOLVE. -/
def State.dissolvesAt (s : State) (m : Member) : Bool := m.dissolving && (match s.thread? m.tid with
  | some t => t.flow.hold == 4
  | none => false)
/-- The other packages of a compact are told of the arrivals of members here, once what came before them is performed (03:R43, 19:R258). -/
def State.tellArrivals (s : State) (bar : Nat) (c : Compact) : Option (State × Compact) :=
  let new := c.members.filter (fun m => !m.told && s.arrivedAt m)
  if !c.clk || new.isEmpty || !s.phaseDone bar c then none
  else
    let s := new.foldl (fun s m => match m.vote with
      | some (v, k, _) => s.tellMembers bar c v k
      | none => s) s
    let c := { c with members := c.members.map (fun m => if new.contains m then { m with told := true } else m) }
    some (s.setCompact bar c, c)
/-- The boundary of a compact, or what is left of it at step 4 (03:R43-R45, R47); `votes` are those of members on other packages, as
OutMsg.arrival codes them. What the member gangs did before it is performed (19:R258); a fault that another package tells of is kept for
the next boundary (27:R314). -/
def State.boundary (s : State) (bar : Nat) (votes : List (Nat × Nat)) : Option State :=
  match s.compact? bar with
  | none => none
  | some c =>
    let told := votes.findSome? (fun v => if 32 ≤ v.2 then some (v.2 - 32) else if v.2 = 16 && c.members.any (·.vote.isSome) then some 2 else none)
    let was := c.fault
    let c := if was = 0 then { c with fault := told.getD 0 } else c
    let kept : Option State := if was = 0 ∧ c.fault ≠ 0 then some (s.setCompact bar c) else none
    if c.preempted || c.phase = 3 then kept
    else if c.phase = 1 then (if s.gangStill bar c then some (s.preemptCompact bar c) else kept)
    else if c.phase = 2 then (if s.gangStill bar c then some (s.sealCompact bar c) else kept)
    else if c.fault ≠ 0 then
      (if c.members.all (fun m => s.arrivedAt m || s.dissolvesAt m) then some (s.faultCompact bar c c.fault) else kept)
    else
    let tells := s.tellArrivals bar c
    let (s, c) := tells.getD (s, c)
    if !c.members.all s.arrivedAt || c.members.length + votes.length != c.nmem || !s.phaseDone bar c then tells.map (·.1)
    else
      let vs := c.members.filterMap (·.vote)
      let kinds := vs.map (fun v => v.2.1) ++ votes.map (·.2)
      let kind := kinds.headD 0 % 4
      if kinds.any (· % 4 != kind) then some (s.faultCompact bar c 1)
      else
        let r := voteOf kind (vs.map (·.1) ++ votes.map (·.1))
        let s := c.members.foldl (fun s m => match m.vote with
          | some (_, _, q) => s.onThread m.tid (·.resolve q (guardOf (r != 0)))
          | none => s) s
        let fresh (m : Member) : Member :=
          { m with vote := none, told := false, exchDone := false, variant := if c.superstep = 0 then 0 else Nat.min r (m.plan.length - 1) }
        let c : Compact := { c with superstep := c.superstep + 1, members := c.members.map fresh }
        let s := c.members.foldl (fun s m => s.serveReads m.tile 64) (s.setCompact bar c)
        let s := (s.pinsOf bar).foldl (fun s p => s.wakePin c.dom p) s
        let k := s.stepFour bar c kinds
        some (if k = 0 then s.resumeCompact bar c else s.setCompact bar { c with phase := k })
/-- Asks the homes on other packages for a compact's lines again (03:R47). -/
def State.askRefills (s : State) (dom : Nat) (ps : List Pin) : State :=
  ps.foldl (fun s p =>
    let (tag, s) := s.request (sysAcc dom) (.pin p.bar true) ⟨0, p.line - 2 ^ 60, 192, 0⟩ []
    { s with pl := { s.pl with refills := s.pl.refills ++ [⟨tag, p.bar, p.tile, p.sline⟩] } }) s
/-- The bytes of a line asked for again arrive; after a rollback a volatile line is zero (03:R47, 21:R273). -/
def State.refilled (s : State) (r : Refill) (bs : List Byte) : State :=
  let s := { s with pl := { s.pl with refills := s.pl.refills.filter (·.tag != r.tag) } }
  match s.ms.pins.find? (fun p => p.bar == r.bar && p.far.isNone && p.tile == r.tile && p.sline == r.sline), s.compact? r.bar with
  | some p, some c =>
    let bs : List Byte := if c.phase = 4 && !p.scl then List.replicate 192 0 else (bs ++ List.replicate 192 0).take 192
    let pins : List Pin := s.ms.pins.map (fun (q : Pin) => if q = p then { q with away := false, dirty := 0 } else q)
    { s with ms := { s.ms with pins := pins } }.write (sramAddr p.tile (p.sline * 192)) bs
  | _, _ => s
/-- A pre-empted compact's gangs are loaded and its lines pinned again from home (03:R47), those of other packages first. -/
def State.resumeSaved (s : State) (bar : Nat) : Option State :=
  match s.compact? bar with
  | none => none
  | some c =>
    let recs := c.members.flatMap (·.recs)
    let tileFree := recs.all (fun r => (s.freeSlots (r.1 / 16) c.dom).contains (r.1 % 16))
    let far := (s.pinsOf bar).filter (fun p => p.away && 2 ^ 60 ≤ p.line)
    if !c.preempted || !tileFree || s.pl.refills.any (·.bar == bar) || s.pl.posted.any (·.tid == 2 ^ 60 + bar) then none
    else if !far.isEmpty then some (s.askRefills c.dom far)
    else
      let back := recs.foldl (fun (s : Option State) r => s.bind (fun s => match s.loadRecord c.dom r.2 r.1 with
        | .ok s => some s
        | _ => none)) (some s)
      back.map (fun (s : State) =>
        let s : State := s.setCompact bar { c with preempted := false, phase := 0, members := c.members.map (fun m => { m with recs := [] }) }
        let s := c.members.foldl (fun s m => s.emptyBanks m.tile (s.compactBank m.tile)) s
        let s : State := (s.pinsOf bar).foldl (fun (s : State) p =>
          if 2 ^ 60 ≤ p.line then s else
            (s.othersYield noTile c.dom p.line true).write (sramAddr p.tile (p.sline * 192))
              (if c.phase = 4 && !p.scl then List.replicate 192 0 else s.read p.line 192)) s
        let pins : List Pin := s.ms.pins.map (fun (p : Pin) => if p.bar = bar && p.far.isNone then { p with away := false, dirty := 0 } else p)
        let s : State := { s with ms := { s.ms with pins := pins } }
        c.members.foldl (fun s m => s.onThread m.tid (fun t => { t with flow := { t.flow with synced := true } })) s)
/-- A line becomes an owned one of a tile's SRAM with dirty sectors, its bytes the coherent ones (03:R46); none where its
group rolls back. A holder on package p, which no tile of this one is, stands as tile noTile + 1 + p. -/
def State.owned (s : State) (dom rin line tile slot dirty : Nat) (bs : List Byte) : State :=
  match (if dirty = 0 then .ok s else s.tagged dom line rin line true) with
  | .roll s => s
  | .stall => s
  | .ok s =>
  let s := { s with ms := { s.ms with under := dirtyLine s.ms.under s.ms.mem line dirty } }
  let t := s.tile tile
  let t := { t with cache := ⟨line, slot, dom, 15, dirty, false⟩ :: t.cache.filter (fun c => c.slot != slot) }
  let s := (s.setTile tile t).write line bs
  if dirty = 0 then s else s.wakeLine line
/-- A pinned line is published as owned by its member's SRAM, and not written back (03:R46). -/
def State.publish (s : State) (dom node : Nat) (p : Pin) : State :=
  if p.line < 2 ^ 60 then s.owned dom (s.rinOf dom) p.line p.tile p.sline p.dirty (s.pinBytes p)
  else s.tellHome dom node p (.publish p.bar p.dirty)
/-- Every member has executed DISSOLVE (03:R46): all `nmem` here, or `told` by the other packages. -/
def State.dissolveAll (s : State) (bar : Nat) (told : Bool) : Option State :=
  match s.compact? bar with
  | none => none
  | some c =>
    if c.members.isEmpty || !c.members.all (·.dissolving) || c.fault ≠ 0 || (!told && c.members.length != c.nmem) then none
    else
      let s := (s.pinsOf bar).foldl (fun s p => s.publish c.dom c.node p) s
      let s := c.members.foldl (fun s m => s.serveReads m.tile s.ms.defer.length) s
      let s := s.dropCompact bar
      some (c.members.foldl (fun s m => s.onThread m.tid (fun t => { t with flow := { t.flow with ddone := true } })) s)
/-- A compact whose Ethernet exchange is late, or whose connection failed (13:R173, 29:R333). -/
def State.exchangeLost (s : State) (bar : Nat) (late : Bool) : Option State :=
  match s.compact? bar with
  | none => none
  | some c =>
    if late && (c.xto = 0 || !(c.fly.any (·.path == 1) || c.sent.any (·.path == 1)) || !c.members.all (·.vote.isSome)) then none
    else some (s.failCompact bar c 3)

/-- COMPACT_BOUNDARY (03:R44). -/
def execCompactBoundary (bar : Nat) (votes : List (Nat × Nat)) (s : State) : Host.Outcome State Fault Refusal :=
  unitStep s (s.boundary bar votes)
/-- DISSOLVE_ALL_ARRIVED (03:R46). -/
def execDissolveAllArrived (bar : Nat) (s : State) : Host.Outcome State Fault Refusal := unitStep s (s.dissolveAll bar true)
/-- EXCHANGE_WRITE (03:R43): `dst` is the tile and the offset in its SRAM where bytes from another package land. -/
def execExchangeWrite (bar : Nat) (dst : Nat × Nat) (data : List Byte) (flag : Option Nat) (src : Option (Nat × Nat)) (s : State) :
    Host.Outcome State Fault Refusal := unitStep s (s.exchangeWrite bar dst.1 dst.2 data flag src)
/-- XTIMEOUT (13:R173). -/
def execXtimeout (bar : Nat) (s : State) : Host.Outcome State Fault Refusal := unitStep s (s.exchangeLost bar true)
/-- UET_CONNECTION_FAILED (29:R333). -/
def execUetConnectionFailed (bar : Nat) (s : State) : Host.Outcome State Fault Refusal := unitStep s (s.exchangeLost bar false)

-- Barriers and waits --------------------------------------------------------------------------------------------------

/-- GBAR (13:R177, 03:R26). A thread whose barrier completed while it was in a handler passes. -/
def execGbar (m : Mark) (s : State) : Host.Outcome State Fault Refusal :=
  s.issue (.gbar m) (fun s =>
    let f := s.th.flow
    if f.gdone then .pass { s with th := { s.th with flow := { f with gdone := false } } }
    else if s.th.info.kind = 1 then .wait .gbar { s with th := { s.th with flow := { f with gba := true } } } else .pass s)
/-- A gang barrier that every member has arrived at, and whose members' stores are performed, completes for them: an arrival stands while
its thread is in a handler or has been saved (13:R177, 19:R253). -/
def State.gangBarrier (s : State) (tile gang : Nat) : Option State :=
  let ready (t : Thread) : Bool := t.tile == tile && t.info.kind == 1 && t.info.gang == gang &&
    (s.gangOfThread t).all (fun u => u.flow.gba && s.storesDone u.tid)
  (s.threads.find? ready).map (fun t => (s.gangOfThread t).foldl (fun s u => s.onThread u.tid (fun u =>
    if u.status = .gbar then
      let u := u.stepOver
      { u with flow := { u.flow with gba := false } }
    else { u with flow := { u.flow with gba := false, gdone := true } })) s)
/-- GANG_BARRIER_COMPLETE (13:R177). -/
def execGangBarrierComplete (tile gang : Nat) (s : State) : Host.Outcome State Fault Refusal := unitStep s (s.gangBarrier tile gang)

/-- WAITA's condition (13:R178). -/
def waitCond (c : Nat) (v x : Word) : Bool :=
  if c = 0 then v != x else if c = 1 then v == x else if c = 2 then decide (uv x ≤ uv v) else decide (sv x ≤ sv v)
/-- WAITA (13:R178). -/
def execWaita (m : Mark) (a b : Reg) (c : BitVec 5) (s : State) : Host.Outcome State Fault Refusal :=
  s.issue (.waita m a b c) (fun s =>
    let t := s.th
    let ea := t.gr a
    let on (s : State) (va : Option Word) (pa : Option Nat) (keep : Bool) : State :=
      { s with th := { s.th with flow := { s.th.flow with
          waitVa := va, waitAt := pa.map unitOf, heldReads := if keep then s.th.flow.heldReads else [] } } }
    if ea.toNat % 8 ≠ 0 then .trap ⟨.align, 0, ea⟩
    else match s.pieces t.acc .read ea 8 true with
      | .error x => .trap x
      | .ok (ps, _) => match s.ldHeld t.acc .read ea 8 with
        | .ok bs s =>
          if waitCond (c.toNat % 4) (BitVec.ofNat 64 (leNat bs)) (t.gr b) then (on s none none false).passed
          else .wait .waiting (on s (some ea) (ps.head?.map (·.pa)) false)
        | .trap x => .trap x
        | .hold s => .wait .waiting (on s (some ea) (ps.head?.map (·.pa)) true)
        | .refuse o => .refuse (.unassignedMmio o))
/-- A WAITA that has waited long leaves its slot onto the line's wait list; one that has been woken reads again first (13:R178). -/
def State.waitaLeave (s : State) (tid : Nat) : Option State :=
  match s.thread? tid with
  | none => none
  | some t =>
    if t.status == .waiting && t.flow.waitVa.isSome && t.flow.waitAt.isSome && (s.nodeOf t.home).isSome && t.info.kind != 1 && t.caller.isNone && (s.memberOf tid).isNone then
      let t := { t with flow := { t.flow with leave := 2 } }
      if s.leaveReady t then some (s.leaveSlot t) else some (s.setThread { t with status := .leaving })
    else none
/-- WAITA_SUSPEND (13:R178). -/
def execWaitaSuspend (tid : Nat) (s : State) : Host.Outcome State Fault Refusal := unitStep s (s.waitaLeave tid)
/-- WAKE (13:R179): resident waiters read again by themselves. -/
def execWake (m : Mark) (a : Reg) (s : State) : Host.Outcome State Fault Refusal :=
  s.issue (.wake m a) (fun s =>
    let t := s.th
    let ea := t.gr a
    if ea.toNat % 8 ≠ 0 then .trap ⟨.align, 0, ea⟩
    else match s.pieces t.acc .read ea 8 with
      | .error x => .trap x
      | .ok (ps, s) => .ok (ps.foldl (fun s p =>
          if p.pkg == s.me then s.wakeLine (waitLine p.off) else (s.request t.acc .wake p []).2) s))

-- Packets and guards --------------------------------------------------------------------------------------------------

/-- The packet of a SEND or SENDE after its beat: none where R180 gives the illegal-state trap. -/
def Thread.addBeat (t : Thread) (a b : Reg) (q : Nat) : Option Packet :=
  match t.flow.packet with
  | none => if a = 0 then none else some ⟨bits (t.gr a).toNat 14 0, [t.gr b], q⟩
  | some p => if a ≠ 0 ∨ 64 ≤ p.beats.length then none else some { p with beats := p.beats ++ [t.gr b], guard := q }
/-- SEND (13:R180). -/
def execSend (m : Mark) (a b : Reg) (s : State) : Host.Outcome State Fault Refusal :=
  s.issue (.send m a b) (fun s => match s.th.addBeat a b 0 with
    | none => .trap ⟨.illstate, 0, s.th.pc⟩
    | some p => .ok { s with th := { s.th with flow := { s.th.flow with packet := some p } } })
/-- Closed packets of a thread not yet accepted (13:R180). -/
def State.unaccepted (s : State) (t : Thread) : Nat :=
  t.flow.egress.length + (s.eng.router.filter (fun m => match m with | .packetWait _ src _ _ => src == t.tid | _ => false)).length +
    (s.ms.larder.filter (fun e => e.egress.any (·.tid == t.tid))).length
/-- SENDE (13:R180). -/
def execSende (m : Mark) (q : BitVec 3) (a b : Reg) (s : State) : Host.Outcome State Fault Refusal :=
  s.issue (.sende m q a b) (fun s => match s.th.addBeat a b (s.th.resultTag q.toNat) with
    | none => .trap ⟨.illstate, 0, s.th.pc⟩
    | some p =>
      if 4 ≤ s.unaccepted s.th || !s.mayRelease s.th then .hold 2 s
      else
        let t := s.th.setGuard q.toNat .pend
        .ok { s with th := { t with flow := { t.flow with packet := none, egress := t.flow.egress ++ [p] } } })
/-- Beats of a packet with their status words (13:R182). -/
def packetBeats (p : List Word) (sender : Nat) : List Beat :=
  (List.range p.length).map (fun i => ⟨p.getD i 0, pack [(sender, 8), (i, 2), (b2n (i + 1 == p.length), 1), (1, 0)]⟩)
/-- A whole packet enters a tile's receive queue: accepted, refused, or no room yet (13:R180, R182). -/
def State.intoQueue (s : State) (coord dom sender : Nat) (beats : List Word) : Option (Bool × State) :=
  match coordIdx (coord % 2048) with
  | none => some (false, s)
  | some i =>
    let t := s.tile i
    match (if s.retired i then none else t.dp? dom) with
    | none => some (false, s)
    | some (n, _) =>
      let q := t.rxq.getD n []
      if 512 < q.length + beats.length then none
      else some (true, s.setTile i { t with rxq := t.rxq.set n (q ++ packetBeats beats sender) })
/-- A packet leaves for a UET peer through one of its ports, and is awaited (13:R180, 21:R270, 29:R332-R333). -/
def State.ethernetPacket (s : State) (dom : Nat) (x : Egress) (beats : List Word) : State :=
  let port := s.portFor dom x.pkg
  let s := s.portSent dom (8 * beats.length) port
  ((s.emit (.packet x.pkg s.fresh (x.coord % 2048) dom x.sender beats port)).toRouter (.packetWait s.fresh x.tid x.guard x.pkg)).tick
/-- A packet for a UET peer: of group work to a package outside the group, the larder of the tile's die holds it until its interval is
sealed (21:R270); none while that is full, the ports train, or the budget is spent. -/
def State.ethernetOut (s : State) (t : Thread) (x : Egress) (beats : List Word) : Option State :=
  match (s.nodeOf t.dom).filter (fun n => !(s.rgs n).peers.contains x.pkg) with
  | some n =>
    let d := dieOf t.tile
    if larderSize < s.larderUsed d + 8 * beats.length then none
    else some (State.tick { s with ms := { s.ms with larder := s.ms.larder ++
      [(⟨d, n, s.rinOf t.dom, t.tid, t.dom, 0, 2 ^ 52, beats.flatMap (fun w => leBytes 8 w.toNat), s.fresh, some t.who, none, false, some x, false⟩ : LarderEntry)] } })
  | none => if s.pl.ethDown || s.spent t.dom 1 then none else some (s.ethernetPacket t.dom x beats)
/-- The oldest closed packet of a thread is accepted, refused, or leaves for another package, by Ethernet for a UET peer (29:R332-R333; log
61); or one arrives from there (13:R180, R182). -/
def State.packetAccept (s : State) (tid : Nat) (arr : Option Arrival) : Option State :=
  match arr with
  | some x =>
    (s.intoQueue x.coord x.dom x.sender x.beats).map (fun r =>
      let ack : Reply := if r.1 then .done else .domain
      if x.pkg < 16 then (r.2.flitsIn x.dom ((x.beats.length + 59) / 60)).sendReply x.dom x.pkg x.tag ack []
      else (r.2.portReceived x.dom).emit (.reply x.pkg x.tag ack []))
  | none =>
    match s.thread? tid with
    | none => none
    | some t => match t.flow.egress with
      | [] => none
      | p :: rest =>
        let gone (s : State) : State := s.onThread tid (fun t => { t with flow := { t.flow with egress := rest } })
        let done (s : State) (ok : Bool) : Option State := some ((gone s).toRouter (.packetAck tid p.guard ok))
        let me := s.pl.pkg * 2048 + idxCoord t.tile
        match s.coordOf t.dom p.coord with
        | none => done s false
        | some (k, b, _) =>
          if b == s.me then (s.intoQueue p.coord t.dom me p.beats).bind (fun r => done r.2 r.1)
          else if k = 2 then (s.ethernetOut t ⟨tid, p.guard, b, p.coord, me⟩ p.beats).map gone
          else if !s.pkgLive b then done s false
          else if s.spent t.dom 1 || s.portTrains then none
          else
            let s := s.flits t.dom ((p.beats.length + 59) / 60)
            some (gone ((s.emit (.packet b s.fresh (p.coord % 2048) t.dom me p.beats none)).toRouter (.packetWait s.fresh tid p.guard b))).tick
/-- PACKET_ACCEPT (13:R182). -/
def execPacketAccept (tid : Nat) (arr : Option Arrival) (s : State) : Host.Outcome State Fault Refusal :=
  unitStep s (s.packetAccept tid arr)
/-- The acceptance or refusal of a packet resolves its guard (13:R180). -/
def State.packetAcked (s : State) (tid : Nat) : Option State :=
  match s.eng.router.find? (fun m => match m with | .packetAck src _ _ => src == tid | _ => false) with
  | some (.packetAck src q ok) => some ((s.dropMsg (.packetAck src q ok)).onThread tid (·.resolve q (guardOf ok)))
  | _ => none
/-- SENDE_ACKNOWLEDGEMENT (13:R180). -/
def execSendeAcknowledgement (tid : Nat) (s : State) : Host.Outcome State Fault Refusal := unitStep s (s.packetAcked tid)
/-- RECV (13:R182). -/
def execRecv (m : Mark) (a b : Reg) (c : BitVec 5) (s : State) : Host.Outcome State Fault Refusal :=
  s.issue (.recv m a b c) (fun s =>
    let t := s.th
    let x := s.tile t.tile
    let dp := ((x.dp? t.dom).map (·.1)).getD 4
    match x.rxq.getD dp [] with
    | y :: rest => .ok (((s.setTile t.tile { x with rxq := x.rxq.set dp rest }).gw a y.data).gw b y.status)
    | [] => if c = 0 then .ok ((s.gw a 0).gw b 0) else .hold 1 s)
/-- PACKET_ABORT (03:R33): the open packet is closed with an abort marker; the trap follows. -/
def execPacketAbort (tid : Nat) (s : State) : Host.Outcome State Fault Refusal :=
  unitStep s (match s.thread? tid with
    | some t =>
      if t.flow.wdog && t.flow.packet.isSome then
        some (s.setThread { t with flow := { t.flow with packet := none, aborted := true } })
      else none
    | none => none)
/-- GSET (13:R183). -/
def execGset (m : Mark) (q : BitVec 3) (a : Reg) (s : State) : Host.Outcome State Fault Refusal :=
  s.issue (.gset m q a) (fun s =>
    if s.th.gst q.toNat = .pend then .hold 1 s else .ok { s with th := s.th.setGuard q.toNat (guardOf (s.th.gr a != 0)) })
/-- GWAIT (13:R184). -/
def execGwait (m : Mark) (q : BitVec 3) (s : State) : Host.Outcome State Fault Refusal :=
  s.issue (.gwait m q) (fun s => if s.th.gst q.toNat = .pend then .wait .waiting s else s.passed)

end Sys2Proof.Machine
end

