-- ==== Sys2Proof/Machine/Jobs.lean ====
section
/-! DEFINITION. Job cards, copy jobs and collectives on their engines, job handles (01:R13, 13:R185-R191, R195-R196, 23:R289). -/

namespace Sys2Proof.Machine
open Sys2Proof

-- Cards ---------------------------------------------------------------------------------------------------------------

/-- The 8-byte word at byte `o` of a card. -/
def cardWord (c : List Byte) (o : Nat) : Nat := wordAt c (o / 8)
/-- Byte offsets of the card words that break the map of R185, in rising order. -/
def cardBreaches (kind : Nat) (c : List Byte) : List Nat :=
  let w := cardWord c
  let nrd := bits (w 0) 59 57
  let nwr := bits (w 0) 56 54
  let nca := bits (w 0) 53 52
  let head : Bool := bits (w 0) 63 60 != kind || 4 < nrd || 4 < nwr || (kind == 2 && nwr != 0) || 2 < nca ||
    bits (w 0) 51 48 != 0 || bits (w 0) 47 45 == 7 || bits (w 0) 44 16 != 0
  let region (o n : Nat) : List Nat := ((List.range (Nat.min n 4)).map (o + 8 + 16 * ·)).filter (fun a =>
    bits (w a) 63 48 != 0 || bits (w a) 47 0 == 0)
  let act (j : Nat) : List Nat :=
    let x := w (160 + 16 * j)
    let ck := bits x 63 62
    (if ck == 3 || bits x 59 52 != 0 || (ck == 1 && bits x 51 0 % 8 != 0) || (ck == 2 && bits x 51 16 != 0) then [160 + 16 * j] else []) ++
      (if ck != 1 && w (168 + 16 * j) != 0 then [168 + 16 * j] else [])
  (if head then [0] else []) ++ (if w 24 != 0 then [24] else []) ++ region 32 nrd ++ region 96 nwr ++
    (List.range (Nat.min nca 2)).flatMap act
/-- Words of a body that must be zero. -/
def cardZeros (c : List Byte) (o : Nat) : List Nat := ((List.range 8).map (192 + 8 * ·)).filter (fun a => o ≤ a && cardWord c a != 0)
/-- Regions of a card that are in use (13:R185). -/
def cardRegions (c : List Byte) (o n : Nat) : List (Nat × Nat) :=
  (List.range n).map (fun r => (cardWord c (o + 16 * r), bits (cardWord c (o + 8 + 16 * r)) 47 0))
def cardReads (c : List Byte) : List (Nat × Nat) := cardRegions c 32 (Nat.min (bits (cardWord c 0) 59 57) 4)
def cardWrites (c : List Byte) : List (Nat × Nat) := cardRegions c 96 (Nat.min (bits (cardWord c 0) 56 54) 4)
def cardGraph (c : List Byte) : Nat := bits (cardWord c 0) 15 0
def cardActs (c : List Byte) : List Action :=
  (List.range (Nat.min (bits (cardWord c 0) 53 52) 2)).map (fun j =>
    let x := cardWord c (160 + 16 * j)
    ⟨bits x 63 62, bits x 61 60, bits x 51 0, BitVec.ofNat 64 (cardWord c (168 + 16 * j))⟩)
/-- Every byte of a range lies in a region (13:R186 step 3). -/
def coveredFrom (rs : List (Nat × Nat)) : Nat → Nat → Nat → Bool
  | 0, lo, hi => hi ≤ lo
  | k + 1, lo, hi =>
    if hi ≤ lo then true
    else match rs.find? (fun r => r.1 ≤ lo && lo < r.1 + r.2) with
      | some r => coveredFrom rs k (r.1 + r.2) hi
      | none => false
def covered (rs : List (Nat × Nat)) (lo n : Nat) : Bool := coveredFrom rs rs.length (lo % 2 ^ 64) (lo % 2 ^ 64 + n)
def regionsMeet (x y : List (Nat × Nat)) : Bool := x.any (fun a => y.any (fun b => a.1 < b.1 + b.2 && b.1 < a.1 + a.2))

-- Accesses of engines -------------------------------------------------------------------------------------------------

/-- Accesses of a job: the tile's TLB, the mode and the domain of its submission (13:R186 step 4). -/
def JobEntry.acc (j : JobEntry) : Acc := ⟨j.tid, j.tile, j.dom, if j.priv = .h then 0 else j.dom, j.priv, 0, false, some j.who, false⟩
/-- The numbers under which the unacknowledged stores of a job and of a task node's actions are kept. -/
def jobTid (e jid : Nat) : Nat := 2 ^ 32 + e * 65536 + jid
def nodeTid (die id : Nat) : Nat := 2 ^ 40 + die * 65536 + id
/-- Stores of a job or a node to other packages that are not acknowledged (29:R324). -/
def State.jobPosted (s : State) (job : Nat) : Bool := s.pl.posted.any (·.tid == job)
/-- CODE for a failed access (13:R187). -/
def Trap.jobCode (t : Trap) : Nat :=
  match t.cause with
  | .xlate => if t.sub = 2 ∨ t.sub = 4 then 2 else if t.sub = 3 then 10 else 1
  | .domain => 3 | .cprot => 4 | .notile => 8 | .mcheck => 11 | _ => 1
/-- The answer to a read that a free choice stands for (log 12). -/
def replyOf (k : Nat) : Reply := match k % 5 with
  | 0 => .done | 1 => .domain | 2 => .pinned | 3 => .notile | _ => .lost
/-- One piece of an engine's read (03:R40, 17:R237-R239, 25:R298, R302); what another package
answers, and the bytes it sends, are free (log 12); an uncorrectable error that no group covers is its fault (21:R273). -/
def State.engPiece (s : State) (a : Acc) (p : Piece) : Except Trap (List Byte × State) :=
  let there (s : State) (bs : List Byte) : Except Trap (List Byte × State) :=
    if !s.badAt p.off p.n then .ok (bs, s)
    else match s.detect p.off with
      | (true, s) => .ok (bs, s)
      | (false, _) => .error ⟨.mcheck, 0, p.va⟩
  if p.pkg != s.me then
    if (s.pinOfFar p.pa).isSome then .error ⟨.cprot, 0, p.va⟩
    else if !s.pkgLive p.pkg then .error ⟨.notile, 0, p.va⟩
    else match replyTrap (replyOf (Config.remoteReply p.pa s.fresh)) p.va p.pa with
      | some t => .error t
      | none => .ok (s.farBytes p.pa p.n, ((s.askFar a.stamp p).flitsIn a.dom (dataFlits p.n)))
  else match regionOf p.off with
    | .dram =>
      match lineOf p.off with
      | none => .ok (List.replicate p.n 0, s)
      | some line =>
        if (s.pinOfHome line).any (!·.away) then .error ⟨.cprot, 0, p.va⟩
        else there (s.unitRead a.dom line) (s.homeBytes p.off p.n)
    | .tiles =>
      let (t, o) := p.slot
      if s.retired t then .error ⟨.notile, 0, p.va⟩
      else if Config.sramSize ≤ o || !s.bankScratch t (o / Config.bankSize) then .ok (List.replicate p.n 0, s)
      else if (s.pinOfSram t (o / 192)).isSome then .error ⟨.cprot, 0, p.va⟩
      else there s (s.read p.off p.n)
    | .mmio => .ok ((s.mmioRead (p.off - Config.mmioSpace) p.n).getD (s.farBytes p.pa p.n), s)
    | _ => .ok (s.read p.off p.n, s)
def State.engRead (s : State) (a : Acc) (va : Word) (n : Nat) : Except Trap (List Byte × State) :=
  match s.pieces a .read va n with
  | .error t => .error t
  | .ok (ps, s) => ps.foldl (fun (r : Except Trap (List Byte × State)) p => match r with
    | .error t => .error t
    | .ok (bs, s) => (s.engPiece a p).map (fun x => (bs ++ x.1, x.2))) (.ok ([], s))
/-- One piece of an engine's write, for the posted stores of `job`, a write of registers among them (03:R40, 13:R186, 19:R256, 21:R265,
R270, 29:R324). -/
def State.engStore (s : State) (a : Acc) (job : Nat) (p : Piece) (bs : List Byte) : Except Trap State :=
  if s.held a p then .ok (s.holdStore a p bs)
  else if p.pkg != s.me then
    if (s.pinOfFar p.pa).isSome then .error ⟨.cprot, 0, p.va⟩
    else if !s.pkgLive p.pkg then .error ⟨.notile, 0, p.va⟩
    else
      let (tag, s) := s.request a (.acc .write) p bs
      .ok (s.posts (.of tag job p.va p.pa (p.oc == 1) ((s.nodeOf a.dom).getD 0)))
  else match regionOf p.off with
    | .dram =>
      if ((lineOf p.off).bind s.pinOfHome).isSome then .error ⟨.cprot, 0, p.va⟩
      else .ok ((s.devStoreIn a.dom (s.storeRin a p) p.off bs).wakeLine (waitLine p.off))
    | .tiles =>
      let (t, o) := p.slot
      if s.retired t then .error ⟨.notile, 0, p.va⟩
      else if Config.sramSize ≤ o || !s.bankScratch t (o / Config.bankSize) then .ok s
      else if (s.pinOfSram t (o / 192)).isSome then .error ⟨.cprot, 0, p.va⟩
      else .ok ((s.write p.off bs).wakeLine (waitLine p.off))
    | .mmio =>
      let x : Posted := .of s.fresh job p.va p.pa false 0
      .ok ((((s.postWrite (p.off - Config.mmioSpace) bs (a.priv == .h)).plan [.event (.storeAck s.fresh .done)]).posts x).tick)
    | _ => .ok ((s.write p.off bs).wakeLine (waitLine p.off))
/-- Pieces of an engine's write in ascending order, to a fault or to a full larder: the bytes not written (21:R271, 25:R309). -/
def engPieces (a : Acc) (job : Nat) : List Piece → List Byte → State → State × Option Trap × List Byte
  | [], _, s => (s, none, [])
  | p :: ps, bs, s =>
    if !s.larderFits a [p] then (s, none, bs)
    else match s.engStore a job p (bs.take p.n) with
      | .ok s => engPieces a job ps (bs.drop p.n) s
      | .error t => (s, some t, bs)
/-- An engine's write: the bytes before a fault stay written; answers the fault, and the bytes that it or a full larder keeps from being
made. -/
def State.engWrite (s : State) (a : Acc) (job : Nat) (va : Word) (bs : List Byte) : State × Option Trap × List Byte :=
  match s.pieces a .write va bs.length with
  | .error t => (s, some t, bs)
  | .ok (ps, s) => engPieces a job ps bs s

-- Graphs --------------------------------------------------------------------------------------------------------------

/-- The die of an engine. -/
def engineDie (e : Nat) : Nat := if e < 192 then e / 48 else e - 192
/-- Submissions of a graph that have not completed: their keys and regions. Jobs are (engine, identifier), task nodes
(1000 + die, identifier). -/
def State.graphOf (s : State) (die g : Nat) : List ((Nat × Nat) × List (Nat × Nat) × List (Nat × Nat)) :=
  (s.eng.engines.flatMap (fun (e, x) => if engineDie e = die then
      (x.jobs.filter (fun j => j.graph == g && j.stage != 2)).map (fun j => ((e, j.jid), j.reads, j.writes)) else [])) ++
    (s.eng.tasks.filter (fun t => t.die == die && t.graph == g)).map (fun t => ((1000 + die, t.id), t.reads, t.writes))
/-- Edges of a new submission (13:R196). -/
def State.edges (s : State) (die g : Nat) (rd wr : List (Nat × Nat)) : List (Nat × Nat) :=
  if g = 0 then []
  else ((s.graphOf die g).filter (fun y => regionsMeet rd y.2.2 || regionsMeet wr y.2.1 || regionsMeet wr y.2.2)).map (·.1)
/-- The pantry of a die: 4,096 ready nodes, in the order in which they became ready; the others wait for room (13:R197). -/
def State.pantryOf (s : State) (die : Nat) : List (Nat × Nat) := (s.eng.pantry.filter (·.1 == die)).take 4096
def State.inPantry (s : State) (n : TaskNode) : Bool := (s.pantryOf n.die).contains (n.die, n.id)
/-- Nodes become ready, to enter the pantry in that order (13:R197; log 25). -/
def State.feedPantry (s : State) : State :=
  let ready := s.eng.tasks.filter (fun t => t.counter == 0 && t.preds.isEmpty && !t.started && !s.eng.pantry.contains (t.die, t.id))
  { s with eng := { s.eng with pantry := s.eng.pantry ++ ready.map (fun t => (t.die, t.id)) } }
/-- A submission has completed: edges from it go (13:R196). -/
def State.completeKey (s : State) (k : Nat × Nat) : State :=
  let cut (l : List (Nat × Nat)) : List (Nat × Nat) := l.filter (· != k)
  let engines := s.eng.engines.map (fun (p : Nat × Engine) =>
    (p.1, { p.2 with jobs := p.2.jobs.map (fun (j : JobEntry) => { j with preds := cut j.preds }) }))
  let tasks := s.eng.tasks.map (fun (t : TaskNode) => { t with preds := cut t.preds })
  State.feedPantry { s with eng := { s.eng with engines := engines, tasks := tasks } }
/-- Decrements a node's counter; answers whether the node is live (13:R186 step 5). -/
def State.decrement (s : State) (die id : Nat) : Bool × State :=
  let tasks := s.eng.tasks.map (fun (t : TaskNode) => if t.die == die && t.id == id then { t with counter := t.counter - 1 } else t)
  (s.eng.tasks.any (fun t => t.die == die && t.id == id), State.feedPantry { s with eng := { s.eng with tasks := tasks } })
/-- Completion actions in order, each once every earlier write is performed: the state, the actions left, CODE, and the fault that ended
them (13:R186 step 5, 19:R256). -/
def State.runActs (s : State) (a : Acc) (job : Nat) : List Action → Nat → State × List Action × Nat × Option Trap
  | [], c => (s, [], c, none)
  | x :: r, c =>
    if s.jobPosted job then (s, x :: r, c, none)
    else if x.ck = 1 then
      match s.engWrite a job (addr52 x.targ) (leBytes 8 x.value.toNat) with
      | (s, none, []) => s.runActs a job r c
      | (_, none, _) => (s, x :: r, c, none)
      | (s, some t, _) => (s, [], t.jobCode, some t)
    else if x.ck = 2 then
      let (live, s) := s.decrement x.die (x.targ % 65536)
      s.runActs a job r (if live then c else 9)
    else s.runActs a job r c
/-- The status word and FADDR of a card (13:R186 step 6). -/
def State.writeStatus (s : State) (a : Acc) (job : Nat) (card : Word) (st code fx id : Nat) (faddr : Word) :
    State × Option Trap × List Byte :=
  s.engWrite a job (card + 8) (leBytes 8 (pack [(st, 60), (code, 54), (fx, 48), (id, 0)]).toNat ++ leBytes 8 faddr.toNat)

-- Submission ----------------------------------------------------------------------------------------------------------

/-- The next job identifier of an engine, an unretired one skipped (01:R13). -/
def nextJid (jobs : List JobEntry) : Nat → Nat → Nat
  | k, 0 => k % 65536
  | k, n + 1 => if jobs.any (·.jid == k % 65536) then nextJid jobs (k + 1) n else k % 65536
/-- An engine accepts an entry; answers its identifier. Graph and regions are read with it (01:R13, 13:R196; log 25). -/
def State.accept (s : State) (e : Nat) (j : JobEntry) : Nat × State :=
  let c := match s.engRead j.acc j.card 256 with
    | .ok (c, _) => c
    | .error _ => []
  let j := if j.card.toNat % 256 ≠ 0 || !(cardBreaches (j.cls + 1 + (if j.win.isSome then 1 else 0)) c).isEmpty then j
    else { j with graph := cardGraph c, reads := cardReads c, writes := cardWrites c,
                  preds := s.edges (engineDie e) (cardGraph c) (cardReads c) (cardWrites c) }
  let x := s.engine e
  let id := nextJid x.jobs x.next 65536
  (id, s.setEngine e { x with jobs := x.jobs ++ [{ j with jid := id }], next := id + 1 })
/-- The handle of a job (13:R188). -/
def handleOf (e jid : Nat) : Word :=
  if e < 192 then pack [(e / 48, 22), (e / 3 % 16, 18), (e % 3, 16), (jid, 0)] else pack [(1, 24), (e - 192, 22), (jid, 0)]
/-- Distance of a tile after the one taken last, round-robin (01:R13, 13:R195). -/
def turnAfter (last tile : Nat) : Nat := (tile + 1536 - last - 1) % 1536
def nearest (last : Nat) : List JobEntry → Option JobEntry
  | [] => none
  | j :: r => match nearest last r with
    | some k => if turnAfter last k.tile < turnAfter last j.tile then some k else some j
    | none => some j
/-- A fill of a tile of the bay that comes before one of `tile` waits to be accepted (01:R13). -/
def State.outranked (s : State) (e tile : Nat) : Bool := match nearest (s.engine e).last (s.engine e).subs with
  | some j => turnAfter (s.engine e).last j.tile ≤ turnAfter (s.engine e).last tile
  | none => false
/-- JOB and COLL (13:R189, R195): class 0 or 2 to engine `e`. They wait for the thread's earlier accesses (19:R256) and for their turn at
the engine (01:R13). -/
def State.submitJob (s : State) (e cls q : Nat) (a b : Reg) : Done :=
  let t := s.th
  let card := t.gr b
  if card.toNat % 256 ≠ 0 then .trap ⟨.align, 0, card⟩
  else match s.pieces t.acc .read card 256 with
    | .error x => .trap x
    | .ok (_, s) =>
      if !s.mayRelease t then .hold 2 s
      else if s.engineFull e || s.outranked e t.tile then .hold 1 s
      else
        let s := if e < 192 then s.setEngine e { s.engine e with last := t.tile } else s
        let (id, s) := s.accept e
          { cls := cls, jid := 0, card := card, tid := t.tid, tile := t.tile, who := t.who, dom := t.dom, priv := t.priv,
            guard := t.noted (t.condTag q), win := none, graph := 0, reads := [], writes := [], preds := [], acts := [], orphan := false, early := false,
            stage := 0, todo := [], esz := 1, st := 0, code := 0, fx := 0, faddr := 0, rin := s.rinOf t.dom }
        .ok { s with th := (s.th.gw a (handleOf e id)).countEv 12 1 }
/-- JOB (13:R189). -/
def execJob (m : Mark) (q : BitVec 3) (a b : Reg) (s : State) : Host.Outcome State Fault Refusal :=
  s.issue (.job m q a b) (fun s => s.submitJob (copyEngine s.th.tile) 0 q.toNat a b)
/-- COLL (13:R195). -/
def execColl (m : Mark) (q : BitVec 3) (a b : Reg) (s : State) : Host.Outcome State Fault Refusal :=
  s.issue (.coll m q a b) (fun s => s.submitJob (192 + dieOf s.th.tile) 2 q.toNat a b)

-- Handles -------------------------------------------------------------------------------------------------------------

/-- JOBW (13:R191). -/
def execJobw (m : Mark) (a : Reg) (s : State) : Host.Outcome State Fault Refusal :=
  s.issue (.jobw m a) (fun s =>
    let t := s.th
    if (handleEngine (t.gr a)).isNone then .trap ⟨.illstate, 0, t.pc⟩
    else match s.job? (t.gr a) t.who with
      | none => s.passed
      | some (e, j) =>
        if j.stage != 2 then .wait .waiting s
        else if j.st = 4 then .trapWith ⟨.engine, j.code, j.card⟩ (s.dropJob e j.jid)
        else ((s.dropJob e j.jid).setfx j.fx).passed)
/-- JOBQ (13:R191): its value is that of the park. -/
def execJobq (m : Mark) (a b : Reg) (s : State) : Host.Outcome State Fault Refusal :=
  s.issue (.jobq m a b) (fun s =>
    let t := s.th
    if (handleEngine (t.gr b)).isNone || t.countsBy a then .trap ⟨.illstate, 0, t.pc⟩
    else .ok (s.await ⟨a, [], .jobState (t.gr b), none, 0⟩))
/-- JOBX (13:R191); an ended job is only retired (log 25). It holds while stores of the job are under way, after which one whose status is
written has ended, and while a full larder keeps its status from being written (21:R271). -/
def execJobx (m : Mark) (a : Reg) (s : State) : Host.Outcome State Fault Refusal :=
  s.issue (.jobx m a) (fun s =>
    let t := s.th
    if (handleEngine (t.gr a)).isNone then .trap ⟨.illstate, 0, t.pc⟩
    else match s.job? (t.gr a) t.who with
      | none => .ok s
      | some (e, j) =>
        if j.stage = 2 then .ok (s.dropJob e j.jid)
        else if s.jobPosted (jobTid e j.jid) then .hold 2 s
        else match s.writeStatus j.acc (jobTid e j.jid) j.card 6 0 0 j.jid 0 with
          | (_, none, _ :: _) => .hold 3 s
          | (s, _, _) => .ok (((s.dropJob e j.jid).completeKey (e, j.jid)).count (128 + e) j.dom 0 1))

-- Payloads ------------------------------------------------------------------------------------------------------------

/-- How a payload ends: CODE with FADDR, or the flags of a job that is done. -/
structure Ended where
  code : Nat
  faddr : Word
  fx : Flags

def endFault (t : Trap) : Ended := ⟨t.jobCode, t.tval, 0⟩
/-- Reads of rows in order. -/
def State.engRows (s : State) (a : Acc) (base str n : Nat) : Nat → Except Trap (List (List Byte) × State)
  | 0 => .ok ([], s)
  | k + 1 =>
    match s.engRows a base str n k with
    | .error t => .error t
    | .ok (rs, s) => (s.engRead a (BitVec.ofNat 64 (base + k * str)) n).map (fun x => (rs ++ [x.1], x.2))
/-- Writes of runs in order: the runs before a fault stay written; answers the fault, and the runs that it or a full larder leaves. -/
def State.engRuns (s : State) (a : Acc) (job : Nat) : List (Nat × List Byte) → State × Option Trap × List (Nat × List Byte)
  | [] => (s, none, [])
  | (va, bs) :: r =>
    match s.engWrite a job (BitVec.ofNat 64 va) bs with
    | (s, none, []) => s.engRuns a job r
    | (s, ft, left) => (s, ft, (va + (bs.length - left.length), left) :: r)
/-- What a payload's reads give: how it ends, or the runs it writes and the bytes of a unit that is counted. -/
abbrev Payload := State × Ended × List (Nat × List Byte) × Nat
def Payload.fault (s : State) (t : Trap) : Payload := (s, endFault t, [], 1)
/-- A copy (13:R190): its body, checks and reads. -/
def State.copyPayload (s : State) (j : JobEntry) (c : List Byte) : Payload :=
  let src := cardWord c 192
  let dst := cardWord c 200
  let rows := bits (cardWord c 208) 63 32
  let rowb := bits (cardWord c 208) 31 0
  let sstr := bits (cardWord c 216) 63 32
  let dstr := bits (cardWord c 216) 31 0
  let z := 2 ^ bits (cardWord c 224) 2 1
  let xp := bitOf (cardWord c 224) 0
  let n := rowb / z
  let bad := rows == 0 || rowb == 0 || bits (cardWord c 224) 63 3 != 0 || !(cardZeros c 232).isEmpty ||
    (if xp then dstr < rows * z || rowb % z != 0 else dstr < rowb)
  let srcEnd := src + (rows - 1) * sstr + rowb
  let dstEnd := dst + (n - 1) * dstr + rows * z
  let outR := (List.range rows).find? (fun r => !covered j.reads (src + r * sstr) rowb)
  let outW := if xp then (List.range n).find? (fun k => !covered j.writes (dst + k * dstr) (rows * z))
    else (List.range rows).find? (fun r => !covered j.writes (dst + r * dstr) rowb)
  if bad then (s, ⟨7, 0, 0⟩, [], 1)
  else if xp && src < dstEnd && dst < srcEnd then (s, ⟨6, 0, 0⟩, [], 1)
  else match outR, outW with
    | some r, _ => (s, ⟨5, BitVec.ofNat 64 (src + r * sstr), 0⟩, [], 1)
    | none, some k => (s, ⟨5, BitVec.ofNat 64 (dst + k * dstr), 0⟩, [], 1)
    | none, none =>
      match s.engRows j.acc src sstr rowb rows with
      | .error t => Payload.fault s t
      | .ok (rs, s) =>
        let runs := if xp then (List.range n).map (fun k => (dst + k * dstr, rs.flatMap (fun r => (r.drop (k * z)).take z)))
          else ((List.range rows).map (fun r => dst + r * dstr)).zip rs
        (s.charge j.dom 2 (runs.map (fun r => (r.2.length + 63) / 64)).sum, ⟨0, 0, 0⟩, runs, 1)

/-- One element of a collective over its source codes (13:R195). -/
def collElem (op et : Nat) (xs : List Nat) : Nat × Flags :=
  let sn (f : Fmt) : Flags := xs.foldl (fun g x => g ||| (f.val x).snanFlag) 0
  match tcOf et with
  | .inl (w, sg) =>
    if op = 0 then satint ((xs.map (readInt w sg)).sum) w sg
    else (xs.tail.foldl (fun m x => minmaxN w sg (op == 2) m x) (xs.headD 0), 0)
  | .inr f =>
    if op = 0 then
      let r := sumExact (xs.map f.val)
      let c := enc f r.1
      (c.1, r.2 ||| c.2 ||| sn f)
    else
      let v := xs.tail.foldl (fun m x => (fminmax (op == 2) m (f.val x)).1) (f.val (xs.headD 0))
      ((enc f v).1, sn f)
/-- A collective (13:R195): all sources are read before any destination is written. -/
def State.collPayload (s : State) (e : Nat) (j : JobEntry) (c : List Byte) : Payload :=
  let w0 := cardWord c 192
  let op := bits w0 63 56
  let et := bits w0 55 48
  let ns := bits w0 47 40
  let nd := bits w0 39 32
  let len := cardWord c 200
  let list := cardWord c 208
  let w := tcBytes et
  let bad := 3 < op || !([2, 3, 6, 7, 8, 9, 10].contains et) || ns == 0 || 8 < ns || nd == 0 || 8 < nd || bits w0 31 0 != 0 ||
    (op == 3 && ns != 1) || (op != 3 && nd != 1) || len == 0 || 2 ^ 32 < len || len % w != 0 || !(cardZeros c 216).isEmpty
  if bad then (s, ⟨7, 0, 0⟩, [], 1)
  else if !covered j.reads list (8 * (ns + nd)) then (s, ⟨5, BitVec.ofNat 64 list, 0⟩, [], 1)
  else match s.engRead j.acc (BitVec.ofNat 64 list) (8 * (ns + nd)) with
    | .error t => Payload.fault s t
    | .ok (l, s) =>
      let srcs := (List.range ns).map (wordAt l)
      let dsts := (List.range nd).map (fun k => wordAt l (ns + k))
      match srcs.find? (fun x => !covered j.reads x len), dsts.find? (fun x => !covered j.writes x len) with
      | some x, _ => (s, ⟨5, BitVec.ofNat 64 x, 0⟩, [], 1)
      | none, some x => (s, ⟨5, BitVec.ofNat 64 x, 0⟩, [], 1)
      | none, none =>
        let rd := srcs.foldl (fun (r : Except Trap (List (List Byte) × State)) x => match r with
          | .error t => .error t
          | .ok (bs, s) => (s.engRead j.acc (BitVec.ofNat 64 x) len).map (fun y => (bs ++ [y.1], y.2))) (.ok ([], s))
        match rd with
        | .error t => Payload.fault s t
        | .ok (bs, s) =>
          let out := if op = 3 then (bs.headD [], (0 : Flags)) else
            let r := lanes w (len / w) (fun e => collElem op et (bs.map (fun b => lane b w e)))
            (r.1.take len, r.2)
          (s.count (128 + e) j.dom 2 (ns * len), ⟨0, 0, out.2⟩, dsts.map (fun x => (x, out.1)), w)

-- Engine steps --------------------------------------------------------------------------------------------------------

/-- The value of a job's condition guard (13:R189). -/
def State.jobGuard (s : State) (j : JobEntry) : Guard :=
  if j.guard = 0 then .tru
  else if j.guard = 8 then .fls
  else match s.thread? j.tid with
    | some t => t.cond j.guard
    | none => .fls
/-- Entries that may start, in acceptance order (01:R13, 13:R189): `seen` are the threads with an entry that has not and holds their
later ones. An entry held by graph edges waits aside. -/
def State.startable (s : State) : List JobEntry → List (Nat × Word) → List JobEntry
  | [], _ => []
  | j :: r, seen =>
    if j.stage != 0 then s.startable r seen
    else if seen.contains j.who then s.startable r seen
    else if s.jobGuard j == .pend then s.startable r (j.who :: seen)
    else if !j.preds.isEmpty then s.startable r seen
    else j :: s.startable r (j.who :: seen)
/-- An entry is not started: a budget of its function that its accesses count against is spent, or a seal of its partition is in progress (21:R267, 23:R289). -/
def State.jobWaits (s : State) (e : Nat) (j : JobEntry) : Bool :=
  (e < 192 && s.spent j.dom 2) || s.spent j.dom 0 || s.spent j.dom 1 || s.spent j.dom 3 || (match s.nodeOf j.dom with | some n => (s.rgs n).sealing || (s.rgs n).roll.isSome | none => false)
/-- The entry an engine starts next. -/
def State.nextStart (s : State) (e : Nat) : Option JobEntry :=
  let js := (s.startable (s.engine e).jobs []).filter (fun j => !s.jobWaits e j)
  if e < 192 then js.head? else nearest (s.engine e).last js
def State.setJob (s : State) (e : Nat) (j : JobEntry) : State :=
  let x := s.engine e
  s.setEngine e { x with jobs := x.jobs.map (fun k => if k.jid = j.jid then j else k) }
/-- The oldest submission waiting for a copy engine, round-robin over tiles, is accepted (01:R13). -/
def State.acceptSub (s : State) (e : Nat) : Option State :=
  let x := s.engine e
  if queueSize e ≤ s.engineUsed e then none
  else match nearest x.last x.subs with
    | none => none
    | some j => some ((s.setEngine e { x with subs := x.subs.erase j, last := j.tile }).accept e j).2
/-- COPY_ENGINE_ACCEPT (01:R13). -/
def execCopyEngineAccept (eng : Nat) (s : State) : Host.Outcome State Fault Refusal := unitStep s (s.acceptSub eng)

end Sys2Proof.Machine
end

