-- ==== Sys2Proof/Machine/Fills.lean ====
section
/-! DEFINITION. Region windows and their fills, and the steps by which engines run jobs (13:R186, R192-R194, 17:R242-R245). -/

namespace Sys2Proof.Machine
open Sys2Proof

-- Layouts -------------------------------------------------------------------------------------------------------------

/-- Byte offsets of the layout-record words that break the map of R243. -/
def layoutBreaches (l : List Byte) : List Nat :=
  let w := cardWord l
  let nd := bits (w 8) 11 9
  let fmt := bits (w 8) 5 0
  let pl := bitOf (w 8) 6
  let head : Bool := bits (w 8) 63 12 != 0 || nd == 0 || 5 < nd || (mfcUpTo 0x2F fmt).isNone ||
    (pl && (nd != 2 || bits (w 16) 31 16 != 32))
  let dim (j : Nat) : Bool := bits (w (16 + 16 * j)) 63 32 == 0 || bits (w (16 + 16 * j)) 31 16 == 0 || bits (w (16 + 16 * j)) 15 0 != 0
  (if head then [8] else []) ++ (((List.range (Nat.min nd 5)).filter dim).map (16 + 16 * ·)) ++
    (([96, 104, 112, 120] : List Nat).filter (fun o => w o != 0))
def layoutDims (l : List Byte) : List Dim :=
  (List.range (bits (cardWord l 8) 11 9)).map (fun j =>
    let a := cardWord l (16 + 16 * j)
    let b := cardWord l (24 + 16 * j)
    ⟨bits a 63 32, bits a 31 16, sInt 32 (bits b 63 32), sInt 32 (bits b 31 0)⟩)
/-- Coordinate folding (17:R244). -/
def foldCoord (x : Int) (n : Nat) (edge : Bool) : Int :=
  if n = 1 then 0
  else
    let p : Int := if edge then 2 * n else 2 * n - 2
    let m := x % p
    if m < n then m else if edge then 2 * n - 1 - m else p - m
/-- Address of the element at a box coordinate, given from dimension 0 on (17:R244). -/
def elementAt (base : Word) (edge : Bool) : List Dim → List Nat → Word
  | d :: ds, c :: cs => elementAt (base + BitVec.ofInt 64 (foldCoord (d.org + c) d.n edge * d.stride)) edge ds cs
  | _, _ => base
/-- Box coordinates in window order, dimension 0 fastest. -/
def boxCoords : List Dim → List (List Nat)
  | [] => [[]]
  | d :: ds => (boxCoords ds).flatMap (fun cs => (List.range d.box).map (· :: cs))
/-- Bytes of one element of a window, and of its whole box (17:R244). -/
def Win.elemBytes (x : Win) : Nat := ((mfc x.fmt).map Mfc.bytes).getD 1
def Win.boxBytes (x : Win) : Nat :=
  if x.plane then ((x.dims.map (·.box)).getD 1 0) * groupSize x.fmt else x.elemBytes * (x.dims.map (·.box)).prod

-- WBIND, WDROP, WSTAT -------------------------------------------------------------------------------------------------

/-- Byte offsets of the words of a window card's body that break R192. -/
def windowBreaches (c : List Byte) : List Nat :=
  let w := cardWord c 200
  (if cardWord c 192 % 64 ≠ 0 then [192] else []) ++
    (if bits w 63 29 != 0 || bits w 15 14 != 0 || bits w 13 0 == 0 || 8192 < bits w 28 16 + bits w 13 0 then [200] else []) ++
    (if bits (cardWord c 208) 63 1 != 0 then [208] else []) ++ cardZeros c 216
/-- A window as a layout record describes it, over given SRAM lines, absent (13:R193): no fill of this binding has ended, so its CODE is 0
(13:R194; DESIGN CHOICE, log 88). -/
def windowOf (card : Word) (l : List Byte) (sline nline fn : Nat) (priv : Priv) : Win :=
  let w := cardWord l 8
  { state := 0, code := 0, faddr := 0, card := card, base := BitVec.ofNat 64 (cardWord l 0), fmt := bits w 5 0, plane := bitOf w 6,
    scf := bitOf w 8, edge := bitOf w 7, dims := layoutDims l, bg := false, sline := sline, nline := nline, fn := fn, priv := priv, drop := false }
/-- A window does not fit its lines, or its lines overlap another bound window of the tile (17:R244). -/
def Tile.windowBad (t : Tile) (w : Nat) (x : Win) : Bool :=
  x.nline * 192 < x.boxBytes || t.wins.any (fun p => p.1 != w && p.2.sline < x.sline + x.nline && x.sline < p.2.sline + p.2.nline)
/-- The lowest SRAM offset of a window's lines in a bank not granted to a domain (13:R193). -/
def State.windowBank (s : State) (tile dom : Nat) (x : Win) : Option Nat :=
  ((banksOf (x.sline * 192) (x.nline * 192)).find? (fun b => !s.bankGranted tile dom b)).map (fun b => Nat.max (x.sline * 192) (b * Config.bankSize))
/-- WBIND (13:R193). -/
def execWbind (m : Mark) (a b : Reg) (s : State) : Host.Outcome State Fault Refusal :=
  s.issue (.wbind m a b) (fun s =>
    let t := s.th
    let w := (t.gr a).toNat
    let card := t.gr b
    let ill (at_ : Word) : Done := .trap ⟨.illstate, 0, if 32 ≤ w then t.pc else at_⟩
    if card.toNat % 256 ≠ 0 then .trap ⟨.align, 0, card⟩
    else (s.ldHeld t.acc .read card 256).andThen (fun c s =>
      match cardBreaches 2 c ++ windowBreaches c with
      | o :: _ => ill (card + BitVec.ofNat 64 o)
      | [] =>
        let lay := BitVec.ofNat 64 (cardWord c 192)
        (s.ldHeld t.acc .read lay 128).andThen (fun l s =>
          let x := windowOf card l (bits (cardWord c 200) 28 16) (bits (cardWord c 200) 13 0) t.fn t.priv
          match layoutBreaches l, s.windowBank t.tile t.dom x with
          | _, some o => .trap ⟨.domain, 0, BitVec.ofNat 64 o⟩
          | o :: _, none => ill (lay + BitVec.ofNat 64 o)
          | [], none =>
            if 32 ≤ w || (s.tile t.tile).windowBad w x then ill (card + 200)
            else if ((s.tile t.tile).win? w).any (·.state == 1) then .trap ⟨.illstate, 0, t.pc⟩
            else if bitOf (cardWord c 208) 0 then
              (if !s.mayRelease t || s.engineFull (copyEngine t.tile) then .hold 2 s else .ok (s.startFill t.tile w x t false))
            else .ok (s.setTile t.tile ((s.tile t.tile).setWin w x)))))
/-- Unbinds a window (13:R194). -/
def State.dropWindow (s : State) (tile w : Nat) : State :=
  let t := s.tile tile
  s.setTile tile { t with wins := delKey t.wins w }
/-- WDROP (13:R194). -/
def execWdrop (m : Mark) (a : Reg) (s : State) : Host.Outcome State Fault Refusal :=
  s.issue (.wdrop m a) (fun s =>
    let t := s.th
    let w := (t.gr a).toNat
    if 32 ≤ w then .trap ⟨.illstate, 0, t.pc⟩
    else match (s.tile t.tile).win? w with
      | none => .ok s
      | some x =>
        if x.state = 1 then .hold 2 (s.setTile t.tile ((s.tile t.tile).setWin w { x with drop := true }))
        else .ok (s.dropWindow t.tile w))
/-- WSTAT (13:R194): its value is that of the park (03:R34). -/
def execWstat (m : Mark) (a b : Reg) (s : State) : Host.Outcome State Fault Refusal :=
  s.issue (.wstat m a b) (fun s =>
    if s.th.countsBy a then .trap ⟨.illstate, 0, s.th.pc⟩
    else .ok (s.await ⟨a, [], .winState (bits (s.th.gr b).toNat 4 0), none, 0⟩))

/-- HSCHED (07:R80, R83): it changes timing only, and PREFW may start a window's fill early. -/
def execHsched (v : Bool) (a : Reg) (k : BitVec 3) (s : State) : Host.Outcome State Fault Refusal :=
  s.issueHint (.hsched v a k) (fun s => if k = 4 then s.prefetch a.toNat else s)

-- Fills ---------------------------------------------------------------------------------------------------------------

/-- Element codes of a fill read in order, one element of `n` bytes each (17:R244). -/
def State.fillReads (s : State) (a : Acc) (n : Nat) : List Word → Except Trap (List (List Byte) × State)
  | [] => .ok ([], s)
  | va :: r =>
    match s.engRead a va n with
    | .error t => .error t
    | .ok (bs, s) => (s.fillReads a n r).map (fun x => (bs :: x.1, x.2))
/-- The bytes of a window's lines from its element codes (17:R244, 11:R150). -/
def Win.fillBytes (x : Win) (codes : List (List Byte)) : List Byte :=
  if x.plane then
    match mfc x.fmt with
    | some f => (List.range (x.boxBytes / groupSize x.fmt)).flatMap (fun g =>
        planeGroup f ((List.range 32).map (fun e => leNat (codes.getD (32 * g + e) []))))
    | none => []
  else codes.flatten
/-- The thread that issued a job belongs to the member gang signed on its tile (17:R245). -/
def State.jobInsider (s : State) (j : JobEntry) : Bool := s.threads.any (fun t => t.who == j.who && t.tile == j.tile && s.insider t)
/-- 64-byte units, or parts, that a fill writes, row by row; a plane group is a row (23:R289). -/
def Win.fillUnits (x : Win) : Nat :=
  if x.plane then x.boxBytes / groupSize x.fmt * ((groupSize x.fmt + 63) / 64)
  else ((x.dims.map (·.box)).tail).prod * ((x.elemBytes * (x.dims.map (·.box)).headD 1 + 63) / 64)
/-- A window fill (13:R193, 17:R244-R245, 05:R68): its geometry is that of the page of BASE. It writes lines pinned for a compact for a
thread of the member gang alone; for another they are refused to the engine as PINNED (03:R40; log 62). -/
def State.fillPayload (s : State) (j : JobEntry) (w : Nat) : State × Ended :=
  match (s.tile j.tile).win? w with
  | none => (s, ⟨0, 0, 0⟩)
  | some x =>
    let n := x.elemBytes
    let addrs := (boxCoords x.dims).map (elementAt x.base x.edge x.dims)
    let out := if x.card.toNat % 256 ≠ 0 then none else addrs.find? (fun va => !covered j.reads va.toNat n)
    let pinned := (List.range x.nline).any (fun k => (s.pinOfSram j.tile (x.sline + k)).isSome)
    match out, s.translate j.tile j.acc.fn j.priv .read x.base with
    | some va, _ => (s, ⟨5, va, 0⟩)
    | none, .error c => (s, endFault ⟨.xlate, c, x.base⟩)
    | none, .ok (_, leaf, s) =>
      match (s.charge j.dom 2 x.fillUnits).fillReads j.acc n addrs with
      | .error t => (s, endFault t)
      | .ok (codes, s) =>
        if pinned && !s.jobInsider j then (s, endFault ⟨.cprot, 0, BitVec.ofNat 64 (sramAddr j.tile (x.sline * 192))⟩)
        else
          let s := s.setTile j.tile ((s.tile j.tile).setWin w { x with bg := leafBg leaf == 1 })
          ((s.tileStore j.tile (x.sline * 192) (x.fillBytes codes)).count (128 + copyEngine j.tile) j.dom 1 x.boxBytes, ⟨0, 0, 0⟩)

-- Running jobs --------------------------------------------------------------------------------------------------------

def runBytes (rs : List (Nat × List Byte)) : Nat := (rs.map (·.2.length)).sum
/-- A started job writes what it can of its payload (13:R186 step 4, 21:R271, 25:R309). -/
def State.pump (s : State) (e : Nat) (j : JobEntry) : State :=
  let (s, fault, left) := s.engRuns j.acc (jobTid e j.jid) j.todo
  let s := s.count (128 + e) j.dom 1 ((runBytes j.todo - runBytes left) / j.esz)
  s.setJob e (match fault with
    | some t => { j with todo := [], st := 4, code := t.jobCode, faddr := t.tval }
    | none => { j with todo := left })
/-- The engine starts an entry: its card, validation, footprint and payload (13:R186 steps 1-4, R189). -/
def State.startJob (s : State) (e : Nat) (j : JobEntry) : State :=
  let s := s.setEngine e { s.engine e with last := if e < 192 then (s.engine e).last else j.tile }
  let ends (s : State) (j : JobEntry) (r : Ended) : State :=
    s.setJob e { j with stage := 1, st := if r.code = 0 then 3 else 4, code := r.code, faddr := r.faddr, fx := r.fx }
  if s.jobGuard j == .fls then s.setJob e { j with stage := 1, st := 5, acts := [] }
  else match j.win with
    | some w =>
      if j.card.toNat % 256 ≠ 0 then
        let r := s.fillPayload j w
        ends r.1 j r.2
      else match s.engRead j.acc j.card 256 with
        | .error t => ends s j (endFault t)
        | .ok (c, s) =>
          let j := { j with reads := cardReads c, acts := cardActs c }
          if !(cardBreaches 2 c).isEmpty then ends s j ⟨7, 0, 0⟩
          else
            let r := s.fillPayload j w
            ends r.1 j r.2
    | none =>
      match s.engRead j.acc j.card 256 with
      | .error t => ends s j (endFault t)
      | .ok (c, s) =>
        let j := { j with reads := cardReads c, writes := cardWrites c, acts := cardActs c }
        if !(cardBreaches (j.cls + 1) c).isEmpty then ends s j ⟨7, 0, 0⟩
        else
          let (s, r, runs, w) := if j.cls = 0 then s.copyPayload j c else s.collPayload e j c
          let j : JobEntry := { j with stage := 1, todo := runs, esz := w, st := if r.code = 0 then 3 else 4, code := r.code, faddr := r.faddr, fx := r.fx }
          (s.setJob e j).pump e j
/-- The next entry of an engine starts (13:R186). -/
def State.jobStart (s : State) (e : Nat) : Option State := (s.nextStart e).map (s.startJob e)
/-- JOB_START (13:R186). -/
def execJobStart (eng : Nat) (s : State) : Host.Outcome State Fault Refusal := unitStep s (s.jobStart eng)

/-- A job has ended: it completes its graph's edges, and retires or waits to be reported (13:R189, R191, R196). -/
def State.jobOver (s : State) (e : Nat) (j : JobEntry) : State :=
  let s := ((s.setJob e { j with stage := 2 }).completeKey (e, j.jid)).count (128 + e) j.dom (if j.win.isSome then 2 else 0) 1
  if j.win.isNone && (j.orphan || (j.st != 4 && (j.st != 3 || j.fx.toNat == 0))) then s.dropJob e j.jid else s
/-- The status of a job whose actions are over; it ends once that is written and acknowledged (13:R186 step 6). -/
def State.jobStatus (s : State) (e : Nat) (j : JobEntry) : Option State :=
  if j.card.toNat % 256 ≠ 0 || (j.early && j.st == 4) then some (s.jobOver e j)
  else match s.writeStatus j.acc (jobTid e j.jid) j.card j.st j.code j.fx.toNat j.jid j.faddr with
    | (s, some t, _) => some (s.jobOver e { j with st := 4, code := t.jobCode, faddr := j.card + 8 })
    | (s, none, []) => some (if s.jobPosted (jobTid e j.jid) then s.setJob e { j with stage := 3 } else s.jobOver e j)
    | (_, none, _) => none
/-- A started job goes on: the rest of its payload, its actions, its status, its retirement (13:R186 steps 4-6, R189); none while nothing of
it can be done, for a full larder or an acknowledgement that has not come. -/
def State.endJob (s : State) (e : Nat) (j : JobEntry) : Option State :=
  if s.jobPosted (jobTid e j.jid) then none
  else if j.stage = 3 then some (s.jobOver e j)
  else if !j.todo.isEmpty then
    let s' := s.pump e j
    if ((s'.engine e).jobs.find? (·.jid == j.jid)).map (fun k => runBytes k.todo) = some (runBytes j.todo) then none else some s'
  else if j.st != 3 then s.jobStatus e { j with acts := [] }
  else
    let r := s.runActs j.acc (jobTid e j.jid) j.acts j.code
    match r with
    | (s', [], code, some t) => s'.jobStatus e { j with acts := [], st := 4, code := code, faddr := t.tval }
    | (s', [], code, none) =>
      if s'.jobPosted (jobTid e j.jid) then some (s'.setJob e { j with acts := [], code := code })
      else match s'.jobStatus e { j with acts := [], code := code } with
        | some s => some s
        | none => if j.acts.isEmpty then none else some (s'.setJob e { j with acts := [], code := code })
    | (s', left, code, _) => if left.length = j.acts.length then none else some (s'.setJob e { j with acts := left, code := code })
/-- The started entries of an engine complete in any order; the model takes the first accepted of those that can go on (DESIGN CHOICE,
01:R13, log 63). -/
def State.completeJob (s : State) (e : Nat) : Option State :=
  ((s.engine e).jobs.filter (fun j => j.stage == 1 || j.stage == 3)).findSome? (s.endJob e)
/-- COMPLETION_ACTION (13:R186). -/
def execCompletionAction (eng : Nat) (s : State) : Host.Outcome State Fault Refusal := unitStep s (s.completeJob eng)
/-- A fill that has ended makes its window present or failed, or drops it (13:R193-R194); an early one that failed
leaves it absent (07:R83). -/
def State.fillEnd (s : State) (tile w : Nat) : Option State :=
  let e := copyEngine tile
  match (s.engine e).jobs.find? (fun j => j.win == some w && j.tile == tile && j.stage == 2) with
  | none => none
  | some j =>
    let s := s.dropJob e j.jid
    match (s.tile tile).win? w with
    | none => some s
    | some x =>
      if x.drop then some (s.dropWindow tile w)
      else if j.early && j.st == 4 then some (s.setTile tile ((s.tile tile).setWin w { x with state := 0 }))
      else some (s.setTile tile ((s.tile tile).setWin w
        { x with state := if j.st = 3 then 2 else 3, code := j.code, faddr := j.faddr }))
/-- WINDOW_FILL_END (13:R193). -/
def execWindowFillEnd (tile win : Nat) (s : State) : Host.Outcome State Fault Refusal := unitStep s (s.fillEnd tile win)

end Sys2Proof.Machine
end

