-- ==== Sys2Proof/Machine/Launch.lean ====
section
/-! DEFINITION. Kernel headers, task nodes, the filling of thread slots and time slices (03:R28, 07:R95-R97, 13:R196-R198,
17:R242, 23:R283, R286-R287, R290). -/

namespace Sys2Proof.Machine
open Sys2Proof

-- Kernel headers ------------------------------------------------------------------------------------------------------

/-- Launch errors of a header: the error with the offset of the word that fails (07:R95-R96, 23:R285). -/
def headerErrors (h : List Byte) : List (Nat × Nat) :=
  let w := cardWord h
  let regs := bits (w 16) 31 0
  let gran := if regs = 0 then 1 else (regs + 1023) / 1024
  let v (o : Nat) : Word := BitVec.ofNat 64 (w o)
  ([(0, bits (w 0) 63 32 == 0x434C5846 && bits (w 0) 31 16 == 0 && bits (w 0) 15 0 == 1), (8, w 8 % 4 == 0), (16, bits (w 16) 63 32 == 0),
    (56, bits (w 56) 63 16 == 0 && bits (w 56) 15 8 ≤ 32 && bits (w 56) 7 2 == 0 && bits (w 56) 1 0 ≤ 1)].filter (fun p => !p.2)).map
      (fun p => (1, p.1)) ++
    (if 64 < gran then [(2, 16)] else
      ([(24, vvOk (v 24) gran), (32, vaOk (v 32) gran), (40, vxOk (v 40) gran)].filter (fun p => !p.2)).map (fun p => (3, p.1)))
/-- What a header without error gives a thread (07:R96-R97). -/
def kernOf (at_ : Word) (h : List Byte) : Kern :=
  let w := cardWord h
  let regs := bits (w 16) 31 0
  let v (o : Nat) : Word := BitVec.ofNat 64 (w o)
  { pc := at_ + v 8, gran := if regs = 0 then 1 else (regs + 1023) / 1024, vv := v 24, va := v 32, vx := v 40,
    priv := if bits (w 56) 1 0 = 0 then .u else .s, wtab := v 48, nwin := bits (w 56) 15 8 }
/-- A thread in the state of R97, as its record and save area describe it. -/
def Kern.thread (k : Kern) (dom : Nat) (recA save g1 g2 : Word) (kind tdie tnode pri : Nat) : Thread :=
  { Thread.empty with
    info := { RecInfo.zero with addr := recA, save := save, kind := kind, tdie := tdie, tnode := tnode, pri := pri }
    dom := dom, priv := k.priv, gran := k.gran, pc := k.pc, vv := k.vv, va := k.va, vx := k.vx
    regs := ((Vector.replicate 32 (0 : Word)).set 1 g1).set 2 g2 }
/-- Writes a new thread's save area and record, RUNNABLE (23:R283, 13:R197), or says why one of them cannot be written. -/
def State.writeThread (s : State) (t : Thread) : Except Trap State :=
  match s.sysWrite t.dom t.info.save (t.image ++ t.block) with
  | .error x => .error x
  | .ok s => s.sysWrite t.dom t.info.addr (t.record 1)

/-- Clusters, dies and tiles of a partition (01:R21). -/
def nodeTile (n tile : Nat) : Bool := nodeCovers n (tile / 24)
def nodeDies (n : Nat) : List Nat := (List.range 4).filter (fun d => (List.range 16).any (fun c => nodeCovers n (16 * d + c)))
/-- Tiles of a partition on which a function has a domain partition register. -/
def State.tilesOf (s : State) (n f : Nat) : List Nat :=
  ((s.tiles.map (·.1)).filter (fun i => nodeTile n i && !s.retired i && ((s.tile i).dp? f).isSome))
/-- Binds one entry of a binding table on a tile; none where WBIND would refuse it (17:R242). -/
def State.bindOn (s : State) (f w : Nat) (x : Win) (tile : Nat) : Option State :=
  let t := s.tile tile
  if (s.windowBank tile f x).isSome || t.windowBad w x || (t.win? w).any (·.state == 1) then none
  else some (s.setTile tile (t.setWin w x))
/-- Binds the table of a header on tiles for a launching function (17:R242; log 26). -/
def State.bindTable (s : State) (f : Nat) (k : Kern) (tiles : List Nat) : Option State :=
  let a : Acc := ⟨16 * noTile, noTile, f, f, k.priv, 0, false, none, false⟩
  let entry (s : State) (i : Nat) : Option State :=
    match s.engRead a (k.wtab + BitVec.ofNat 64 (32 * i)) 32 with
    | .error _ => none
    | .ok (e, s) =>
      let w := cardWord e
      if w 0 % 64 != 0 || bits (w 8) 63 29 != 0 || bits (w 8) 15 14 != 0 || bits (w 8) 13 0 == 0 || 8192 < bits (w 8) 28 16 + bits (w 8) 13 0 ||
         bits (w 16) 63 5 != 0 || w 24 != 0 then none
      else match s.engRead a (BitVec.ofNat 64 (w 0)) 128 with
        | .error _ => none
        | .ok (l, s) =>
          if !(layoutBreaches l).isEmpty then none
          else
            let x := windowOf 1 l (bits (w 8) 28 16) (bits (w 8) 13 0) f k.priv
            tiles.foldl (fun s t => s.bind (fun s => s.bindOn f (bits (w 16) 4 0) x t)) (some s)
  if k.wtab = 0 then some s else (List.range k.nwin).foldl (fun s i => s.bind (fun s => entry s i)) (some s)

-- Tasks ---------------------------------------------------------------------------------------------------------------

/-- Byte offsets of the words of a task card's body that break R196. -/
def taskBreaches (c : List Byte) : List Nat :=
  let w := cardWord c
  (if w 192 % 64 != 0 then [192] else []) ++ (if w 208 % 64 != 0 then [208] else []) ++ (if w 216 % 1024 != 0 then [216] else []) ++
    (if bits (w 224) 63 48 != 0 || bits (w 224) 39 37 != 0 || bits (w 224) 24 2 != 0 then [224] else []) ++ cardZeros c 232
/-- The node that a checked card describes (13:R196). -/
def State.nodeFor (s : State) (t : Thread) (id : Nat) (card : Word) (c : List Byte) (k : Kern) : TaskNode :=
  let w := cardWord c
  let die := dieOf t.tile
  { die := die, id := id, card := card, dom := t.dom, priv := t.priv, counter := bits (w 224) 47 40,
    preds := s.edges die (cardGraph c) (cardReads c) (cardWrites c), started := false, graph := cardGraph c,
    reads := cardReads c, writes := cardWrites c, acts := cardActs c, kern := k, arg := BitVec.ofNat 64 (w 200),
    recA := BitVec.ofNat 64 (w 208), save := BitVec.ofNat 64 (w 216),
    aff := if bitOf (w 224) 36 then coordIdx (bits (w 224) 35 25) else none, pri := bits (w 224) 1 0, stage := 0, code := 0, fail := none }
/-- TASK (13:R197), after the thread's earlier accesses (19:R256). The least free identifier is given (log 25). -/
def execTask (m : Mark) (a b : Reg) (s : State) : Host.Outcome State Fault Refusal :=
  s.issue (.task m a b) (fun s =>
    let t := s.th
    let card := t.gr b
    if card.toNat % 256 ≠ 0 then .trap ⟨.align, 0, card⟩
    else (s.ldHeld t.acc .read card 256).andThen (fun c s =>
      match cardBreaches 4 c ++ taskBreaches c with
      | o :: _ => .trap ⟨.illstate, 0, card + BitVec.ofNat 64 o⟩
      | [] =>
        let kh := BitVec.ofNat 64 (cardWord c 192)
        (s.ldHeld t.acc .read kh 64).andThen (fun h s =>
          match headerErrors h with
          | (_, o) :: _ => .trap ⟨.illstate, 0, kh + BitVec.ofNat 64 o⟩
          | [] =>
            let k := kernOf kh h
            if privRank t.priv < privRank k.priv then .trap ⟨.illstate, 0, kh + 56⟩
            else
              let live := (s.eng.tasks.filter (fun n => n.die == dieOf t.tile)).map (·.id)
              if !s.mayRelease t then .hold 2 s
              else match (List.range (live.length + 1)).find? (fun i => i < 65536 && !live.contains i) with
              | none => .hold 2 s
              | some id =>
                let s := State.feedPantry { s with eng := { s.eng with tasks := s.eng.tasks ++ [s.nodeFor t id card c k] } }
                .ok { s with th := (s.th.gw a (BitVec.ofNat 64 id)).countEv 12 1 })))
/-- Accesses of a node's completion, by the thread that completes it. -/
def TaskNode.acc (n : TaskNode) (t : Thread) : Acc :=
  ⟨t.tid, t.tile, n.dom, if n.priv = .h then 0 else n.dom, n.priv, 0, false, some t.who, false⟩
def State.setNode (s : State) (n : TaskNode) : State :=
  { s with eng := { s.eng with tasks := s.eng.tasks.map (fun (x : TaskNode) => if x.die = n.die && x.id = n.id then n else x) } }
/-- A node is complete: its identifier is free, its successors are released (13:R198 step 4). -/
def State.nodeOver (s : State) (n : TaskNode) : State :=
  let tasks := s.eng.tasks.filter (fun (x : TaskNode) => !(x.die == n.die && x.id == n.id))
  let s := State.completeKey { s with eng := { s.eng with tasks := tasks } } (1000 + n.die, n.id)
  { s with th := { s.th with flow := { s.th.flow with tdone := true } } }
/-- The status of a node whose actions are over (13:R198 step 3). -/
def State.nodeStatus (s : State) (n : TaskNode) (st code : Nat) (faddr : Word) : Done :=
  match s.writeStatus (n.acc s.th) (nodeTid n.die n.id) n.card st code 0 n.id faddr with
  | (s, some _, _) => .ok (s.nodeOver n)
  | (s, none, []) =>
    if s.jobPosted (nodeTid n.die n.id) then .hold 2 (s.setNode { n with acts := [], code := code, stage := 2 }) else .ok (s.nodeOver n)
  | (_, none, _) => .hold 3 (s.setNode { n with acts := [], code := code, stage := 1 })
/-- TDONE's steps: each action once the writes before it are performed, then the status (13:R186, R198, 19:R256). -/
def State.nodeDone (s : State) (n : TaskNode) : Done :=
  let job := nodeTid n.die n.id
  if s.jobPosted job then .hold 2 s
  else if n.stage = 2 then .ok (s.nodeOver n)
  else match n.fail with
    | some x => s.nodeStatus n 4 x.jobCode x.tval
    | none => match s.runActs (n.acc s.th) job n.acts n.code with
      | (s, [], c, some x) => s.nodeStatus n 4 c x.tval
      | (s, [], c, none) =>
        if s.jobPosted job then .hold 2 (s.setNode { n with acts := [], code := c, stage := 1 }) else s.nodeStatus n 3 c 0
      | (s, left, c, _) => .hold (if s.jobPosted job then 2 else 3) (s.setNode { n with acts := left, code := c, stage := 1 })
/-- The node of a task thread. -/
def State.nodeOfThread (s : State) (t : Thread) : Option TaskNode :=
  s.eng.tasks.find? (fun n => n.die == t.info.tdie && n.id == t.info.tnode && n.recA == t.info.addr && n.dom == t.home)
/-- TDONE (13:R198). -/
def execTdone (m : Mark) (s : State) : Host.Outcome State Fault Refusal :=
  s.issue (.tdone m) (fun s =>
    let t := s.th
    match s.nodeOfThread t with
    | none => .trap ⟨.illstate, 0, t.pc⟩
    | some n =>
      if t.info.kind ≠ 2 || t.flow.tdone then .trap ⟨.illstate, 0, t.pc⟩
      else if n.stage = 0 && !s.mayRelease t then .hold 2 s
      else s.nodeDone n)

-- Slices and dispatch -------------------------------------------------------------------------------------------------

/-- A function has work (23:R290). -/
def State.hasWork (s : State) (f : Nat) : Bool :=
  (s.vcp f).queues.any (fun q => !q.cmds.isEmpty || q.pass.isSome) || s.st.runq.any (·.dom == f) ||
    s.eng.tasks.any (fun n => n.dom == f && s.inPantry n) || s.threads.any (·.home == f) ||
    s.eng.compacts.any (fun c => c.2.dom == f && c.2.preempted)
/-- Functions of a partition with work, in increasing number. -/
def State.workers (s : State) (n : Nat) : List Nat := (List.range 513).filter (fun f => (s.bound n).contains f && s.hasWork f)
/-- The function whose slice it is (23:R290): the one listed while it has work, else the next with work. -/
def State.slicer (s : State) (n : Nat) : Option Nat :=
  let ws := s.workers n
  let cur := match s.st.slice.find? (fun p => p.1 == n) with
    | some (_, f, _) => f
    | none => 0
  match ws.find? (cur ≤ ·) with
  | some f => some f
  | none => ws.head?
/-- A function that is given a slot begins its slice, when none runs (23:R290). -/
def State.sliceStart (s : State) (f : Nat) : State := match s.nodeOf f with
  | some n =>
    if s.st.slice.any (fun p => p.1 == n && p.2.1 == f) then s
    else { s with st := { s.st with slice := (n, f, (s.cfg f).weight) :: s.st.slice.filter (fun p => p.1 != n) } }
  | none => s
/-- A function receives no dispatch: another's slice runs, or is not yet over (23:R287 step 5, R290). -/
def State.slicedOut (s : State) (f : Nat) : Bool := match s.nodeOf f with
  | none => false
  | some n => (match s.slicer n with
    | some g => g != f
    | none => false) || s.threads.any (fun t => t.home != f && s.nodeOf t.home == some n && t.flow.preempt == 1)
/-- SLICE_CHANGE: a slice of the running function ends (23:R290). -/
def State.sliceChange (s : State) (n : Nat) : Option State :=
  let ws := s.workers n
  match s.slicer n with
  | none => none
  | some f =>
    let left := match s.st.slice.find? (fun p => p.1 == n && p.2.1 == f) with
      | some (_, _, k) => k
      | none => (s.cfg f).weight
    let put (s : State) (g k : Nat) : State :=
      { s with st := { s.st with slice := (n, g, k) :: s.st.slice.filter (fun p => p.1 != n) } }
    if 1 < left then some (put s f (left - 1))
    else
      let g := (ws.find? (f < ·)).getD (ws.headD f)
      let s := put s g (s.cfg g).weight
      if g = f then some s
      else some (s.mapThreads (fun t =>
        if t.home = f && t.flow.preempt = 0 then { t with flow := { t.flow with preempt := 1 } } else t))
/-- SLICE_CHANGE (23:R290). -/
def execSliceChange (node : Nat) (s : State) : Host.Outcome State Fault Refusal := unitStep s (s.sliceChange node)

/-- A pre-empted compact is resumed once its function may be dispatched (03:R47, 23:R290). -/
def State.compactResume (s : State) (bar : Nat) : Option State := match s.compact? bar with
  | some c => if s.slicedOut c.dom || s.atRest c.dom then none else (s.resumeSaved bar).map (·.sliceStart c.dom)
  | none => none
/-- COMPACT_RESUME (03:R47). -/
def execCompactResume (bar : Nat) (s : State) : Host.Outcome State Fault Refusal := unitStep s (s.compactResume bar)

/-- Run-queue records of a function on a die with a priority, oldest first. -/
def State.runList (s : State) (die dom pri : Nat) : List RunEntry := s.st.runq.filter (fun e => e.die == die && e.dom == dom && e.pri == pri)
/-- Pantry nodes of a function on a die with a priority, oldest first. -/
def State.pantryList (s : State) (die dom pri : Nat) : List TaskNode :=
  (s.pantryOf die).filterMap (fun k => s.eng.tasks.find? (fun n => k == (n.die, n.id) && n.die == die && n.dom == dom && n.pri == pri))
/-- Where a pantry node goes: its preferred tile, else the lowest-numbered tile of the die with a free slot, which has room for its window
(23:R287 step 3, 03:R28). -/
def State.taskSlot (s : State) (n : TaskNode) : Option Nat :=
  let part (i : Nat) : Bool := match s.nodeOf n.dom with
    | some k => nodeTile k i
    | none => true
  let ok (i : Nat) : Option Nat :=
    if dieOf i == n.die && part i && (s.roomFor i n.dom n.kern.gran).isSome then (s.freeSlots i n.dom).head?.map (i * 16 + ·) else none
  match n.aff.bind ok with
  | some t => some t
  | none => (List.range 384).findSome? (fun i => ok (384 * n.die + i))
/-- Takes a record of a function into slot `tid` from a die, by priority; none where a pantry node of the die goes first
(23:R287 step 1). -/
def State.claimFrom (s : State) (die dom tid : Nat) : List Nat → Option State
  | [] => none
  | p :: ps =>
    match (s.runList die dom p).findSome? (fun e => s.claimEntry e tid) with
    | some s => some s
    | none =>
      if die == dieOf (tid / 16) && ((s.pantryList die dom p).any (fun n => (s.taskSlot n).isSome)) then none
      else s.claimFrom die dom tid ps
/-- The other dies of a partition, in the order in which a slot of a die that holds no entry looks for records (23:R287 step 2). -/
def State.otherDies (s : State) (die dom : Nat) : List Nat :=
  let ds := match s.nodeOf dom with
    | some n => nodeDies n
    | none => []
  ([1, 2, 3].map (fun k => (die + k) % 4)).filter ds.contains
/-- A free thread slot takes a record (23:R287, 03:R28). -/
def State.recordClaim (s : State) (tid : Nat) : Option State :=
  let tile := tid / 16
  let doms := ((s.tile tile).dps.filter (fun d => d.v && bitOf d.tslot (tid % 16))).map (·.dom)
  if (s.thread? tid).isSome || s.retired tile then none
  else doms.findSome? (fun d =>
    if s.slicedOut d || s.atRest d || (s.nodeOf d).isNone then none
    else (match s.claimFrom (dieOf tile) d tid [3, 2, 1, 0] with
      | some s => some s
      | none =>
        if [3, 2, 1, 0].any (fun p => (s.pantryList (dieOf tile) d p).any (fun n => (s.taskSlot n).isSome)) then none
        else (s.otherDies (dieOf tile) d).findSome? (fun e => s.claimFrom e d tid [3, 2, 1, 0])).map (fun (x : State) => x.sliceStart d))
/-- RECORD_CLAIM (03:R28, 23:R287). -/
def execRecordClaim (tid : Nat) (s : State) : Host.Outcome State Fault Refusal := unitStep s (s.recordClaim tid)

/-- A pantry node's record is written and its thread placed; a node whose record cannot be written leaves the pantry with FATAL
(13:R197; log 25). -/
def State.placeTask (s : State) (n : TaskNode) (tid : Nat) : Option State :=
  let started (s : State) : State :=
    let tasks := s.eng.tasks.map (fun (x : TaskNode) => if x == n then { x with started := true } else x)
    { s with eng := { s.eng with tasks := tasks, pantry := s.eng.pantry.erase (n.die, n.id) } }
  match s.writeThread (n.kern.thread n.dom n.recA n.save n.arg 0 2 n.die n.id n.pri) with
  | .error x => some ((started s).postFatal n.dom n.recA x.cause.code)
  | .ok s =>
    let s := (s.bindTable n.dom n.kern [tid / 16]).getD s
    match s.loadRecord n.dom n.recA tid with
    | .ok s => some (started s)
    | .invalid s => some (started s)
    | .noRoom => none
    | .cut code => some ((started s).postFatal n.dom n.recA code)
    | .lost => some (started s)
/-- The task unit of a die dispatches one pantry node: the highest priority, oldest first, after run-queue records of at least
its priority (13:R197, 23:R287). -/
def State.taskDispatch (s : State) (die : Nat) : Option State :=
  let first (dom p : Nat) (n : TaskNode) : Option State :=
    match s.taskSlot n with
    | none => none
    | some tid =>
      if ([3, 2, 1, 0].filter (p ≤ ·)).any (fun q => (s.runList die dom q).any (fun e => (s.claimEntry e tid).isSome)) then none
      else (s.placeTask n tid).map (fun (x : State) => x.sliceStart dom)
  let doms := ((s.eng.tasks.filter (fun n => n.die == die)).map (·.dom)).dedup
  [3, 2, 1, 0].findSome? (fun p => doms.findSome? (fun d =>
    if s.slicedOut d || s.atRest d || (s.nodeOf d).isNone then none else (s.pantryList die d p).findSome? (first d p)))
/-- TASK_DISPATCH (13:R197). -/
def execTaskDispatch (die : Nat) (s : State) : Host.Outcome State Fault Refusal := unitStep s (s.taskDispatch die)

end Sys2Proof.Machine
end

