-- ==== Sys2Proof/Machine/Queues.lean ====
section
/-! DEFINITION. Virtual command processor queues: notifies, passes, commands (23:R278-R285, 21:R276). -/

namespace Sys2Proof.Machine
open Sys2Proof

-- Passes --------------------------------------------------------------------------------------------------------------

def Queue.enabled (ctl : Word) : Bool := bitOf ctl.toNat 16
def Queue.prio (ctl : Word) : Nat := bits ctl.toNat 9 8
def Queue.log (ctl : Word) : Nat := bits ctl.toNat 4 0
def State.setQueue (s : State) (f q : Nat) (x : Queue) : State := s.setVcp f ((s.vcp f).setQueue q x)
/-- A queue leaves its pass in a state of its own, with QERROR (23:R280, R291). -/
def State.queueStop (s : State) (f q : Nat) (x : Queue) (state code : Nat) : State :=
  (s.setQueue f q { x with state := state, code := code, pass := none }).postEvent f 3 (pack [(q, 32), (code, 8), (state, 0)])
def State.queueError (s : State) (f q : Nat) (x : Queue) (code : Nat) : State := s.queueStop f q x 3 code
/-- STATE once no started command of an active queue is left (23:R280). -/
def Queue.settled (x : Queue) : Queue := if x.state = 2 && x.cmds.isEmpty then { x with state := 1 } else x
/-- A write to VCP.NOTIFY (23:R280). -/
def State.notify (s : State) (f mask : Nat) : State :=
  let v := s.vcp f
  s.setVcp f { v with queues := (List.range 8).map (fun q =>
    if bitOf mask q then { v.queue q with pending := true } else v.queue q) }
/-- VCP_NOTIFY (23:R280). -/
def execVcpNotify (fn : Nat) (mask : BitVec 8) (s : State) : Host.Outcome State Fault Refusal := .next (s.notify fn mask.toNat)

/-- A ring entry's words, none where it cannot be read. -/
def State.entryWords (s : State) (f : Nat) (base ctl : Word) (i : Nat) : Option (List Nat) :=
  match s.sysRead f (base + BitVec.ofNat 64 (64 * (i % 2 ^ Queue.log ctl))) 64 with
  | .ok bs => some ((List.range 8).map (wordAt bs))
  | .error _ => none
/-- An entry keeps the map of R281. -/
def entryOk (e : List Nat) : Bool :=
  let w (i : Nat) : Nat := e.getD i 0
  let op := bits (w 0) 63 56
  let launch := op == 1 || op == 2
  op ≤ 5 && bits (w 0) 55 0 == 0 &&
    (if op = 0 then w 1 == 0 else if op = 3 then w 1 % 16 == 0 else if 4 ≤ op then w 1 % 8 == 0 else true) &&
    (if op = 0 ∨ op = 3 then w 2 == 0 else if op = 2 then w 2 % 64 == 0 else true) &&
    (if launch then w 3 % 64 == 0 && w 4 % 1024 == 0 && w 6 % 8 == 0 else w 3 == 0 && w 4 == 0 && w 6 == 0) &&
    (if op = 1 then 1 ≤ w 5 && w 5 ≤ 65536 else if op = 2 then bits (w 5) 63 16 == 0 else w 5 == 0) &&
    (if op = 2 && bitOf (w 5) 15 then bits (w 7) 63 45 == 0 && bits (w 7) 44 24 % 64 == 0 && bits (w 7) 23 0 % 64 == 0 else w 7 == 0)
/-- The words at the read index of a pass, when they are a valid command. -/
def State.nextEntry (s : State) (f q : Nat) : Option (List Nat) :=
  let x := (s.vcp f).queue q
  match x.pass with
  | some (base, ctl, _) => (s.entryWords f base ctl x.qrd).filter entryOk
  | none => none
/-- PRIO of a queue, as its pass has read it where one runs. -/
def Queue.rank (x : Queue) : Nat := match x.pass with
  | some (_, ctl, _) => Queue.prio ctl
  | none => Queue.prio x.ctl
/-- The queues of a function as the steward serves them: decreasing PRIO, then increasing number (23:R280). -/
def Vcp.served (v : Vcp) : List Nat := [3, 2, 1, 0].flatMap (fun p => (List.range 8).filter (fun q => (v.queue q).rank == p))
/-- The first queue of a function whose pass is to begin: a notify during a pass waits for its end (23:R280). -/
def Vcp.firstPending (v : Vcp) : Option Nat := v.served.find? (fun q => (v.queue q).pending && (v.queue q).pass.isNone)
/-- A pending queue of higher PRIO is fetched first (23:R282). -/
def Vcp.outranked (v : Vcp) (q : Nat) : Bool := match v.firstPending with
  | some p => (v.queue q).rank < (v.queue p).rank
  | none => false
/-- A pass begins, or finds a bad entry (23:R280). -/
def State.queuePass (s : State) (f q : Nat) : Option State :=
  let v := s.vcp f
  let x := v.queue q
  match x.pass with
  | some _ => if (s.nextEntry f q).isNone then some (s.queueError f q x 5) else none
  | none =>
    if v.firstPending != some q || s.atRest f then none
    else
      let x := { x with pending := false, seen := x.ctl }
      let lg := Queue.log x.ctl
      if !Queue.enabled x.ctl then some (s.setQueue f q { x with state := 0, qrd := 0 })
      else
        let x := if x.state = 0 then { x with state := 1, qrd := 0 } else x
        let n := (x.qwr + 2 ^ 32 - x.qrd) % 2 ^ 32
        some (
          if x.state = 3 ∨ x.state = 4 then s.setQueue f q x
          else if lg < 4 ∨ 16 < lg then s.queueError f q x 1
          else if (s.cfg f).qmax < Queue.prio x.ctl then s.queueError f q x 2
          else if !s.ringOk f (BitVec.ofNat 64 (x.base.toNat / 65536 * 65536)) 1 .read then s.queueError f q x 3
          else match s.ringTouch f x.base (64 * 2 ^ lg) .read with
            | none => s.queueError f q x 4
            | some s =>
              if 2 ^ lg < n then s.queueStop f q x 4 x.code
              else s.setQueue f q { x with pass := if n = 0 then none else some (x.base, x.ctl, x.qwr) })
/-- QUEUE_PASS (23:R280). -/
def execQueuePass (fn q : Nat) (s : State) : Host.Outcome State Fault Refusal := unitStep s (s.queuePass fn q)

/-- The command at the read index has started: the index moves on, and the pass ends with its last entry (23:R280). -/
def Queue.advance (x : Queue) : Queue :=
  let r := (x.qrd + 1) % 2 ^ 32
  { x with qrd := r, state := 2, pass := match x.pass with
    | some (b, c, w) => if r = w then none else some (b, c, w)
    | none => none }
/-- What reading the entry at the read index leaves (17:R230, R239). -/
def State.entryRead (s : State) (f q : Nat) : State :=
  let x := (s.vcp f).queue q
  match x.pass with
  | some (base, ctl, _) => s.sysTouch f (base + BitVec.ofNat 64 (64 * (x.qrd % 2 ^ Queue.log ctl))) 64
  | none => s
/-- The next entry of a pass when it has an operation, with the queue and what reading the entry leaves. -/
def State.command (s : State) (f q op : Nat) : Option (List Nat × Queue × State) :=
  match s.nextEntry f q with
  | some e => if bits (e.getD 0 0) 63 56 = op && !s.atRest f && !(s.vcp f).outranked q then some (e, (s.vcp f).queue q, s.entryRead f q) else none
  | none => none

-- NOP, QFENCE, SIGNAL, WAIT -------------------------------------------------------------------------------------------

def State.cmdNop (s : State) (f q : Nat) : Option State :=
  (s.command f q 0).map (fun (_, x, s) => s.setQueue f q x.advance.settled)
/-- NOP (23:R282). -/
def execNop (fn q : Nat) (s : State) : Host.Outcome State Fault Refusal := unitStep s (s.cmdNop fn q)
/-- A store by the steward through TCR[f] that wakes waiters (23:R282, 13:R178). -/
def State.signal (s : State) (f : Nat) (va : Word) (bs : List Byte) : Except Trap State :=
  match s.sysWrite f va bs, s.sysPieces f .write va bs.length with
  | .ok s, .ok (ps, _) => .ok (ps.foldl (fun s p => if p.pkg = s.me then s.wakeLine (waitLine p.off) else s) s)
  | .error t, _ => .error t
  | _, .error t => .error t
/-- A fence's interval is sealed: RIN has passed it (13:R201, 21:R276). -/
def sealedPast (rin i : Nat) : Bool := rin = 0 || (rin + 2 ^ 33 - 1 - i) % 2 ^ 32 < 2 ^ 31
/-- A fence whose interval is sealed completes (21:R276). -/
def State.fenceDone (s : State) (f q : Nat) : Option State :=
  let x := (s.vcp f).queue q
  match x.cmds with
  | c :: rest =>
    if c.op = 3 && sealedPast (s.rinOf f) c.upto then
      some (s.setQueue f q (Queue.settled { x with cmds := rest, fence := c.idx }))
    else none
  | [] => none
/-- The fences of a partition whose interval is sealed complete. -/
def State.fencesDone (s : State) (n : Nat) : State :=
  (s.bound n).foldl (fun s f => (List.range 8).foldl (fun s q => (s.fenceDone f q).getD s) s) s
/-- A fence starts and writes its index and RIN, or its interval is sealed and it completes (23:R282, 21:R276). -/
def State.cmdFence (s : State) (f q : Nat) : Option State :=
  match s.fenceDone f q with
  | some s => some s
  | none => if !((s.vcp f).queue q).cmds.isEmpty then none else
    (s.command f q 3).map (fun (e, x, s) =>
      match s.signal f (BitVec.ofNat 64 (e.getD 1 0)) (leBytes 8 x.qrd ++ leBytes 8 (s.rinOf f)) with
      | .error _ => s.queueError f q x 5
      | .ok s =>
        let x := (s.vcp f).queue q
        let c : Command := ⟨3, x.qrd, [], [], 0, none, s.rinOf f⟩
        if s.rinOf f = 0 then s.setQueue f q (Queue.settled { x.advance with fence := x.qrd })
        else s.setQueue f q { x.advance with cmds := [c] })
/-- QFENCE (23:R282). -/
def execQfence (fn q : Nat) (s : State) : Host.Outcome State Fault Refusal := unitStep s (s.cmdFence fn q)
def State.cmdSignal (s : State) (f q : Nat) : Option State :=
  if !((s.vcp f).queue q).cmds.isEmpty then none
  else (s.command f q 4).map (fun (e, x, s) =>
    match s.signal f (BitVec.ofNat 64 (e.getD 1 0)) (leBytes 8 (e.getD 2 0)) with
    | .error _ => s.queueError f q x 5
    | .ok s => s.setQueue f q ((s.vcp f).queue q).advance.settled)
/-- SIGNAL (23:R282). -/
def execSignal (fn q : Nat) (s : State) : Host.Outcome State Fault Refusal := unitStep s (s.cmdSignal fn q)
def State.cmdWait (s : State) (f q : Nat) : Option State :=
  match s.command f q 5 with
  | none => none
  | some (e, x, s) =>
    let va := BitVec.ofNat 64 (e.getD 1 0)
    match s.sysWord f va with
    | .error _ => some (s.queueError f q x 5)
    | .ok v =>
      if e.getD 2 0 ≤ v then some ((s.sysTouch f va 8).setQueue f q x.advance.settled)
      else match s.sysPieces f .read va 8 with
        | .ok (_, u) => if u.ms.mem = s.ms.mem then none else some u
        | .error _ => none
/-- WAIT (23:R282). -/
def execWait (fn q : Nat) (s : State) : Host.Outcome State Fault Refusal := unitStep s (s.cmdWait fn q)

-- Launches ------------------------------------------------------------------------------------------------------------

/-- The status word of a launch, when it has one, and LAUNCHERR for an error (23:R283, R285, R291). -/
def State.launchStatus (s : State) (f : Nat) (stat : Word) (st lerr : Nat) : State :=
  if stat = 0 then s
  else match s.signal f stat (leBytes 8 (st * 256 + lerr)) with
    | .ok s => s
    | .error _ => s
def State.launchFails (s : State) (f q lerr : Nat) (e : List Nat) : State :=
  let x := (s.vcp f).queue q
  let s := (s.launchStatus f (BitVec.ofNat 64 (e.getD 6 0)) 3 lerr).postEvent f 2 (pack [(q, 32), (x.qrd, 0)])
  s.setQueue f q ((s.vcp f).queue q).advance.settled
/-- An area is writable through TCR[f], or readable. -/
def State.usable (s : State) (f : Nat) (k : AccKind) (va : Word) (n : Nat) : Bool := match s.sysPieces f k va n with
  | .ok _ => true
  | .error _ => false
/-- The kernel header of a launch, or its error (23:R285); `own`, its ENTRY counts (23:R284). A function bound to no partition launches
nothing (25:R295). -/
def State.launchHeader (s : State) (f : Nat) (at_ : Word) (own : Bool) : Except Nat Kern :=
  match s.nodeOf f, s.sysRead f at_ 64 with
  | none, _ => .error 5
  | _, .error _ => .error 5
  | some _, .ok h => match (headerErrors h).filter (fun x => own || x.2 != 8) with
    | (c, _) :: _ => .error c
    | [] => .ok (kernOf at_ h)
/-- Writes a thread's areas, which are known to be writable. -/
def State.putThread (s : State) (t : Thread) : State := match s.writeThread t with
  | .ok s => s
  | .error _ => s
/-- Records and save areas of a launch's threads, all of them readable and writable, are written; none else (23:R283, R285). -/
def State.createThreads (s : State) (f : Nat) (ts : List Thread) (stat : Word) : Option State :=
  let ok (va : Word) (n : Nat) : Bool := s.usable f .read va n && s.usable f .write va n
  if !ts.all (fun t => ok t.info.addr 64 && ok t.info.save ((t.gran + 1) * 1024)) || (stat != 0 && !s.usable f .write stat 8) then none
  else some (ts.foldl State.putThread s)
/-- The threads of a launch: the i-th with its record, save area and index (23:R283). -/
def launchThread (k : Kern) (f prio : Nat) (e : List Nat) (i : Nat) : Thread :=
  k.thread f (BitVec.ofNat 64 (e.getD 3 0 + 64 * i)) (BitVec.ofNat 64 (e.getD 4 0 + (k.gran + 1) * 1024 * i)) (BitVec.ofNat 64 (e.getD 2 0))
    (BitVec.ofNat 64 i) 0 0 0 prio
/-- The partition a launch runs on: node 0 where a function has none. -/
def State.launchTiles (s : State) (f : Nat) : List Nat := match s.nodeOf f with
  | some n => s.tilesOf n f
  | none => (s.tiles.map (·.1)).filter (fun i => ((s.tile i).dp? f).isSome)
def State.launchDies (s : State) (f : Nat) : List Nat := match s.nodeOf f with
  | some n => nodeDies n
  | none => [0, 1, 2, 3]
def State.cmdLaunch (s : State) (f q : Nat) : Option State :=
  (s.command f q 1).map (fun (e, x, s) =>
    let s := s.sysTouch f (BitVec.ofNat 64 (e.getD 1 0)) 64
    match s.launchHeader f (BitVec.ofNat 64 (e.getD 1 0)) true with
    | .error c => s.launchFails f q c e
    | .ok k =>
      match s.bindTable f k (s.launchTiles f) with
      | none => s.launchFails f q 4 e
      | some s' =>
        let prio := match x.pass with
          | some (_, ctl, _) => Queue.prio ctl
          | none => 0
        let ts := (List.range (e.getD 5 0)).map (launchThread k f prio e)
        match s'.createThreads f ts (BitVec.ofNat 64 (e.getD 6 0)) with
        | none => s.launchFails f q 5 e
        | some s =>
          let dies := s.launchDies f
          let s := (ts.zip (List.range ts.length)).foldl (fun s (p : Thread × Nat) =>
            s.enqueue ⟨dies.getD (p.2 % dies.length) 0, f, prio, p.1.info.addr⟩) s
          let x := (s.vcp f).queue q
          let c : Command := ⟨1, x.qrd, ts.map (·.info.addr), [], BitVec.ofNat 64 (e.getD 6 0), none, 0⟩
          s.setQueue f q { x.advance with cmds := x.cmds ++ [c] })
/-- LAUNCH (23:R283). -/
def execLaunch (fn q : Nat) (s : State) : Host.Outcome State Fault Refusal := unitStep s (s.cmdLaunch fn q)

/-- The members of a compact record on this package: number, tile, entry; none where R285 refuses them (23:R284-R285). -/
def State.launchMembers (s : State) (f : Nat) (bs : List Byte) (n : Nat) : Option (List (Nat × Nat × Word)) :=
  let ms := (List.range n).map (fun m => (m, s.coordOf f (bits (wordAt (memberBytes bs m) 0) 14 0), BitVec.ofNat 64 (wordAt (memberBytes bs m) 2)))
  if ms.any (fun m => m.2.1.isNone) then none
  else
    let here := ms.filterMap (fun m => match m.2.1 with
      | some (k, p, i) => if k ≤ 1 && p == s.me then some (m.1, i, m.2.2) else none
      | none => none)
    let part (i : Nat) : Bool := match s.nodeOf f with
      | some k => nodeTile k i
      | none => true
    if here.all (fun m => part m.2.1 && !s.retired m.2.1) then some here else none
/-- The scale server and loft of a CLAUNCH: none where R285 refuses them. -/
def State.launchLoft (s : State) (f : Nat) (a2 a3 : Nat) : Option (Option (Nat × Word)) :=
  if !bitOf a2 15 then some none
  else
    let len := bits a3 44 24
    let base := bits a3 23 0
    match s.coordOf f (bits a2 14 0) with
    | some (k, p, i) =>
      let part : Bool := match s.nodeOf f with
        | some n => nodeTile n i
        | none => true
      let ok (b : Nat) : Bool := match (s.tile i).dp? f with
        | some (_, d) => bitOf d.banks b && bitOf d.scrb b
        | none => false
      if 1 < k || p != s.me || !part || s.retired i || Config.sramSize < base + len || !(banksOf base len).all ok then none
      else some (some (i, pack [(1, 63), (len, 24), (base, 0)]))
    | none => none
/-- A scale server's role ends with its launch: MU.LOFT is 0 (01:R16, 11:R156). -/
def State.endLoft (s : State) (c : Command) : State := match c.loft with
  | some i => s.setTile i { s.tile i with loft := 0 }
  | none => s
/-- The started commands of a queue are gone, with the roles of their launches (01:R16). -/
def State.dropCmds (s : State) (x : Queue) : State := x.cmds.foldl State.endLoft s
/-- A tile takes the role of a launch's scale server; one that holds it for an earlier launch, still live, holds it for the later one alone
(01:R16, 11:R156, R164; DESIGN CHOICE, log 77). -/
def State.takeLoft (s : State) (i : Nat) (w : Word) (f : Nat) : State :=
  let free (c : Command) : Command := if c.loft = some i then { c with loft := none } else c
  let vcps := s.st.vcps.map (fun (v : Nat × Vcp) => (v.1, { v.2 with queues := v.2.queues.map (fun x => { x with cmds := x.cmds.map free }) }))
  { s with st := { s.st with vcps := vcps } }.setTile i { s.tile i with loft := w, loftDom := f }
/-- A member of a CLAUNCH whose tile was retired before it found a slot fails with LERR_COMPACT, and the launch with it; the members placed
run on (31:R347; DESIGN CHOICE, log 92). -/
def State.memberFails (s : State) (f q : Nat) (c : Command) (recA : Word) (rest : List (Word × Nat)) : State :=
  let s := (s.launchStatus f c.stat 3 6).postEvent f 2 (pack [(q, 32), (c.idx, 0)])
  let x := (s.vcp f).queue q
  s.setQueue f q { x with cmds := x.cmds.map (fun d => if d == c then { d with todo := rest, recs := d.recs.erase recA, stat := 0 } else d) }
/-- Places the next member of a CLAUNCH that waits for a slot (23:R284). -/
def State.placeMember (s : State) (f q : Nat) (c : Command) : Option State :=
  match c.todo with
  | [] => none
  | (recA, tile) :: rest =>
    if s.retired tile then some (s.memberFails f q c recA rest) else
    let placed (s : State) : State :=
      let s := s.sliceStart f
      let x := (s.vcp f).queue q
      s.setQueue f q { x with cmds := x.cmds.map (fun d => if d == c then { d with todo := rest } else d) }
    match (if s.slicedOut f then none else (s.freeSlots tile f).head?) with
    | none => none
    | some k => match s.loadRecord f recA (tile * 16 + k) with
      | .ok s => some (placed s)
      | .noRoom => none
      | .invalid s => some (placed s)
      | .lost => some (placed s)
      | .cut code => some ((placed s).postFatal f recA code)
/-- A CLAUNCH starts, or places a member (23:R284). -/
def State.cmdClaunch (s : State) (f q : Nat) : Option State :=
  match (if s.atRest f then none else ((s.vcp f).queue q).cmds.findSome? (fun c => s.placeMember f q c)) with
  | some s => some s
  | none => (s.command f q 2).map (fun (e, x, s) =>
    let a1 := BitVec.ofNat 64 (e.getD 2 0)
    let s := (s.sysTouch f (BitVec.ofNat 64 (e.getD 1 0)) 64).sysTouch f a1 64
    match s.launchHeader f (BitVec.ofNat 64 (e.getD 1 0)) false, s.sysRead f a1 64 with
    | .error c, _ => s.launchFails f q c e
    | .ok _, .error _ => s.launchFails f q 5 e
    | .ok k, .ok h =>
      let n := bits (wordAt h 0) 15 0
      if n = 0 ∨ 24576 < n ∨ bits (wordAt h 0) 25 16 ≠ f then s.launchFails f q 6 e
      else match s.sysRead f a1 (64 + 288 * n) with
        | .error _ => s.launchFails f q 5 e
        | .ok bs =>
          let s := s.sysTouch f a1 (64 + 288 * n)
          match s.launchMembers f bs n, s.launchLoft f (e.getD 5 0) (e.getD 7 0) with
          | none, _ => s.launchFails f q 6 e
          | some _, none => s.launchFails f q 7 e
          | some ms, some loft =>
            match s.bindTable f k (ms.map (·.2.1)) with
            | none => s.launchFails f q 4 e
            | some s' =>
              let prio := match x.pass with
                | some (_, ctl, _) => Queue.prio ctl
                | none => 0
              let ts := ms.map (fun m => { launchThread k f prio e m.1 with pc := m.2.2 })
              match s'.createThreads f ts (BitVec.ofNat 64 (e.getD 6 0)) with
              | none => s.launchFails f q 5 e
              | some s =>
                let s := match loft with
                  | some (i, w) => s.takeLoft i w f
                  | none => s
                let x := (s.vcp f).queue q
                let recs := ts.map (·.info.addr)
                let c : Command := ⟨2, x.qrd, recs, recs.zip (ms.map (·.2.1)), BitVec.ofNat 64 (e.getD 6 0), loft.map (·.1), 0⟩
                s.setQueue f q { x.advance with cmds := x.cmds ++ [c] })
/-- CLAUNCH (23:R284). -/
def execClaunch (fn q : Nat) (s : State) : Host.Outcome State Fault Refusal := unitStep s (s.cmdClaunch fn q)
/-- A launch whose threads have all ended completes; a scale server's role ends with it (23:R283-R284, 01:R16). -/
def State.launchDone (s : State) (f q : Nat) : Option State :=
  let x := (s.vcp f).queue q
  let over_ (c : Command) : Bool := (c.op == 1 || c.op == 2) && c.todo.isEmpty &&
    c.recs.all (fun r => s.recState f r == some 4 || s.recState f r == some 5)
  match x.cmds.find? over_ with
  | none => none
  | some c =>
    let st := if c.recs.any (fun r => s.recState f r == some 5) then 2 else 1
    let s := (s.endLoft c).launchStatus f c.stat st 0
    let x := (s.vcp f).queue q
    some (s.setQueue f q (Queue.settled { x with cmds := x.cmds.erase c }))
/-- LAUNCH_COMPLETE (23:R283). -/
def execLaunchComplete (fn q : Nat) (s : State) : Host.Outcome State Fault Refusal := unitStep s (s.launchDone fn q)

end Sys2Proof.Machine
end

