-- ==== Sys2Proof/Machine/Recovery.lean ====
section
/-! DEFINITION. Recovery intervals: SEAL and SEALW, the seal of a group, rollback and replay; cache maintenance (13:R199-R202,
21:R263-R277, 23:R292). -/

namespace Sys2Proof.Machine
open Sys2Proof

-- SEAL and SEALW ------------------------------------------------------------------------------------------------------

/-- SEAL (13:R200, R202): the checkpoint of the thread as it goes on after the SEAL, once its stores are performed (19:R253); it then
waits. Inside a gate call, which no checkpoint saves (27:R318), it waits without one, and the thread arrives as a laggard after GRET
(27:R316; DESIGN CHOICE, log 76). -/
def execSeal (m : Mark) (s : State) : Host.Outcome State Fault Refusal :=
  s.issue (.seal m) (fun s =>
    let t := s.th
    match s.nodeOf t.dom with
    | none => .trap ⟨.illstate, 0, t.pc⟩
    | some n =>
      if (s.memberOf t.tid).isSome then .trap ⟨.illstate, 0, t.pc⟩
      else if !s.leaveReady t then .hold 2 s
      else if t.caller.isSome then .wait .waiting (s.beginSeal n)
      else
        let r := (s.beginSeal n).checkpoint (t.loopStep.countEv 2 1) t.loopStep.pc
        if r.2 then .wait .sealing { r.1 with th := { r.1.th with flow := { r.1.th.flow with sealed := true } } } else .left r.1)
/-- SEALW (13:R201-R202). -/
def execSealw (m : Mark) (a : Reg) (s : State) : Host.Outcome State Fault Refusal :=
  s.issue (.sealw m a) (fun s =>
    if sealedPast (s.rinOf s.th.dom) (bits (s.th.gr a).toNat 31 0) then .ok s else .hold 1 s)

-- The seal of a group -------------------------------------------------------------------------------------------------

/-- A thread works for a partition: by its own domain or as the callee of a gate call. -/
def State.worksFor (s : State) (n : Nat) (t : Thread) : Bool := s.nodeOf t.dom == some n || s.nodeOf t.home == some n
def State.lineOfNode (s : State) (n line : Nat) : Bool := s.blockKind (line / Config.blockSize) == 1 && s.blockNode (line / Config.blockSize) == n
/-- Packages of a group, a UET peer p as 16 + p (21:R263, 29:R333), and its coordinator, the lowest-numbered (21:R268). -/
def State.groupPkgs (s : State) (n : Nat) : List Nat := s.me :: (s.rgs n).peers
def State.coordinator (s : State) (n : Nat) : Nat := (s.groupPkgs n).foldl (fun m p => if p % 16 < m % 16 then p else m) s.me
/-- Every part of a group on this package is done: its threads have arrived, its compacts have sealed, its started work has ended, its
stores to other packages are performed (19:R262, 21:R267). -/
def State.partsDone (s : State) (n : Nat) : Bool :=
  s.threads.all (fun t => !s.worksFor n t || t.flow.sealed) &&
    s.eng.compacts.all (fun c => c.2.node != n || c.2.preempted || c.2.phase == 3) &&
    s.eng.engines.all (fun e => e.2.jobs.all (fun j => s.nodeOf j.dom != some n || j.stage == 0 || j.stage == 2)) &&
    s.eng.tasks.all (fun t => s.nodeOf t.dom != some n || t.stage == 0) &&
    s.pl.posted.all (fun p => p.node != n)
/-- The interval after another; 0 is left out (21:R268). -/
def nextRin (n : Nat) : Nat := if n = 2 ^ 32 - 1 then 1 else n + 1
/-- Jobs and fills of a partition that have not started belong to the next interval (21:R267). -/
def State.restamp (s : State) (n rin : Nat) : State :=
  let up (j : JobEntry) : JobEntry := if j.stage == 0 && s.nodeOf j.dom == some n then { j with rin := rin } else j
  let engines := s.eng.engines.map (fun (e : Nat × Engine) => (e.1, { e.2 with jobs := e.2.jobs.map up, subs := e.2.subs.map up }))
  { s with eng := { s.eng with engines := engines } }
/-- What the seal records beside the checkpoints (21:R267, R273). -/
def State.recordSeal (s : State) (n : Nat) : Saved :=
  let mine (f : Nat) : Bool := s.nodeOf f == some n
  let cs := s.eng.compacts.filter (fun c => c.2.node == n)
  let gangRecs (b : Nat) (m : Member) : List (Nat × Word) :=
    ((s.gangOf b).filter (fun t => t.tile == m.tile)).map (fun t => (t.tid, t.info.addr))
  let saved (p : Nat × Compact) : Nat × Compact :=
    (p.1, if p.2.preempted then { p.2 with phase := 4 }
      else { p.2 with preempted := true, phase := 4, members := p.2.members.map (fun m => { m with recs := gangRecs p.1 m }) })
  let inGang (e : RunEntry) : Bool := cs.any (fun c => (s.gangOf c.1).any (fun t => t.who == (e.dom, e.recA)))
  let kept (j : JobEntry) : Bool := (j.stage == 0 || (j.stage == 2 && j.win.isNone)) && mine j.dom
  { ckpts := (s.rgs n).arrived.filter (fun e => !inGang e)
    run := s.st.runq.filter (fun e => mine e.dom)
    waits := s.ms.waits.filter (fun w => mine w.dom && w.far.isNone)
    pantry := s.eng.pantry.filter (fun k => s.eng.tasks.any (fun t => k == (t.die, t.id) && mine t.dom))
    tasks := s.eng.tasks.filter (fun t => mine t.dom)
    jobs := s.eng.engines.flatMap (fun e => (e.2.jobs.filter kept).map (fun j => (e.1, j)))
    subs := s.eng.engines.flatMap (fun e => (e.2.subs.filter kept).map (fun j => (e.1, j)))
    compacts := cs.map saved
    pins := (s.ms.pins.filter (fun p => if p.far.isSome then s.lineOfNode n p.line else cs.any (fun c => c.1 == p.bar))).map
      (fun (p : Pin) => { p with away := true, dirty := 0 }) }
/-- COMMIT once every package has prepared; a group on one package passes through the step at once (21:R268). -/
def State.tryCommit (s : State) (n : Nat) : State :=
  let g := s.rgs n
  if s.coordinator n != s.me || !(s.groupPkgs n).all g.prepared.contains then s
  else if g.peers.isEmpty then s.setRgs n { g with cmt := true }
  else g.peers.foldl (fun s p => s.emit (.steward 2 n p)) s
/-- PREPARE: this package's parts are done (21:R267-R268). -/
def State.prepare (s : State) (n : Nat) : Option State :=
  let g := s.rgs n
  if !g.sealing || g.prepared.contains s.me || g.roll.isSome || !s.partsDone n then none
  else
    let s := (s.cleanLines (s.lineOfNode n)).restamp n (nextRin g.rin)
    let s := s.setRgs n { g with prepared := s.me :: g.prepared, next := s.recordSeal n }
    if s.coordinator n = s.me then some (s.tryCommit n) else some (s.emit (.steward 1 n (s.coordinator n)))
/-- PREPARE (21:R267-R268). -/
def execPrepare (node : Nat) (s : State) : Host.Outcome State Fault Refusal := unitStep s (s.prepare node)
/-- A SPAWN that waits for its record's store will hear how it ended (09:R122). -/
def State.spawnHears (s : State) (e : LarderEntry) (x : Option Trap) : State := match e.who with
  | some w => if e.spawn then { s with st := { s.st with pendSpawn := s.st.pendSpawn ++ [(w, e.va, x)] } } else s
  | none => s
/-- The larder without a released store; flags that wait for it wait for `tags` (21:R272). -/
def State.outOfLarder (s : State) (e : LarderEntry) (tags : List Nat) : State :=
  let s := s.spawnHears e none
  State.retag { s with ms := { s.ms with larder := s.ms.larder.filter (fun x => x.tag != e.tag) } } e.tag tags
/-- A released store that its target refuses: its thread hears of it, wherever that is by now (03:R35), and no flag is added for it. -/
def State.releaseRefused (s : State) (e : LarderEntry) (x : Trap) : State :=
  let s : State := { s with ms := { s.ms with larder := s.ms.larder.filter (fun y => y.tag != e.tag) } }
  if e.spawn then s.spawnHears e (some x) else
  (match s.threads.find? (fun (t : Thread) => some t.who == e.who), e.who with
    | some t, _ => s.refuseA t.tid x
    | none, some w => { s with st := { s.st with pendTrap := s.st.pendTrap ++ [(w, x)] } }
    | none, none => s).flagTag e.tag false
/-- A held store is performed, its interval sealed (21:R272): it is not tagged (R265). One to another package stays in the larder until
that has acknowledged it (19:R260). -/
def State.releaseEntry (s : State) (e : LarderEntry) : State :=
  let tid := match s.threads.find? (fun (t : Thread) => some t.who == e.who) with
    | some t => t.tid
    | none => 2 ^ 60
  let a : Acc := ⟨tid, tid / 16, e.dom % 1024, e.dom % 1024, if e.dom < 1024 then .s else .h, 0, true, none, e.blk⟩
  let p : Piece := ⟨e.va, e.pa, e.data.length, 0⟩
  if let some x := e.egress then (s.outOfLarder e []).ethernetPacket (e.dom % 1024) x ((List.range (e.data.length / 8)).map (fun i => BitVec.ofNat 64 (wordAt e.data i)))
  else if e.data.isEmpty then s.outOfLarder e []
  else if p.pkg != s.me && ((s.pinOfFar p.pa).filter (s.ownsPin tid)).isNone then
    if !s.pkgLive p.pkg then s.releaseRefused e ⟨.notile, 0, e.va⟩
    else
      let (tag, s) := s.request a (.acc .write) p e.data
      { s with ms := { s.ms with larder := s.ms.larder.map (fun x => if x.tag = e.tag then { x with sent := some tag } else x) } }
  else match s.refusal a p with
    | some t => s.releaseRefused e t
    | none =>
      let s' := s.storePiece a p e.data
      let (tags, s') := s.newTags s' a [p]
      s'.outOfLarder e tags
/-- A held store whose interval is sealed (21:R272). -/
def State.released (s : State) (e : LarderEntry) : Bool := e.rin != (s.rgs e.node).rin
/-- The held stores of sealed intervals are performed die by die in the order of their issue, each once the one before it is performed
(19:R260, 21:R272). -/
def State.releaseStep (s : State) : Option State :=
  [0, 1, 2, 3].findSome? (fun d => match s.ms.larder.find? (fun e => e.die == d && s.released e) with
    | some e => if e.sent.isSome || (e.egress.isSome && s.pl.ethDown) then none else some (s.releaseEntry e)
    | none => none)
def State.retireTile (s : State) (tile : Nat) : State :=
  if s.retired tile then s else { s with st := { s.st with retired := s.st.retired ++ [tile] } }
/-- The tiles of a partition that were to be retired during its group's commit are retired, but for one that a domain has entered since
(31:R347). -/
def State.retireLate (s : State) (n : Nat) : State :=
  let due := s.st.toRetire.filter (nodeTile n)
  (due.filter (fun i => !(s.tile i).dps.any (·.v))).foldl State.retireTile
    { s with st := { s.st with toRetire := s.st.toRetire.filter (fun i => !nodeTile n i) } }
/-- A thread goes on after the seal it waited for (13:R200, R171). -/
def Thread.afterSeal (t : Thread) : Thread :=
  if !t.flow.sealed then t
  else if t.status != .sealing then { t with flow := { t.flow with sealed := false } }
  else
    let t := t.stepOver
    { t with flow := { t.flow with sealed := false } }
/-- The packages that stay in a partition's group after a seal: none once no live compact joins this one to another (21:R263; log 40). -/
def State.sharedPkgs (s : State) (n : Nat) : List Nat :=
  if s.eng.compacts.any (fun c => c.2.node == n && (s.packagesOf c.2.dom c.2.coords).any (· != s.me)) then (s.rgs n).peers else []
/-- SEALED(N) on this package (21:R268, R272): held stores of N may be released, and fences of N complete (R276). Entries
that stores of a package past SEALED(N) have already made for N + 1 stay. -/
def State.applySealed (s : State) (n : Nat) : State :=
  let g := s.rgs n
  let kept := s.ms.cellar.filter (fun e => e.node == n && e.rin == nextRin g.rin)
  let again := ((List.range kept.length).zip kept).map (fun (p : Nat × CellarEntry) => { p.2 with seq := p.1 })
  let s := { s with ms := { s.ms with cellar := s.ms.cellar.filter (fun (e : CellarEntry) => e.node != n) ++ again } }
  let s := s.setRgs n { g with
    cuse := kept.length, last := g.rin, rin := nextRin g.rin, cmt := false, sealing := false, forced := false, req := false, late := false, prepared := [], acked := []
    arrived := [], laggards := [], saved := g.next, next := Saved.none, peers := s.sharedPkgs n }
  let s := s.eng.compacts.foldl (fun (s : State) c =>
    if c.2.node = n && c.2.phase = 3 then
      (if !c.2.clk && (s.gangOf c.1).any (·.flow.preempt != 0) then s.setCompact c.1 { c.2 with phase := 1 } else s.resumeCompact c.1 c.2)
    else s) s
  let s := s.mapThreads (fun t => if s.nodeOf t.home == some n then t.afterSeal else t)
  let s := g.laggards.foldl State.enqueue (((s.countCellar n).retireLate n).fencesDone n)
  if (s.rgs n).peers.isEmpty then g.peers.foldl (fun s p => s.emit (.steward 11 n p)) s else s
/-- PREPARED of another package reaches the coordinator, which may not have begun its own part, or may wait for SEALED of the interval
before (21:R268). -/
def State.takePrepared (s : State) (n pkg : Nat) : Option State :=
  let s := if (s.rgs n).cmt && s.coordinator n == s.me then s.applySealed n else s
  let g := s.rgs n
  if g.prepared.contains pkg || !g.peers.contains pkg || g.roll.isSome then none
  else some ((s.setRgs n { g with prepared := pkg :: g.prepared }).tryCommit n)
/-- PREPARED (21:R268). -/
def execPrepared (node pkg : Nat) (s : State) : Host.Outcome State Fault Refusal := unitStep s (s.takePrepared node pkg)
/-- COMMIT is recorded and acknowledged (21:R268). -/
def State.commit (s : State) (n : Nat) : Option State :=
  let g := s.rgs n
  if !g.sealing || g.cmt || g.roll.isSome || !g.prepared.contains s.me || s.coordinator n = s.me then none
  else some ((s.setRgs n { g with cmt := true }).emit (.steward 3 n (s.coordinator n)))
/-- COMMIT (21:R268). -/
def execCommit (node : Nat) (s : State) : Host.Outcome State Fault Refusal := unitStep s (s.commit node)
/-- An acknowledgement of COMMIT; with all in, the interval is sealed (21:R268). -/
def State.commitAck (s : State) (n pkg : Nat) : Option State :=
  let g := s.rgs n
  if !g.sealing || g.acked.contains pkg || !g.peers.contains pkg || s.coordinator n != s.me || g.roll.isSome ||
     !(s.groupPkgs n).all g.prepared.contains then none
  else
    let g := { g with acked := pkg :: g.acked }
    if g.peers.all g.acked.contains then
      some (g.peers.foldl (fun s p => s.emit (.steward 4 n p)) (s.setRgs n { g with cmt := true }))
    else some (s.setRgs n g)
/-- COMMIT_ACK (21:R268). -/
def execCommitAck (node pkg : Nat) (s : State) : Host.Outcome State Fault Refusal := unitStep s (s.commitAck node pkg)
def State.sealed (s : State) (n : Nat) : Option State := if (s.rgs n).cmt then some (s.applySealed n) else none
/-- SEALED (21:R268). -/
def execSealed (node : Nat) (s : State) : Host.Outcome State Fault Refusal := unitStep s (s.sealed node)
/-- SEALTO expires: laggards are to be pre-empted, and gate calls of the group hear of it (21:R267, 27:R316). -/
def State.sealTimeout (s : State) (n : Nat) : Option State :=
  let g := s.rgs n
  if !g.sealing || g.late then none
  else
    let s := s.setRgs n { g with late := true }
    some (s.mapThreads (fun t =>
      if s.worksFor n t && t.caller.isSome && !t.flow.sealed then
        { t with flow := { t.flow with asyncs := t.flow.asyncs ++ [(⟨.sealto, 0, BitVec.ofNat 64 g.rin⟩ : Trap)] } }
      else t))
/-- SEAL_TIMEOUT (21:R267). -/
def execSealTimeout (node : Nat) (s : State) : Host.Outcome State Fault Refusal := unitStep s (s.sealTimeout node)

-- Rollback ------------------------------------------------------------------------------------------------------------

/-- A thread stops at once, its results, packets and waiting matrix commands gone, with no record written (15:R216, 21:R273). -/
def State.haltThread (s : State) (tid : Nat) : State :=
  match s.thread? tid with
  | none => s
  | some t =>
    let mine (e : MEntry) : Bool := e.tid == tid || e.sender == tid
    let unitOf (x : Tile) : Tile := { x with mrecv := x.mrecv.filter (fun e => !mine e) }
    let tiles := s.tiles.map (fun p => (p.1, unitOf p.2))
    let tags := t.flow.outs.flatMap (fun o => o.src.tags)
    let s := { s with tiles := tiles, eng := { s.eng with router := s.eng.router.filter (fun m => !m.awaitedBy tid) } }
    State.vacate { s with ms := { s.ms with defer := s.ms.defer.filter (fun d => d.remote.isSome || !tags.contains d.tag) } } tid
/-- Jobs, fills and submissions that `p` selects are gone; a window whose fill is gone is absent again. -/
def State.dropJobs (s : State) (p : JobEntry → Bool) : State :=
  let gone := s.eng.engines.flatMap (fun e => (e.2.jobs ++ e.2.subs).filter p)
  let cut (e : Engine) : Engine := { e with jobs := e.jobs.filter (fun j => !p j), subs := e.subs.filter (fun j => !p j) }
  let engines := s.eng.engines.map (fun (e : Nat × Engine) => (e.1, cut e.2))
  let s := { s with eng := { s.eng with engines := engines } }
  gone.foldl (fun s j => match j.win with
    | some w => (match (s.tile j.tile).win? w with
      | some x => if x.state = 1 then s.setTile j.tile ((s.tile j.tile).setWin w { x with state := 0 }) else s
      | none => s)
    | none => s) s
/-- The function of a record that causes are kept for. -/
def homeOf (who : Nat × Word) : Nat := who.1 % 1024
/-- Everything of a group stops, on threads and engines, with what was kept for its records; stores that are on their way are no longer of
a thread (21:R273 step 1). -/
def State.stopGroup (s : State) (n : Nat) : State :=
  let mine (f : Nat) : Bool := s.nodeOf f == some n
  let ts := (s.threads.filter (fun t => mine t.home)).map (·.tid)
  let cutUnit (x : Tile) : Tile := { x with
    mrun := x.mrun.filter (fun r => !ts.contains r.entry.tid && !ts.contains r.entry.sender)
    scq := x.scq.filter (fun e => !mine e.dom) }
  let s := { s with tiles := s.tiles.map (fun p => (p.1, cutUnit p.2)) }
  let s := ts.foldl State.haltThread s
  let posted := s.pl.posted.map (fun (p : Posted) => if p.node = n then { p with tid := 2 ^ 61 } else p)
  let st := { s.st with
    pendTrap := s.st.pendTrap.filter (fun p => !mine (homeOf p.1)), pendHeld := s.st.pendHeld.filter (fun p => !mine (homeOf p.1))
    pendGbar := s.st.pendGbar.filter (fun w => !mine (homeOf w)), pendIrr := s.st.pendIrr.filter (fun w => !mine (homeOf w))
    pendSpawn := s.st.pendSpawn.filter (fun p => !mine (homeOf p.1)) }
  State.dropJobs { s with
    st := st, pl := { s.pl with posted := posted, flags := s.pl.flags.filter (fun f => !mine f.dom), rests := s.pl.rests.filter (fun r => !mine r.acc.dom) } } (fun j => mine j.dom)
/-- The cellar's values go back, newest first, and stamps fall to the sealed interval (21:R273 step 2). -/
def State.applyCellar (s : State) (n sealed : Nat) : State :=
  let es := (s.ms.cellar.filter (·.node == n)).reverse
  let s := es.foldl (fun s e => { s with ms := { s.ms with mem := writeBytes s.ms.mem e.line e.old, stamps := setKey s.ms.stamps e.line sealed } }) s
  { s with ms := { s.ms with cellar := s.ms.cellar.filter (·.node != n) } }
/-- Scratch banks of a group's functions outside compacts are zero (21:R273 step 4). -/
def State.zeroScratch (s : State) (n : Nat) : State :=
  let banks := s.tiles.flatMap (fun p => (p.2.dps.filter (fun d => d.v && s.nodeOf d.dom == some n)).flatMap (fun d =>
    ((List.range 16).filter (bitOf d.scrb)).map (fun b => (p.1, b))))
  { s with ms := { s.ms with mem := banks.foldl (fun m b =>
      clearRange m (sramAddr b.1 (b.2 * Config.bankSize)) (sramAddr b.1 ((b.2 + 1) * Config.bankSize))) s.ms.mem } }
/-- Functions and queues without what belongs to a partition. -/
def State.clearQueues (s : State) (n : Nat) : State :=
  let mine (f : Nat) : Bool := s.nodeOf f == some n
  let keep (k : Nat × Nat) : Bool := !s.eng.tasks.any (fun t => k == (t.die, t.id) && mine t.dom)
  let st := { s.st with runq := s.st.runq.filter (fun e => !mine e.dom) }
  let eng := { s.eng with pantry := s.eng.pantry.filter keep, tasks := s.eng.tasks.filter (fun t => !mine t.dom) }
  let bars := (s.eng.compacts.filter (fun c => c.2.node == n)).map (·.1)
  let s := { s with st := st, eng := eng, ms := { s.ms with waits := s.ms.waits.filter (fun w => !mine w.dom || w.far.isSome) } }
  bars.foldl State.dropCompact s
/-- A record of the sealed interval is queued as RUNNABLE. -/
def State.requeue (s : State) (e : RunEntry) : State := (s.setRecState e.dom e.recA 1).enqueue e
/-- A read held at a compact that does not come back is served from memory (27:R314 step 3). -/
def State.serveHome (s : State) (pins : List Pin) (d : Deferred) : State :=
  match pins.find? (fun q => q.far.isNone && sramAddr q.tile (q.sline * 192) == d.pa) with
  | some q => s.serveWith d (if q.line < 2 ^ 60 then s.homeBytes q.line d.n else s.farBytes (q.line - 2 ^ 60) d.n)
  | none => s.serveRead d
/-- PRI of a record (03:R27). -/
def State.recPri (s : State) (f : Nat) (recA : Word) : Nat := match s.sysWord f (recA + 40) with
  | .ok w => bits w 5 4
  | .error _ => 0
/-- A compact restored by a rollback, to be resumed with the checkpoints of its seal (27:R320), or its fault where a member cannot come back
(21:R273 step 7, 27:R314-R315). -/
def State.restoreCompact (s : State) (pins : List Pin) (p : Nat × Compact) : State :=
  let c := p.2
  let sub := if c.members.any (fun m => s.retired m.tile) then 5
    else if (s.packagesOf c.dom c.coords).any (fun k => k < 16 && !s.pkgLive k) then 6 else 0
  let recs := c.members.flatMap (·.recs)
  if sub = 0 then
    let s := recs.foldl (fun s r => s.setRecState c.dom r.2 1) s
    { s.setCompact p.1 c with ms := { s.ms with pins := s.ms.pins ++ pins.filter (fun q => q.bar == p.1 && q.far.isNone) } }
  else
    let s := (s.ms.defer.filter (fun d => c.members.any (·.tile == d.tile))).foldl (·.serveHome (pins.filter (·.bar == p.1))) s
    recs.foldl (fun s r =>
      let s := s.requeue ⟨dieOf (r.1 / 16), c.dom, s.recPri c.dom r.2, r.2⟩
      { s with st := { s.st with pendTrap := s.st.pendTrap ++ [((c.dom, r.2), ⟨.compact, sub, c.recAddr⟩)] } }) (s.tellMembers p.1 c 0 (32 + sub))
/-- The windows of fills that are queued again are filling again. -/
def State.refill (s : State) (j : JobEntry) : State := match j.win with
  | some w => (match (s.tile j.tile).win? w with
    | some x => s.setTile j.tile ((s.tile j.tile).setWin w { x with state := 1 })
    | none => s)
  | none => s
/-- Queues and checkpoints of the sealed interval come back (21:R273 steps 5 and 7); a record that waited on another package's line reads
it again. -/
def State.restoreSaved (s : State) (v : Saved) : State :=
  let of (l : List (Nat × JobEntry)) (e : Nat) : List JobEntry := (l.filter (·.1 == e)).map (·.2)
  let es := ((v.jobs ++ v.subs).map (·.1)).dedup
  let far (w : Waiter) : Bool := decide (2 ^ 61 ≤ w.line)
  let s := { s with
    st := { s.st with runq := s.st.runq ++ v.run }
    ms := { s.ms with waits := s.ms.waits ++ v.waits.filter (!far ·) }
    eng := { s.eng with pantry := s.eng.pantry ++ v.pantry, tasks := s.eng.tasks ++ v.tasks } }
  let s := es.foldl (fun s e => s.setEngine e { s.engine e with
    jobs := (s.engine e).jobs ++ of v.jobs e, subs := (s.engine e).subs ++ of v.subs e }) s
  let s := (v.jobs ++ v.subs).foldl (fun s j => s.refill j.2) s
  let s := (v.waits.filter far).foldl (fun s w => s.requeue ⟨w.die, w.dom, w.pri, w.recA⟩) s
  let s := v.ckpts.foldl State.requeue s
  let s := { s with ms := { s.ms with pins := s.ms.pins ++ v.pins.filter (fun p => p.far.any s.pkgLive) } }
  v.compacts.foldl (fun s c => s.restoreCompact v.pins c) s
/-- Stores that a rollback itself makes take no entry: the lines keep the stamps of the sealed interval, and CUSE is 0 (21:R273 step 8). -/
def State.untag (s : State) (n : Nat) : State :=
  let es := s.ms.cellar.filter (·.node == n)
  let stamps := es.foldl (fun m e => setKey m e.line e.stamp) s.ms.stamps
  State.setRgs { s with ms := { s.ms with stamps := stamps, cellar := s.ms.cellar.filter (·.node != n) } } n { s.rgs n with cuse := 0 }
/-- H-mode accesses of the steward. -/
def stewardAcc : Acc := ⟨16 * noTile, noTile, 0, 0, .h, 0, false, none, false⟩
/-- WHERE of a fault at a place: the coordinate of the tile, where the place is one of its SRAM or register space (21:R275). -/
def whereOf (cause loc : Nat) : Nat :=
  if (cause = 2 ∨ cause = 3) ∧ regionOf (loc % 2 ^ 48) = .tiles then idxCoord ((loc % 2 ^ 48 - Config.tileSpace) / Config.slotSize) else loc
/-- A rollback log entry (21:R275). -/
def State.logRollback (s : State) (n cause pkg loc : Nat) : State :=
  let g := s.rgs n
  if g.logn = 0 then s
  else
    let at_ := g.logb + BitVec.ofNat 64 (32 * (g.logw.toNat % g.logn))
    let ws : List Word := [pack [(g.last, 32), (g.rin, 0)], pack [(cause, 56), (pkg % 16, 52), (whereOf cause loc % 2 ^ 52, 0)],
      Config.stewardCycle s.fresh, 0]
    let s := (s.engWrite stewardAcc (2 ^ 61) at_ (ws.flatMap (fun w => leBytes 8 w.toNat))).1
    (s.setRgs n { g with logw := g.logw + 1 }).tick
/-- No seal and no rollback of a partition is under way; REQ stands until the next commit (21:R269). -/
def Rgs.quiet (g : Rgs) : Rgs :=
  { g with
    roll := none, stopped := [], cmt := false, sealing := false, forced := false, late := false
    prepared := [], acked := [], arrived := [], laggards := [], next := Saved.none }
/-- The group cannot roll back (21:R274): its functions stop with their queues in ERROR, and its other packages hear of it. -/
def State.noRoll (s : State) (n pkg loc : Nat) (tell : Bool) : State :=
  let s := (s.stopGroup n).clearQueues n
  let s := (s.bound n).foldl (fun s f =>
    let s := (s.vcp f).queues.foldl State.dropCmds s
    let v := s.vcp f
    s.setVcp f { v with queues := v.queues.map (fun x => { x with state := 3, pass := none, pending := false, cmds := [] }) }) s
  let s := (s.setRgs n (s.rgs n).quiet).logRollback n 7 pkg loc
  if tell then (s.rgs n).peers.foldl (fun s p => s.emit (.rollback n p 7 pkg loc)) s else s
/-- The row of a DRAM offset, and the bank of a row, each with its stack (01:R10, 31:R346; log 33). -/
def rowOf (off : Nat) : Nat := 12 * Config.dramRow off + stackOf (off / Config.blockSize)
def bankOfRow (r : Nat) : Nat := 12 * Config.dramBank (r / 12) + r % 12
/-- A DRAM row is spared; a bank without a spare left retires its capacity block (31:R346). -/
def State.spareRow (s : State) (off : Nat) : State :=
  let r := rowOf off
  let b := off / Config.blockSize
  if (s.pl.spared.filter (fun x => bankOfRow x == bankOfRow r)).length < 8 then
    { s with pl := { s.pl with spared := s.pl.spared ++ [r] } }
  else
    let w := s.pl.bret.getD (b / 64) 0
    { s with pl := { s.pl with bret := s.pl.bret.set (b / 64) (w ||| 2 ^ (b % 64)) } }
/-- A row that is spared for an uncorrectable error holds none any more, and its lines outside every group read zero (31:R346). -/
def State.zeroRow (s : State) (off : Nat) : State :=
  let row (a : Nat) : Bool := a < Config.dramEnd && rowOf a == rowOf off
  let hit (a : Nat) : Bool := row a && (s.coverOf a).isNone
  { s with ms := { s.ms with
      mem := s.ms.mem.filter (fun c => !hit c.1), errs := s.ms.errs.filter (fun u => !row u)
      under := s.ms.under.filter (fun u => !hit u.1) } }
/-- What failed on this package is spared or retired (21:R273 step 6, 31:R346-R347). WHERE of an SRAM or register-space error is a tile's
coordinate, or the address in its SRAM (21:R275). -/
def State.spareAt (s : State) (cause pkg loc : Nat) : State :=
  if pkg ≠ s.me then s
  else if cause = 1 then (s.spareRow (loc % 2 ^ 48)).zeroRow (loc % 2 ^ 48)
  else if cause = 2 ∨ cause = 3 then
    (match (if regionOf (loc % 2 ^ 48) = .tiles then some ((loc % 2 ^ 48 - Config.tileSpace) / Config.slotSize) else coordIdx (loc % 2048)) with
      | some i => s.retireTile i
      | none => s)
  else s
/-- Data that cannot be read back: a cellar entry of the group, or a place in its cellar blocks (21:R274). -/
def State.cellarBad (s : State) (n : Nat) : Bool :=
  s.ms.cellar.any (fun e => e.node == n && (match s.cellarSlot n e.seq with
    | some a => s.badAt a 256
    | none => false))
def State.inCellar (s : State) (n pkg loc : Nat) : Bool :=
  pkg == s.me && regionOf (loc % 2 ^ 48) == .dram && (s.cellarBlocks n).contains (loc % 2 ^ 48 / Config.blockSize)
/-- Some bytes of a record or of its save area are uncorrectable (21:R274). -/
def State.sysBad (s : State) (f : Nat) (va : Word) (n : Nat) : Bool := match s.sysPieces f .read va n with
  | .ok (ps, _) => ps.any (fun p => p.pkg == s.me && s.badAt p.off p.n)
  | .error _ => false
def State.checkpointBad (s : State) (r : Nat × Word) : Bool :=
  s.sysBad r.1 r.2 64 || (match s.sysWord r.1 (r.2 + 16) with
    | .ok w => s.sysBad r.1 (addr52 (bits w 51 10 * 1024)) ((bits w 63 57) * 1024 + 256)
    | .error _ => false)
def Saved.recs (v : Saved) : List (Nat × Word) :=
  v.ckpts.map (fun e => (e.dom, e.recA)) ++ v.compacts.flatMap (fun c => c.2.members.flatMap (fun m => m.recs.map (fun r => (c.2.dom, r.2))))
/-- A coordinator with every acknowledgement of COMMIT knows the interval as sealed (21:R268). -/
def State.settleCommit (s : State) (n : Nat) : State := if (s.rgs n).cmt && s.coordinator n == s.me then s.applySealed n else s
/-- A rollback of a group starts, or starts again (21:R273-R274): ROLLING is set, and everything stops. The package where its cause is
tells the others. -/
def State.rollFrom (s : State) (n cause pkg loc : Nat) : State :=
  if (s.rgs n).ccap = 0 || s.inCellar n pkg loc then s.noRoll n pkg loc true
  else
    let s := match (s.rgs n).roll with
      | some _ => s.spareAt cause pkg loc
      | none => s.setRgs n { s.rgs n with roll := some ⟨cause, pkg, loc⟩ }
    let s := (s.stopGroup n).clearQueues n
    if pkg = s.me then (s.rgs n).peers.foldl (fun s p => s.emit (.rollback n p cause pkg loc)) s else s
def State.rollBack (s : State) (n cause pkg loc : Nat) : State := (s.settleCommit n).rollFrom n cause pkg loc
/-- Stores of a stopped group are no longer on their way: its other packages are told that this one has stopped (21:R273 step 1). -/
def State.rollStops (s : State) (n : Nat) : Option State :=
  let g := s.rgs n
  if g.roll.isNone || g.stopped.any (·.1 == s.me) || s.pl.posted.any (·.node == n) then none
  else some (g.peers.foldl (fun s p => s.emit (.stopped n p g.rin g.cmt)) (s.setRgs n { g with stopped := (s.me, g.rin, g.cmt) :: g.stopped }))
/-- A queue restarts at its last completed fence (21:R277). -/
def State.replayQueues (s : State) (n : Nat) : State :=
  (s.bound n).foldl (fun s f =>
    let s := (s.vcp f).queues.foldl State.dropCmds s
    let v := s.vcp f
    let back (x : Queue) : Queue :=
        let x := { x with qrd := x.fence, cmds := [], pass := none }
        if x.state = 1 ∨ x.state = 2 then { x with pending := true, state := 1 } else x
    (s.setVcp f { v with queues := v.queues.map back }).postEvent f 6 (BitVec.ofNat 64 (s.rgs n).rin)) s
/-- Steps 2 to 8 of a rollback on this package (21:R273-R277); threads, jobs and compacts do not resume in a replay. -/
def State.rollTo (s : State) (n : Nat) (r : Roll) : State :=
  let g := s.rgs n
  let sealed := g.last
  let bad := s.cellarBad n
  let s := (s.dropLines (s.lineOfNode n) true).applyCellar n sealed
  let ms := { s.ms with
    tlb := s.ms.tlb.filter (fun t => s.nodeOf t.fn != some n)
    larder := s.ms.larder.filter (fun e => e.node != n || e.rin != g.rin)
    pins := s.ms.pins.filter (fun p => p.far.isNone || !s.lineOfNode n p.line) }
  let s := { s with ms := ms }
  if bad || g.saved.recs.any s.checkpointBad then s.noRoll n r.pkg r.loc true
  else
    let s := ((s.zeroScratch n).clearQueues n).spareAt r.cause r.pkg r.loc
    let s := s.setRgs n { g.quiet with cuse := 0 }
    let s := if r.cause = 8 then s else s.restoreSaved g.saved
    let s := ((s.untag n).countCellar n).retireLate n
    let s := s.setRgs n { s.rgs n with rolls := (g.rolls + 1) % 2 ^ 32 }
    let s := s.logRollback n r.cause r.pkg r.loc
    let s := (s.bound n).foldl (fun s f => s.postEvent f 5 (pack [(sealed, 32), (g.rin, 0)])) s
    if r.cause = 8 then s.replayQueues n else s
/-- The rest of a rollback, once every package of the group has stopped (21:R273). An interval that one of them knows as sealed, or whose
COMMIT all of them hold, is sealed first; the lowest-numbered package tells the others so (21:R268, R274, 29:R330 step 2). -/
def State.finishRoll (s : State) (n : Nat) : Option State :=
  let g := s.rgs n
  match g.roll with
  | none => none
  | some r =>
    if !(s.groupPkgs n).all (fun p => g.stopped.any (·.1 == p)) then none
    else
      let behind := g.stopped.filter (fun p => p.2.2)
      let known := behind.any (fun q => g.stopped.all (fun p => p.2.2) || g.stopped.any (fun p => !p.2.2 && p.2.1 != q.2.1))
      let first := s.coordinator n == s.me
      if known && first then
        let s := (behind.filter (·.1 != s.me)).foldl (fun s p => s.emit (.steward 4 n p.1)) s
        let s := s.setRgs n { g with stopped := g.stopped.map (fun p => (p.1, p.2.1, false)) }
        if g.cmt then some (s.applySealed n) else some (s.rollTo n r)
      else if g.cmt && known then none
      else some (s.rollTo n r)
/-- A unit of memory in which an uncorrectable error strikes (21:R273). -/
def State.strike (s : State) (off : Nat) : State :=
  let u := off / 192 * 192
  if s.ms.errs.contains u then s else { s with ms := { s.ms with errs := s.ms.errs ++ [u] } }
/-- A byte of a tile's register space in which an uncorrectable error strikes (21:R273). -/
def State.strikeReg (s : State) (tile o : Nat) : State :=
  if s.ms.regErrs.contains (tile, o) then s else { s with ms := { s.ms with regErrs := s.ms.regErrs ++ [(tile, o)] } }
/-- ROLLBACK (21:R273): a detected error, a loss or an order of another package starts the rollback of a partition's group, and with cause 0
the one in progress goes on; with cause 7 another package says that the group cannot roll back (R274); of node 0 it is an error of data on this package, to be detected when they are read: at `loc`, of a register space in the tile whose coordinate is
`loc` modulo 2048, at byte `loc` / 2048. -/
def State.rollStep (s : State) (n cause pkg loc : Nat) : Option State :=
  if !s.isPart n then
    (if pkg ≠ s.me then none
     else if cause = 1 ∨ cause = 2 then some (s.strike (loc % 2 ^ 48))
     else if cause = 3 then (coordIdx (loc % 2048)).map (fun i => s.strikeReg i (loc / 2048))
     else none)
  else if cause = 7 then some (s.noRoll n pkg loc false)
  else if cause = 0 then (match s.rollStops n with
    | some s => some s
    | none => s.finishRoll n)
  else some (s.rollBack n cause pkg loc)
/-- ROLLBACK (21:R273). -/
def execRollback (node cause pkg loc : Nat) (s : State) : Host.Outcome State Fault Refusal := unitStep s (s.rollStep node cause pkg loc)
/-- A partition's replay: a rollback after which nothing resumes (21:R277). -/
def State.replayNode (s : State) (n : Nat) : State := s.rollBack n 8 s.me 0
/-- REPLAY: a forced seal has not committed in time, or the steward finds its scheduler state inconsistent (21:R277); when either happens is
not this model's to say (log 1). -/
def execReplay (node : Nat) (s : State) : Host.Outcome State Fault Refusal :=
  unitStep s (if s.isPart node then some (s.replayNode node) else none)
/-- The oldest uncompleted command of a queue (23:R292). -/
def State.oldest (s : State) (f q : Nat) : Option Nat :=
  let x := (s.vcp f).queue q
  match x.cmds with
  | c :: _ => some c.idx
  | [] => if x.pass.isSome then some x.qrd else none
/-- A queue hangs, by the HTO that its last pass has read; a function that is not bound has no partition to replay (23:R278, R280, R292). -/
def State.hangs (s : State) (f q : Nat) : Option State :=
  match s.oldest f q with
  | none => none
  | some i =>
    if bits ((s.vcp f).queue q).seen.toNat 47 32 = 0 || s.slicedOut f then none
    else
      let s := s.postEvent f 4 (pack [(q, 32), (i, 0)])
      let s := if f = 0 then s else s.postEvent 0 4 (pack [(q, 32), (i, 0)])
      some (match s.nodeOf f with
        | some n => s.replayNode n
        | none => s)
/-- HANG (23:R292). -/
def execHang (fn q : Nat) (s : State) : Host.Outcome State Fault Refusal := unitStep s (s.hangs fn q)
/-- A store that held for its full larder is tried again, once there is room (21:R271). -/
def State.larderRoom (s : State) (tid : Nat) : Option State :=
  match s.thread? tid with
  | some t => if t.flow.hold == 3 && decide (s.larderUsed (dieOf t.tile) < larderSize) then some (s.turnTo tid) else none
  | none => none
/-- LARDER_ROOM (21:R271). -/
def execLarderRoom (tid : Nat) (s : State) : Host.Outcome State Fault Refusal := unitStep s (s.larderRoom tid)
/-- What the steward of another package says of a partition's group (21:R263, R267-R269; the kinds of OutMsg.steward). -/
def State.told (s : State) (kind n pkg : Nat) : State :=
  let g := s.rgs n
  if !s.isPart n || !g.peers.contains pkg then s
  else match kind with
    | 7 => (s.bound n).foldl (fun s f => s.postEvent f 1 (BitVec.ofNat 64 g.rin)) s
    | 8 => if g.roll.isSome then s else s.setRgs n { g with sealing := true }
    | 9 => if g.roll.isSome then s else s.setRgs n { g with forced := true, sealing := true }
    | 11 =>
      let s := s.setRgs n { g with peers := g.peers.filter (· != pkg) }
      if g.sealing && !g.cmt then s.tryCommit n else s
    | _ => s
/-- Another package of a group has stopped for a rollback (21:R273). -/
def State.toldStopped (s : State) (n pkg rin : Nat) (cmt : Bool) : State :=
  let g := s.rgs n
  if g.peers.contains pkg && !g.stopped.any (·.1 == pkg) then s.setRgs n { g with stopped := (pkg, rin, cmt) :: g.stopped } else s
/-- The packages of a group as another one knows them, with its RIN and its ROLLS (21:R263-R264). -/
def State.toldGroup (s : State) (n : Nat) (pkgs : List Nat) (rin rolls : Nat) : State :=
  if s.isPart n then (s.riseTo n rin rolls).joinPeers n pkgs else s

-- Cache maintenance ---------------------------------------------------------------------------------------------------

/-- The lines that a range touches, after the checks of every line (13:R199): each as a piece of a whole line. -/
def State.rangeLines (s : State) (k : AccKind) (va : Word) (n : Nat) : Except Trap (List Piece × List Piece × State) :=
  match s.pieces s.th.acc k va n with
  | .error t => .error t
  | .ok (ps, s) => .ok (ps, ((ps.filterMap (fun p =>
      if regionOf p.off == .dram then (lineOf p.off).map (fun l => (⟨p.va, p.pa - p.off + l, 192, 0⟩ : Piece)) else none))), s)
/-- A range that wraps past 2^64. -/
def wraps (va n : Word) : Bool := 2 ^ 64 < va.toNat + n.toNat
/-- The answer of a line's home on another package to what an instruction has asked of it in its round `k` (13:R199, 29:R323). -/
def Thread.lineAsked (t : Thread) (k : Nat) (p : Piece) : Option HeldRead := t.flow.heldReads.find? (fun h => h.n == k && h.pa == p.pa)
/-- Asks the homes of lines on other packages. -/
def State.askHomes (s : State) (r : ReqKind) (k : Nat) (ps : List Piece) : State :=
  ps.foldl (fun s p =>
    if (s.th.lineAsked k p).isSome then s
    else
      let (tag, s) := s.request s.th.acc r p []
      { s with th := { s.th with flow := { s.th.flow with heldReads := s.th.flow.heldReads ++ [⟨p.pa, k, tag, 0, none⟩] } } }) s
/-- One round of an instruction with those homes: what it does until all have answered, or one has refused. -/
def State.homesAnswer (s : State) (r : ReqKind) (k : Nat) (ps : List Piece) : Option Done :=
  match ps.find? (fun p => !s.pkgLive p.pkg) with
  | some p => some (.trap ⟨.notile, 0, p.va⟩)
  | none =>
    if ps.any (fun p => (s.th.lineAsked k p).isNone) then some (.hold 2 (s.askHomes r k ps))
    else if ps.any (fun p => ((s.th.lineAsked k p).bind (·.reply)).isNone) then some (.hold 2 s)
    else (ps.findSome? (fun p => ((s.th.lineAsked k p).bind (·.reply)).bind (fun x => replyTrap x.1 p.va p.pa))).map .trap
/-- The pin that holds a line of this package or of another, as this one knows it. -/
def State.pinOf (s : State) (p : Piece) : Option Pin := if p.pkg = s.me then s.pinOfHome p.off else s.pinOfFar p.pa
/-- DISCARD of one line of this package at its home: a tagged store that drops every copy (13:R199, 21:R265). -/
def State.discardLine (s : State) (dom rin line : Nat) (exempt : Bool) : State :=
  match s.tagged dom line rin line exempt with
  | .ok s => (s.dropLines (· == line) true).wakeLine line
  | .stall => s
  | .roll s => s
/-- DISCARD (13:R199): no line is acted on where one is pinned. -/
def execDiscard (m : Mark) (a b : Reg) (s : State) : Host.Outcome State Fault Refusal :=
  s.issue (.discard m a b) (fun s =>
    let t := s.th
    if wraps (t.gr a) (t.gr b) then .trap ⟨.illstate, 0, t.pc⟩
    else match s.rangeLines .write (t.gr a) (t.gr b).toNat with
      | .error x => .trap x
      | .ok (ps, ls, s) =>
        if s.accessWaits t.acc ps then .hold 2 s
        else match ls.find? (fun l => (s.pinOf l).isSome) with
          | some l => .trap ⟨.cprot, 0, l.va⟩
          | none =>
            let far := ls.filter (fun l => l.pkg != s.me)
            match s.homesAnswer .check 1 far with
            | some d => d
            | none =>
              let made := far.any (fun l => (t.lineAsked 2 l).isSome)
              match (if made then none else s.storeBlock t.acc ls) with
              | some s => .hold 3 s
              | none =>
                let near := ls.filter (fun l => l.pkg == s.me)
                let s := if made then s else near.foldl (fun s l => s.discardLine t.dom (s.rinOf t.dom) l.off (s.memberOf t.tid).isSome) s
                (s.homesAnswer .discard 2 far).getD (.ok s))
/-- CWB (13:R199): a member's own pinned lines go home, and stay pinned. -/
def execCwb (m : Mark) (a b : Reg) (s : State) : Host.Outcome State Fault Refusal :=
  s.issue (.cwb m a b) (fun s =>
    let t := s.th
    if wraps (t.gr a) (t.gr b) then .trap ⟨.illstate, 0, t.pc⟩
    else match s.rangeLines .read (t.gr a) (t.gr b).toNat with
      | .error x => .trap x
      | .ok (ps, ls, s) =>
        if s.accessWaits t.acc ps then .hold 2 s
        else match s.homesAnswer .clean 1 (ls.filter (fun l => l.pkg != s.me && (s.pinOf l).isNone)) with
          | some d => d
          | none =>
            let own := (ls.filterMap s.pinOf).filter (s.ownsPin t.tid)
            let s := ls.foldl (fun s l => match s.pinOf l with
              | some p =>
                if s.ownsPin t.tid p then
                  let s := s.writeBackPin t.dom ((s.nodeOf t.dom).getD 0) p false
                  { s with ms := { s.ms with pins := s.ms.pins.map (fun (q : Pin) => if q.line = p.line && q.far.isNone then { q with dirty := 0 } else q) } }
                else s
              | none => if l.pkg = s.me then s.cleanLines (· == l.off) else s) s
            if own.any (fun p => s.pl.posted.any (·.tid == 2 ^ 60 + p.bar)) then .hold 2 s else .ok s)
/-- CINV (13:R199): pinned lines are skipped. -/
def execCinv (m : Mark) (a b : Reg) (s : State) : Host.Outcome State Fault Refusal :=
  s.issue (.cinv m a b) (fun s =>
    let t := s.th
    if wraps (t.gr a) (t.gr b) then .trap ⟨.illstate, 0, t.pc⟩
    else match s.rangeLines .read (t.gr a) (t.gr b).toNat with
      | .error x => .trap x
      | .ok (ps, ls, s) =>
        if s.accessWaits t.acc ps then .hold 2 s
        else
          let free := ls.filter (fun l => (s.pinOf l).isNone)
          match s.homesAnswer .inval 1 (free.filter (fun l => l.pkg != s.me)) with
          | some d => d
          | none => .ok ((free.filter (fun l => l.pkg == s.me)).foldl (fun s l => s.dropLines (· == l.off) false) s))

end Sys2Proof.Machine
end

