-- ==== Sys2Proof/Machine/System.lean ====
section
/-! DEFINITION. System instructions of the thread: traps and returns, call gates, contexts, translation, watchdog, killing, state
registers (15:R203-R216, 05:R62-R64, 07:R92, 11:R148). -/

namespace Sys2Proof.Machine
open Sys2Proof

-- TRAP, SVC, ERET, HALT -----------------------------------------------------------------------------------------------

/-- TRAP (15:R208). -/
def execTrap (m : Mark) (n : BitVec 15) (s : State) : Host.Outcome State Fault Refusal :=
  s.issue (.trap m n) (fun _ => .trap ⟨.swtrap, 0, n.setWidth 64⟩)
/-- SVC (15:R208). -/
def execSvc (m : Mark) (n : BitVec 15) (s : State) : Host.Outcome State Fault Refusal :=
  s.issue (.svc m n) (fun s =>
    if s.th.priv = .h then .trap ⟨.illstate, 0, s.th.pc⟩ else .trapAt ⟨.svc, 0, n.setWidth 64⟩ (s.th.pc + 4))
/-- ERET (15:R209). -/
def execEret (m : Mark) (s : State) : Host.Outcome State Fault Refusal := s.issue (.eret m) (fun s => s.returnTrap)
/-- HALT (15:R203): below H the privilege trap; in H the spec gives it no effect. -/
def execHalt (m : Mark) (s : State) : Host.Outcome State Fault Refusal := s.issue (.halt m) (fun _ => .refuse .haltUnstated)

-- Call gates ----------------------------------------------------------------------------------------------------------

/-- A gate descriptor (15:R210). -/
structure Gate where
  entry : Word
  stk : Word
  sstr : Nat
  tdom : Nat
  gran : Nat
  woff : Nat
  pass : Nat
  ret : Nat
  priv : Priv
  deriving DecidableEq, Repr

/-- A descriptor's fields, none where it is not valid (15:R210-R211). -/
def gateOf (bs : List Byte) : Option Gate :=
  let w := wordAt bs
  let x := w 3
  let g : Gate := ⟨BitVec.ofNat 64 (w 0), BitVec.ofNat 64 (w 1), bits (w 2) 31 0, bits x 63 54, bits x 53 47, bits x 46 38,
    bits x 37 33, bits x 32 28, if bits x 27 26 = 0 then .u else .s⟩
  if bitOf x 0 && bits x 25 1 == 0 && bits (w 2) 63 32 == 0 && w 0 % 4 == 0 && g.sstr % 64 == 0 && 1 ≤ g.gran && g.gran ≤ 64 &&
     bits x 27 26 ≤ 1 then some g else none
/-- The thread inside the call (15:R211): `i` is the gate, `base` the callee's window base. -/
def Thread.enterGate (t : Thread) (i : Nat) (g : Gate) (base : Nat) : Thread :=
  let c : Caller := ⟨i, t.pc + 4, t.regs, t.win, t.gran, t.wbase, t.guards, t.lp0, t.lp1, t.lps, t.vv, t.va, t.vx, t.fx, t.dom, t.priv, g.ret⟩
  { t with
    dom := g.tdom, priv := g.priv, gran := g.gran, wbase := base
    regs := Vector.ofFn (fun (k : Fin 32) =>
      if k.val = 0 then 0 else if k.val = 31 then 0
      else if k.val = 30 then g.stk + BitVec.ofNat 64 ((t.tile + 1) * g.sstr)
      else if k.val ≤ g.pass then t.regs[k.val] else 0)
    win := [], guards := List.replicate 7 .fls, lp0 := .none, lp1 := .none, lps := 0, vv := 0, va := 0, vx := 0, fx := 0
    caller := some c }
/-- GATE (15:R210-R211); a call into a group that nothing starts in waits as well (19:R262, 21:R273). -/
def execGate (m : Mark) (a : Reg) (s : State) : Host.Outcome State Fault Refusal :=
  s.issue (.gate m a) (fun s =>
    let t := s.th
    let i := t.gr a
    let cfg := s.cfg t.dom
    if cfg.gcnt ≤ i.toNat then .trap ⟨.illstate, 0, i⟩
    else (s.ldHeld { t.acc with fn := 0, priv := .h } .read (cfg.gtab + 32 * i) 32).andThen (fun bs s =>
      match gateOf bs with
      | none => .trap ⟨.illstate, 0, i⟩
      | some g =>
        match (s.tile t.tile).dp? g.tdom with
        | none => .trap ⟨.illstate, 0, i⟩
        | some (_, d) =>
          if t.caller.isSome || d.rlen < g.woff + g.gran then .trap ⟨.illstate, 0, i⟩
          else if (s.tile t.tile).gates.contains (t.dom, i.toNat) || s.atRest g.tdom then .wait .waiting s
          else
            let s := s.setTile t.tile { s.tile t.tile with gates := (s.tile t.tile).gates ++ [(t.dom, i.toNat)] }
            .jump .skip g.entry { s with th := s.th.enterGate i.toNat g (d.rbase + g.woff) }))
/-- The caller goes on with the registers passed back (15:R212). -/
def Thread.leaveGate (t : Thread) : Thread := match t.caller with
  | none => t
  | some c =>
    { t.callerBack with regs := Vector.ofFn (fun (k : Fin 32) =>
        if k.val ≠ 0 ∧ k.val ≤ c.pass then t.regs[k.val] else c.regs[k.val]) }
/-- A command of a call that has ended, or, with `all`, of a thread that has. -/
def MCmd.gone (c : MCmd) (all : Bool) : MCmd :=
  let off (o : Nat) : Nat := if all || 2 ^ 20 ≤ o then o % 2 ^ 20 + 2 ^ 21 else o
  match c with
  | .mzero a o => .mzero a (off o)
  | .mma a o x y k => .mma a (off o) x y k
  | c => c
/-- Outstanding results of a call that returns have no destination any more; the faults they bring are kept (15:R212; DESIGN CHOICE,
log 73). -/
def lostResults : List Outst → State → List Outst × State
  | [], s => ([], s)
  | o :: os, s =>
    let (src, ft, s) : Src × Option Trap × State := match o.src with
      | .parts ps _ => (.parts ps .raw, none, s)
      | .jobState _ => (let r := s.srcResult s.th o.src; (.parts [] .raw, r.2.2.1, r.2.2.2))
      | _ => (.parts [] .raw, none, s)
    let r := lostResults os s
    ({ o with g := 0, win := [], src := src, fault := o.fault.or ft } :: r.1, r.2)
/-- A call ends: commands bound to the callee's accumulators write no window any more (15:R212; log 27). -/
def State.endCall (s : State) (t : Thread) : State :=
  let gone (e : MEntry) : MEntry := if e.tid = t.tid then { e with cmd := e.cmd.gone false } else e
  let unitOf (x : Tile) : Tile := { x with mrun := x.mrun.map (fun r => { r with entry := gone r.entry }), mrecv := x.mrecv.map gone }
  State.freeGate { s with tiles := s.tiles.map (fun (p : Nat × Tile) => (p.1, unitOf p.2)) } t
/-- GRET (15:R212); its target obeys R84 as that of any transfer. It waits for no result of the call, as neither R35 nor R212 names it
(log 73); a SEALTO that the call has not taken goes with it (27:R316). -/
def execGret (m : Mark) (s : State) : Host.Outcome State Fault Refusal :=
  s.issue (.gret m) (fun s =>
    let t := s.th
    match t.caller with
    | none => .trap ⟨.illstate, 0, t.pc⟩
    | some c =>
      let r := lostResults t.flow.outs s
      let s := r.2
      let u := t.leaveGate
      let mq := u.flow.mq.map (fun (e : MEntry) => { e with cmd := e.cmd.gone false })
      .jump .call c.pc { s.endCall t with th := { u with flow := { u.flow with mq := mq, outs := r.1, asyncs := u.flow.asyncs.filter (·.cause != .sealto) } } })

-- Contexts ------------------------------------------------------------------------------------------------------------

/-- The word of an instruction as a trap value. -/
def wordVal (i : Instr) : Word := BitVec.ofNat 64 (wordOf i)
/-- A stop is requested of a thread with its gang. -/
def State.stopGang (s : State) (u : Thread) (k : Nat) : State :=
  s.mapThreads (fun t => if t.tid == u.tid || u.gangMate t then { t with flow := { t.flow with preempt := k } } else t)
def State.setCtx (s : State) (c : Option (Nat × Word × Bool)) : State := { s with th := { s.th with flow := { s.th.flow with ctx := c } } }
/-- CTXSV (15:R213). -/
def execCtxsv (m : Mark) (d a : Reg) (s : State) : Host.Outcome State Fault Refusal :=
  s.issue (.ctxsv m d a) (fun s =>
    let t := s.th
    let x := t.gr a
    let tid := t.tile * 16 + x.toNat
    match t.flow.ctx with
    | some (k, r, written) =>
      let here : Bool := match s.thread? k with
        | some u => u.info.addr == r
        | none => false
      let mates := s.threads.any (fun u => u.tile == t.tile && u.tid != t.tid && (u.flow.preempt == 2 || u.flow.leave == 4))
      if here || mates then .hold 2 s
      else .ok ((s.setCtx none).gw d (if written then r else 0))
    | none =>
      if 15 < x.toNat then .trap ⟨.illstate, 0, x⟩
      else if tid = t.tid then .trap ⟨.illstate, 0, t.pc⟩
      else match s.thread? tid with
        | none => .ok (s.gw d 0)
        | some u =>
          if t.priv = .s ∧ u.home ≠ t.dom then .trap ⟨.priv, 0, wordVal (.ctxsv m d a)⟩
          else if (s.memberOf tid).isSome then .trap ⟨.illstate, 0, t.pc⟩
          else .hold 2 ((s.stopGang u 2).setCtx (some (tid, u.info.addr, false))))
/-- CTXLD (15:R213; log 28): a record that cannot be read is one that fails its claim (03:R28), of the thread's own domain. -/
def execCtxld (m : Mark) (d a : Reg) (s : State) : Host.Outcome State Fault Refusal :=
  s.issue (.ctxld m d a) (fun s =>
    let t := s.th
    let recA := t.gr a
    if recA.toNat % 64 ≠ 0 then .trap ⟨.align, 0, recA⟩
    else match s.ldHeld t.acc .read recA 64 with
    | .trap x => if x.cause = .mcheck then .trap x else .ok ((s.postFatal t.dom recA x.cause.code).gw d 3)
    | .hold s => .hold 2 s
    | .refuse o => .refuse (.unassignedMmio o)
    | .ok rb s =>
      let f := bits (wordAt rb 1) 11 2
      if t.priv = .s ∧ f ≠ t.dom then .trap ⟨.priv, 0, wordVal (.ctxld m d a)⟩
      else if s.atRest f then .hold 2 s
      else if bits (wordAt rb 6) 63 62 = 1 then .trap ⟨.illstate, 0, t.pc⟩
      else match (s.freeSlots t.tile f).head? with
        | none => .ok (s.gw d 1)
        | some k => match s.loadRecord f recA (t.tile * 16 + k) with
          | .ok s => .ok (s.gw d 0)
          | .noRoom => .ok (s.gw d 1)
          | .lost => .ok (s.gw d 2)
          | .invalid s => .ok (s.gw d 3)
          | .cut code => .ok ((s.postFatal f recA code).gw d 3))

-- Translation and watchdog --------------------------------------------------------------------------------------------

/-- Functions whose translations a partition's TLBI names: those bound to it. -/
def State.partFns (s : State) (f : Nat) : List Nat := match s.nodeOf f with
  | some n => s.bound n
  | none => [f]
/-- An access of the package with a tag below the limit has not completed. -/
def State.olderAccess (s : State) (lim : Nat) : Bool :=
  s.pl.posted.any (fun p => p.tag < lim) ||
    s.threads.any (fun t => t.flow.heldReads.any (fun h => h.reply.isNone && h.tag < lim) ||
      t.flow.outs.any (fun o => o.src.tags.any (· < lim)))
/-- TLBI: FENCE.rel, the entries that `p` selects go, walks of the functions `fs` use the roots as they stand, and every access
made before completes (15:R214, 17:R227). -/
def State.tlbi (s : State) (p : TlbEntry → Bool) (fs : Nat → Bool) : Done :=
  match s.th.flow.ctx with
  | some (_, lim, _) => if s.olderAccess lim.toNat then .hold 2 s else .ok (s.setCtx none)
  | none =>
    if !s.mayRelease s.th then .hold 2 s
    else
      let tcrs := s.st.tcrs.map (fun (x : Nat × Tcr) => if fs x.1 then (x.1, { x.2 with prev := [] }) else x)
      let s := { s with ms := { s.ms with tlb := s.ms.tlb.filter (fun e => !p e) }, st := { s.st with tcrs := tcrs } }
      if s.olderAccess s.fresh then .hold 2 (s.setCtx (some (2 ^ 20, BitVec.ofNat 64 s.fresh, true))) else .ok s
/-- TLBI.page (15:R214). -/
def execTlbiPage (m : Mark) (a : Reg) (s : State) : Host.Outcome State Fault Refusal :=
  s.issue (.tlbiPage m a) (fun s =>
    let fs := s.partFns s.th.dom
    let va := (s.th.gr a).toNat
    s.tlbi (fun e => fs.contains e.fn && e.page == va / 2 ^ e.shift) fs.contains)
/-- TLBI.part (15:R214). -/
def execTlbiPart (m : Mark) (b : Reg) (s : State) : Host.Outcome State Fault Refusal :=
  s.issue (.tlbiPart m b) (fun s =>
    let t := s.th
    if b = 0 then
      let fs := s.partFns t.dom
      s.tlbi (fun e => fs.contains e.fn) fs.contains
    else if t.priv = .s then .trap ⟨.priv, 0, wordVal (.tlbiPart m b)⟩
    else
      let n := bits (t.gr b).toNat 6 0
      if !s.isPart n then .trap ⟨.illstate, 0, t.pc⟩
      else
        let fs := s.bound n
        s.tlbi (fun e => fs.contains e.fn) fs.contains)
/-- TLBI.all (15:R214). -/
def execTlbiAll (m : Mark) (s : State) : Host.Outcome State Fault Refusal := s.issue (.tlbiAll m) (fun s => s.tlbi (fun _ => true) (fun _ => true))
/-- WDOG (15:R215). -/
def execWdog (m : Mark) (a b : Reg) (s : State) : Host.Outcome State Fault Refusal :=
  s.issue (.wdog m a b) (fun s =>
    let t := s.th
    let k := (t.gr a).toNat
    let e := (t.gr b).toNat
    let own : Bool := match (s.tile t.tile).dp? t.dom with
      | some (_, d) => bitOf d.tslot (k % 16)
      | none => false
    if 15 < k ∨ !(e = 0 ∨ (16 ≤ e ∧ e ≤ 32)) then .trap ⟨.illstate, 0, t.pc⟩
    else if t.priv = .s ∧ !own then .trap ⟨.priv, 0, wordVal (.wdog m a b)⟩
    else
      let x := s.tile t.tile
      .ok (s.setTile t.tile { x with wdnew := x.wdnew.set k (if e = 0 then 24 else e) }))

-- Killing -------------------------------------------------------------------------------------------------------------

/-- Stores of killed work that are on their way land, and are awaited by the thread numbered `k` (15:R216 step 4). -/
def State.adopt (s : State) (p : Nat → Bool) (k : Nat) : State :=
  let posted := s.pl.posted.map (fun (x : Posted) => if p x.tid then { x with tid := 2 ^ 60 + k } else x)
  let flags := s.pl.flags.map (fun (x : FlagWait) => if p x.tid then { x with tid := 2 ^ 60 + k } else x)
  let rests := s.pl.rests.map (fun (x : StoreRest) => if p x.acc.tid then { x with acc := { x.acc with tid := 2 ^ 60 + k } } else x)
  { s with pl := { s.pl with posted := posted, flags := flags, rests := rests } }
/-- A killed job ends DISCARDED or CANCELLED, without actions (15:R216 step 2). -/
def State.endKilled (s : State) (k : Nat) (p : Nat × JobEntry) : State :=
  let e := p.1
  let j := p.2
  if j.stage = 2 then s.dropJob e j.jid
  else
    let s := if j.card.toNat % 256 ≠ 0 then s
      else (s.writeStatus j.acc (jobTid e j.jid) j.card (if j.stage = 0 then 5 else 6) 0 0 j.jid 0).1
    (((s.dropJob e j.jid).completeKey (e, j.jid)).count (128 + e) j.dom 0 1).adopt (· == jobTid e j.jid) k
/-- The jobs that `p` selects end as killed. -/
def State.killJobs (s : State) (k : Nat) (p : JobEntry → Bool) : State :=
  (s.eng.engines.flatMap (fun e => (e.2.jobs.filter (fun j => j.win.isNone && p j)).map (fun j => (e.1, j)))).foldl (fun s x => s.endKilled k x) s
/-- Records of a domain that a seal in progress has taken are not part of it any more (21:R267). -/
def State.dropArrived (s : State) (f : Nat) (p : Word → Bool) : State :=
  let gone (e : RunEntry) : Bool := e.dom == f && p e.recA
  let cut (g : Rgs) : Rgs := { g with
    arrived := g.arrived.filter (!gone ·), laggards := g.laggards.filter (!gone ·)
    next := { g.next with ckpts := g.next.ckpts.filter (!gone ·), run := g.next.run.filter (!gone ·) } }
  { s with st := { s.st with rgs := s.st.rgs.map (fun (g : Nat × Rgs) => (g.1, cut g.2)) } }
/-- A resident thread is killed: its compact faults with KILLED at its next boundary (15:R216 steps 1-4). -/
def State.killThread (s : State) (k : Nat) (t : Thread) : State :=
  let s := match s.memberOf t.tid with
    | some (b, c, mb) => s.failCompact b { c with members := c.members.filter (fun x => x.tile != mb.tile) } 4
    | none => s
  let s := (s.setRecState t.home t.info.addr 4).dropArrived t.home (· == t.info.addr)
  let s := (s.killJobs k (fun j => j.who == t.who)).dropCauses t.who
  let cut (x : Tile) : Tile := { x with
    mrun := (x.mrun.filter (fun r => r.entry.tid != t.tid || !(r.entry.cmd.scaled && r.scales.length < r.entry.cmd.chunks))).map (fun r =>
      if r.entry.tid = t.tid then { r with entry := { r.entry with cmd := r.entry.cmd.gone true, sender := 2 ^ 60 + k } } else r) }
  let tiles := s.tiles.map (fun (p : Nat × Tile) => (p.1, cut p.2))
  let s := { s with pl := { s.pl with joins := delKey s.pl.joins t.tid } }
  (State.haltThread { s with tiles := tiles } t.tid).adopt (· == t.tid) k
/-- Records of a domain that wait for a seal as its laggards, or for a place as members of a CLAUNCH (21:R267, 23:R284). -/
def State.asideRecs (s : State) (f : Nat) : List Word :=
  (s.st.rgs.flatMap (fun g => g.2.laggards.filter (·.dom == f))).map (·.recA) ++
    (s.vcp f).queues.flatMap (fun x => x.cmds.flatMap (fun c => c.todo.map (·.1)))
/-- Records of a domain that `p` selects leave the run queues, the wait lists, pre-empted compacts, a seal and a CLAUNCH, EXITED. -/
def State.killRecords (s : State) (f : Nat) (p : Word → Bool) : State :=
  let rs := ((s.st.runq.filter (fun e => e.dom == f && p e.recA)).map (·.recA)) ++
    ((s.ms.waits.filter (fun w => w.dom == f && p w.recA)).map (·.recA)) ++ (s.asideRecs f).filter p
  let s := (s.setQueued (s.st.runq.filter (fun e => !(e.dom == f && p e.recA)))).dropArrived f p
  let s := { s with ms := { s.ms with waits := s.ms.waits.filter (fun w => !(w.dom == f && p w.recA)) } }
  let v := s.vcp f
  let left (c : Command) : Command := { c with todo := c.todo.filter (fun r => !p r.1) }
  let s := s.setVcp f { v with queues := v.queues.map (fun x => { x with cmds := x.cmds.map left }) }
  let hit (m : Member) : Bool := m.recs.any (fun r => p r.2)
  let away := s.eng.compacts.filter (fun c => c.2.preempted && c.2.dom == f && c.2.members.any hit)
  let more := away.flatMap (fun c => (c.2.members.filter hit).flatMap (fun m => m.recs.map (·.2)))
  let s := away.foldl (fun s c =>
    let left := c.2.members.filter (fun m => !hit m)
    let s := s.failCompact c.1 { c.2 with members := left } 4
    if left.isEmpty then s.dropCompact c.1 else s) s
  (rs ++ more).foldl (fun s r => (s.setRecState f r 4).dropCauses (f, r)) s
/-- Killed work whose stores and running matrix commands are awaited by thread `k` (15:R216 step 6); held stores stay held. -/
def State.killWaits (s : State) (k : Nat) : Bool :=
  !s.storesDone (2 ^ 60 + k) || s.tiles.any (fun p => p.2.mrun.any (fun r => r.entry.sender == 2 ^ 60 + k))
/-- The work of a function ends, but for the thread in slot `keep` (15:R216, 25:R310 step 2); its fills end with their windows
absent (log 29). -/
def State.killFunction (s : State) (f : Nat) (keep : Option Nat) : State :=
  let k := keep.getD (2 ^ 40 + f)
  let ts := s.threads.filter (fun t => t.home == f && some t.tid != keep)
  let s := ts.foldl (fun s t => s.killThread k t) s
  let kept := match keep with
    | some tid => (s.thread? tid).map (·.who)
    | none => none
  let s := s.killRecords f (fun _ => true)
  let s := s.killJobs k (fun j => j.dom == f && some j.who != kept)
  let s := s.dropJobs (fun j => j.dom == f && j.win.isSome)
  let cut (x : Tile) : Tile := { x with scq := x.scq.filter (fun e => e.dom != f) }
  let tiles := s.tiles.map (fun (p : Nat × Tile) => (p.1, cut p.2))
  let gone := s.eng.tasks.filter (fun (t : TaskNode) => t.dom == f)
  let tasks := s.eng.tasks.filter (fun (t : TaskNode) => t.dom != f)
  let pantry := s.eng.pantry.filter (fun (p : Nat × Nat) => !gone.any (fun (t : TaskNode) => p == (t.die, t.id)))
  let s := { s with tiles := tiles, eng := { s.eng with tasks := tasks, pantry := pantry } }
  gone.foldl (fun (s : State) (t : TaskNode) => (s.completeKey (1000 + t.die, t.id)).adopt (· == nodeTid t.die t.id) k) s
/-- KILL waits until its steps are done (15:R216 step 6). -/
def State.killDone (s : State) : Done :=
  if s.killWaits s.th.tid then .hold 2 (s.setCtx (some (2 ^ 20, 0, true))) else .ok (s.setCtx none)
/-- KILL (15:R216; log 28 for the record's address space). -/
def execKill (m : Mark) (a : Reg) (s : State) : Host.Outcome State Fault Refusal :=
  s.issue (.kill m a) (fun s =>
    let t := s.th
    let r := t.gr a
    if t.flow.ctx.isSome then s.killDone
    else (s.ldHeld t.acc .read r 64).andThen (fun rb s =>
      let f := bits (wordAt rb 1) 11 2
      let gang : Option Nat := if bits (wordAt rb 6) 63 62 = 1 then some (bits (wordAt rb 6) 31 16) else none
      if t.priv = .s ∧ f ≠ t.dom then .trap ⟨.priv, 0, wordVal (.kill m a)⟩
      else
        let hit (u : Thread) : Bool := u.home == f && (u.info.addr == r || (u.info.kind == 1 && some u.info.gang == gang))
        if hit t then .trap ⟨.illstate, 0, t.pc⟩
        else
          let ts := s.threads.filter hit
          let mate (x : Word) : Bool := gang.isSome && (match s.sysWord f (x + 48) with
            | .ok w => bits w 63 62 == 1 && some (bits w 31 16) == gang
            | .error _ => false)
          let ours := (ts.map (·.info.addr) ++ s.st.runq.map (·.recA) ++ s.ms.waits.map (·.recA) ++ s.asideRecs f ++
            s.eng.compacts.flatMap (fun c => c.2.members.flatMap (fun x => x.recs.map (·.2)))).filter (fun x => x == r || mate x)
          let s := ts.foldl (fun s u => s.killThread t.tid u) s
          let s := s.killRecords f (fun x => ours.contains x)
          let st := bits (wordAt rb 1) 14 12
          let s := if st = 1 ∨ st = 2 ∨ st = 3 then s.setRecState f r 4 else s
          (s.killJobs t.tid (fun j => (r :: ours).any (fun x => j.who == (f, x)))).killDone))
/-- KILL.dom (15:R216). -/
def execKillDom (m : Mark) (a : Reg) (s : State) : Host.Outcome State Fault Refusal :=
  s.issue (.killDom m a) (fun s =>
    let t := s.th
    let f := (t.gr a).toNat
    if t.flow.ctx.isSome then s.killDone
    else if 512 < f ∨ !(t.dom = 0 ∨ ((s.nodeOf f).isSome ∧ s.nodeOf f = s.nodeOf t.dom)) then .trap ⟨.illstate, 0, t.pc⟩
    else (s.killFunction f (some t.tid)).killDone)

/-- The configuration of a VF changes by H: a locked or running interface goes to ERROR and its work stops (29:R339). -/
def State.touchVf (s : State) (f : Nat) : State :=
  let k := lookupD s.pl.tdisp f 0
  if f = 0 ∨ !(k = 1 ∨ k = 2) then s
  else
    let s := { s with pl := { s.pl with tdisp := setKey s.pl.tdisp f 3 } }
    s.killFunction f (if s.th.live && s.th.home == f then some s.th.tid else none)

-- State registers -----------------------------------------------------------------------------------------------------

/-- Access of a mode to a state register: 0 none, 1 read, 2 read and write (15:R204). -/
def regMode (r : Nat) (p : Priv) : Nat :=
  if r = 3 ∨ r = 4 ∨ (0x10 ≤ r ∧ r ≤ 0x12) then 2
  else if r = 8 ∨ r = 9 ∨ r = 0xB ∨ (0x40 ≤ r ∧ r ≤ 0x45) then (if p = .u then 0 else 2)
  else if r ≤ 0xA ∨ (0x20 ≤ r ∧ r ≤ 0x3B) then 1
  else if 0x48 ≤ r ∧ r ≤ 0x4D then (if p = .h then 2 else 0)
  else if r = 0x70 then (if p = .u then 0 else 1)
  else if 0x80 ≤ r ∧ r ≤ 0x8F then (if p = .u then 1 else 2)
  else if p = .h then 1 else 0
/-- Index of the domain partition register of the running domain, 0 where it has none on the tile (DESIGN CHOICE, log 90). -/
def State.ownDp (s : State) : Nat := match (s.tile s.th.tile).dp? s.th.dom with
  | some (n, _) => n
  | none => 0
/-- The registers of domain partition registers that U and S read at their own index only (15:R204). -/
def State.foreignDp (s : State) (r : Nat) : Bool := s.th.priv != .h && 0x30 ≤ r && r ≤ 0x3B && r % 4 != s.ownDp
/-- Word `w` of a domain partition register (15:R219). -/
def Dp.word (d : Dp) (w : Nat) : Word := match w with
  | 0 => pack [(b2n d.v, 63), (d.dom, 47), (d.weight, 39), (d.tslot, 16), (d.banks, 0)]
  | 1 => BitVec.ofNat 64 d.scrb
  | 2 => pack [(d.rlen, 32), (d.cway, 16), (d.rbase, 0)]
  | _ => 0
/-- Registers of a trap bank by their place (15:R205-R206). -/
def TrapBank.reg (b : TrapBank) (k : Nat) (vec : Word) : Word := match k with
  | 0 => b.epc | 1 => b.estat | 2 => b.cause | 3 => b.tval | 4 => vec | _ => b.scr
/-- TS.TVEC of a mode for the running domain (15:R205). -/
def State.vecOf (s : State) (m : Priv) : Word := if m = .h then s.st.htvec else (s.cfg s.th.dom).svec
/-- What MFS reads (15:R204-R206, 11:R148). -/
def State.regRead (s : State) (r : Nat) : Word :=
  let t := s.th
  let x := s.tile t.tile
  if r = 0 then t.pc
  else if r = 1 then pack [(s.ownDp, 10), (t.dom, 0)]
  else if r = 2 then pack [(t.slot, 16), (s.pl.pkg, 11), (idxCoord t.tile, 0)]
  else if r = 3 then t.fx.setWidth 64
  else if r = 4 then t.oob
  else if r = 5 then BitVec.ofNat 64 (s.rinOf t.dom)
  else if r = 6 then x.cyc
  else if r = 7 then BitVec.ofNat 64 (x.wdexp.getD t.slot 24)
  else if r = 8 then BitVec.ofNat 64 t.lp0.code
  else if r = 9 then BitVec.ofNat 64 t.lp1.code
  else if r = 0xA then BitVec.ofNat 64 (qgWord t.guards)
  else if r = 0xB then t.lps
  else if r = 0x10 then t.vv
  else if r = 0x11 then t.va
  else if r = 0x12 then t.vx
  else if r ≤ 0x23 then BitVec.ofNat 64 (t.mu.wm.getD (r - 0x20) 32)
  else if r ≤ 0x27 then (t.mu.fx.getD (r - 0x24) 0).setWidth 64
  else if r ≤ 0x2B then BitVec.ofNat 64 (t.mu.own.getD (r - 0x28) 0)
  else if r = 0x2C then BitVec.ofNat 64 t.mu.rst
  else if r = 0x2D then x.loft
  else if r ≤ 0x33 then (let h := x.host.getD (r - 0x30) (false, 0); pack [(b2n h.1, 4), (h.2, 0)])
  else if r ≤ 0x37 then BitVec.ofNat 64 (x.cuse.getD (r - 0x34) 0)
  else if r ≤ 0x3B then BitVec.ofNat 64 (x.cep.getD (r - 0x38) 0)
  else if r ≤ 0x45 then (t.bank t.priv).reg (r - 0x40) (s.vecOf t.priv)
  else if r ≤ 0x4D then t.sb.reg (r - 0x48) (s.vecOf .s)
  else if r ≤ 0x6F then (x.dps.getD ((r - 0x60) / 4) .reset).word (r % 4)
  else if r = 0x70 then pack [(s.pl.group.getD 0, 32), (b2n s.pl.group.isSome, 31), (s.pl.agr, 16), (s.pl.hceil, 8), (s.pl.cur, 0)]
  else if r ≤ 0x87 then t.cnt.getD (r - 0x80) 0
  else if r ≤ 0x8F then t.sel.getD (r - 0x88) 0
  else BitVec.ofNat 64 (s.l2mask (r - 0x400))

/-- A pair of hardware loops that R27 allows. -/
def loopsOk (l0 l1 : Loop) : Bool :=
  !(l0.act && l0.creg == 0) && !(l1.act && (l1.creg == 0 || !l0.act || l0.len < l1.off + l1.len))
/-- A trap bank with one of its registers written, none for a value its map forbids (15:R206). -/
def TrapBank.put (b : TrapBank) (k : Nat) (x : Word) : Option TrapBank := match k with
  | 0 => some { b with epc := x }
  | 1 => if x.toNat < 16 ∧ bits x.toNat 1 0 ≠ 3 then some { b with estat := x } else none
  | 2 => if x.toNat < 65536 then some { b with cause := x } else none
  | 3 => some { b with tval := x }
  | _ => some { b with scr := x }
/-- Writes TS.TVEC of a mode: SVEC of the domain, or the package's H vector (15:R205). -/
def State.putVec (s : State) (m : Priv) (x : Word) : Option State :=
  if x.toNat % 4 ≠ 0 then none
  else if m = .h then some { s with st := { s.st with htvec := x } }
  else some { s with st := { s.st with cfgs := setKey s.st.cfgs s.th.dom { s.cfg s.th.dom with svec := x } } }
/-- What MTS writes, none for a value that the register's map forbids (15:R204-R206, 07:R92, 25:R306). -/
def State.regWrite (s : State) (r : Nat) (x : Word) : Option State :=
  let t := s.th
  let put (u : Thread) : Option State := some { s with th := u }
  if r = 3 then (if x.toNat < 64 then put { t with fx := x.setWidth 6 } else none)
  else if r = 4 then put { t with oob := x }
  else if r = 8 then
    (if x.toNat < 2 ^ 32 ∧ bits x.toNat 25 13 = 0 ∧ loopsOk (Loop.of x.toNat) t.lp1 = true then put { t with lp0 := Loop.of x.toNat } else none)
  else if r = 9 then
    (if x.toNat < 2 ^ 32 ∧ loopsOk t.lp0 (Loop.of x.toNat) = true then put { t with lp1 := Loop.of x.toNat } else none)
  else if r = 0xB then (if canonical x = true ∧ x.toNat % 4 = 0 then put { t with lps := x } else none)
  else if r = 0x10 then (if vvOk x t.gran then put { t with vv := x } else none)
  else if r = 0x11 then (if vaOk x t.gran then put { t with va := x } else none)
  else if r = 0x12 then (if vxOk x t.gran then put { t with vx := x } else none)
  else if r = 0x44 then s.putVec t.priv x
  else if r = 0x4C then s.putVec .s x
  else if 0x40 ≤ r ∧ r ≤ 0x45 then ((t.bank t.priv).put (r - 0x40) x).bind (fun b => put (t.setBank t.priv b))
  else if 0x48 ≤ r ∧ r ≤ 0x4D then (t.sb.put (r - 0x48) x).bind (fun b => put { t with sb := b })
  else if 0x80 ≤ r ∧ r ≤ 0x87 then (if x.toNat < 2 ^ 48 then put { t with cnt := t.cnt.set (r - 0x80) x } else none)
  else if 0x88 ≤ r ∧ r ≤ 0x8F then
    (if x.toNat < 2 ^ 11 ∧ bits x.toNat 8 8 = 0 ∧ bits x.toNat 7 0 ≤ 13 then put { t with sel := t.sel.set (r - 0x88) x } else none)
  else none
/-- MFS (15:R204); of TS.FX once a remote ACVT of the thread has brought its flags, as R63 says of an AFADD (DEDUCED, log 85). -/
def execMfs (m : Mark) (d : Reg) (r : BitVec 11) (s : State) : Host.Outcome State Fault Refusal :=
  s.issue (.mfs m d r) (fun s =>
    let n := r.toNat
    if regMode n s.th.priv = 0 ∨ s.foreignDp n = true then .trap ⟨.priv, 0, wordVal (.mfs m d r)⟩
    else if n = 3 ∧ (s.th.awaitsFlags || s.acvtOut s.th) then .hold 2 s
    else if 0x24 ≤ n ∧ n ≤ 0x27 ∧ s.accRunning s.th (n - 0x24) then .hold 1 s
    else
      let s := if n = 3 then s.takeFlags else s
      .ok (s.gw d (s.regRead n)))
/-- MTS (15:R204). To a register of another domain's partition register it takes the privilege trap, as MFS does (DEDUCED, log 89). -/
def execMts (m : Mark) (a : Reg) (r : BitVec 11) (s : State) : Host.Outcome State Fault Refusal :=
  s.issue (.mts m a r) (fun s =>
    let n := r.toNat
    if regMode n s.th.priv = 0 ∨ s.foreignDp n = true then .trap ⟨.priv, 0, wordVal (.mts m a r)⟩
    else if regMode n s.th.priv = 1 then .trap ⟨.illstate, 0, s.th.pc⟩
    else if n = 3 ∧ (s.th.awaitsFlags || s.acvtOut s.th) then .hold 2 s
    else match (if n = 3 then s.takeFlags else s).regWrite n (s.th.gr a) with
      | some s => .ok s
      | none => .trap ⟨.illstate, 0, s.th.pc⟩)

end Sys2Proof.Machine
end

