-- ==== Sys2Proof/Machine/Tenancy.lean ====
section
/-! DEFINITION. Partitions, functions, domains on tiles, capacity blocks and their moves, budgets, function-level reset (15:R217-R220,
R222, 01:R21-R23, 23:R289, R291, 25:R293-R310). -/

namespace Sys2Proof.Machine
open Sys2Proof

-- Partitions ----------------------------------------------------------------------------------------------------------

/-- Node `m` is node `n` or lies below it (01:R21). -/
def nodeUnder (n m : Nat) : Bool := n != 0 && n.log2 ≤ m.log2 && m / 2 ^ (m.log2 - n.log2) == n
/-- The loss of a block: its owning node, none for a free block (25:R297). -/
def State.owner (s : State) (b : Nat) : Option Nat := if s.blockKind b = 0 then none else some (s.blockNode b)
/-- A capacity block of a node is in a move: it is the losing node's until DONE (25:R293, R300). -/
def State.moving (s : State) (n : Nat) : Bool := s.st.moves.any (fun p =>
  1 ≤ p.2.state && p.2.state ≤ 3 && s.owner p.1 == some n)
/-- A partition is idle (25:R293). -/
def State.partIdle (s : State) (n : Nat) : Bool :=
  let mine (f : Nat) : Bool := s.nodeOf f == some n
  let g := s.rgs n
  !(s.threads.any (fun t => nodeTile n t.tile) || s.st.runq.any (fun e => mine e.dom) || s.ms.waits.any (fun w => mine w.dom) ||
    s.eng.tasks.any (fun t => mine t.dom && s.inPantry t) ||
    s.eng.engines.any (fun e => (e.2.jobs.filter (·.stage != 2) ++ e.2.subs).any (fun j => mine j.dom)) ||
    s.eng.compacts.any (fun c => c.2.members.any (fun m => nodeTile n m.tile)) ||
    g.cuse != 0 || s.lheld n != 0 || g.sealing || g.forced || g.roll.isSome || s.moving n ||
    (s.bound n).any (fun f => (s.vcp f).queues.any (·.state == 2)))
/-- Blocks of node `n` pass to node `k`; to none when `k` is 0 (25:R294). -/
def State.passBlocks (s : State) (n k : Nat) : State :=
  let bown := s.st.bown.map (fun (p : Nat × Word) =>
    if bits p.2.toNat 11 10 ≠ 0 ∧ bits p.2.toNat 6 0 = n then
      (p.1, if k = 0 then (0 : Word) else pack [(bits p.2.toNat 11 10, 10), (k, 0)]) else p)
  { s with st := { s.st with bown := bown } }
/-- A partition appears, its RGS at reset values (25:R294). -/
def State.addPart (s : State) (n : Nat) : State :=
  (State.setRgs { s with st := { s.st with parts := s.st.parts ++ [n] } } n Rgs.reset).countCellar n
def State.dropPart (s : State) (n : Nat) : State :=
  { s with st := { s.st with parts := s.st.parts.filter (· != n), rgs := delKey s.st.rgs n, slice := s.st.slice.filter (·.1 != n) } }
/-- Functions of node `n` are bound to node `k` instead. -/
def State.passFns (s : State) (n k : Nat) : State :=
  { s with st := { s.st with binds := s.st.binds.map (fun p => if p.2 = n then (p.1, k) else p) } }
/-- A function may be unbound: no work, no valid domain partition register (25:R294). -/
def State.unbindable (s : State) (f : Nat) : Bool := !s.hasWork f && !s.tiles.any (fun p => (p.2.dp? f).isSome)
def State.unbind (s : State) (f : Nat) : State := { s with st := { s.st with binds := s.st.binds.filter (·.1 != f) } }
def State.bindTo (s : State) (f n : Nat) : State := { s with st := { s.st with binds := (s.st.binds.filter (·.1 != f)) ++ [(f, n)] } }
/-- PCFG's operation with its status, conditions in the order of R294's columns (15:R217, 25:R294). -/
def State.carve (s : State) (op n f : Nat) : Nat × State :=
  match op with
  | 0 =>
    if !s.isPart n || n == 0 || 63 < n then (2, s)
    else if !s.partIdle n then (1, s)
    else if !(s.bound n).isEmpty then (4, s)
    else if 32 ≤ s.st.parts.length then (3, s)
    else (0, (((s.passBlocks n (2 * n)).dropPart n).addPart (2 * n)).addPart (2 * n + 1))
  | 1 =>
    if n == 0 || !s.isPart (2 * n) || !s.isPart (2 * n + 1) then (2, s)
    else if !s.partIdle (2 * n) || !s.partIdle (2 * n + 1) then (1, s)
    else if !(s.bound (2 * n)).isEmpty && !(s.bound (2 * n + 1)).isEmpty then (4, s)
    else
      let fs := s.bound (2 * n) ++ s.bound (2 * n + 1)
      let s := (((s.passBlocks (2 * n) n).passBlocks (2 * n + 1) n).passFns (2 * n) n).passFns (2 * n + 1) n
      (0, fs.foldl State.touchVf (((s.dropPart (2 * n)).dropPart (2 * n + 1)).addPart n))
  | 2 =>
    if n == 0 || s.st.parts.any (fun k => nodeUnder k n || nodeUnder n k) then (2, s)
    else if 32 ≤ s.st.parts.length then (3, s)
    else (0, s.addPart n)
  | 3 =>
    if n == 0 || !s.isPart n then (2, s)
    else if !s.partIdle n then (1, s)
    else if !(s.bound n).isEmpty then (4, s)
    else (0, (s.passBlocks n 0).dropPart n)
  | 4 =>
    if n == 0 || !s.isPart n then (2, s)
    else if (s.nodeOf f).any (· != n) then (4, s)
    else (0, if s.nodeOf f = some n then s else (s.bindTo f n).touchVf f)
  | _ =>
    if (s.nodeOf f).isNone then (2, s)
    else if !s.unbindable f then (1, s)
    else (0, (s.unbind f).touchVf f)
/-- PCFG with the operation its command register names (15:R217). -/
def State.pcfg (s : State) (d a b : Reg) : Done :=
  let t := s.th
  let c := (t.gr b).toNat
  let op := bits c 3 0
  let f := bits c 19 10
  if bits c 63 20 ≠ 0 ∨ bits c 9 4 ≠ 0 ∨ 6 ≤ op ∨ (4 ≤ op ∧ 512 < f) then .trap ⟨.illstate, 0, t.pc⟩
  else
    let r := s.carve op (bits (t.gr a).toNat 6 0) f
    .ok (r.2.gw d (BitVec.ofNat 64 r.1))
/-- PCFG as a SPLIT (15:R217, 25:R294). -/
def execPcfgSplit (m : Mark) (d a b : Reg) (s : State) : Host.Outcome State Fault Refusal := s.issue (.pcfgSplit m d a b) (fun s => s.pcfg d a b)
/-- PCFG as a MERGE (15:R217, 25:R294). -/
def execPcfgMerge (m : Mark) (d a b : Reg) (s : State) : Host.Outcome State Fault Refusal := s.issue (.pcfgMerge m d a b) (fun s => s.pcfg d a b)
/-- PCFG as a CREATE (15:R217, 25:R294). -/
def execPcfgCreate (m : Mark) (d a b : Reg) (s : State) : Host.Outcome State Fault Refusal := s.issue (.pcfgCreate m d a b) (fun s => s.pcfg d a b)
/-- PCFG as a DESTROY (15:R217, 25:R294). -/
def execPcfgDestroy (m : Mark) (d a b : Reg) (s : State) : Host.Outcome State Fault Refusal := s.issue (.pcfgDestroy m d a b) (fun s => s.pcfg d a b)
/-- PCFG as a BIND (15:R217, 25:R294). -/
def execPcfgBind (m : Mark) (d a b : Reg) (s : State) : Host.Outcome State Fault Refusal := s.issue (.pcfgBind m d a b) (fun s => s.pcfg d a b)
/-- PCFG as an UNBIND (15:R217, 25:R294). -/
def execPcfgUnbind (m : Mark) (d a b : Reg) (s : State) : Host.Outcome State Fault Refusal := s.issue (.pcfgUnbind m d a b) (fun s => s.pcfg d a b)

-- Functions -----------------------------------------------------------------------------------------------------------

/-- A configuration block's fields, none where one is out of range (15:R218). -/
def cfgOf (bs : List Byte) : Option (Nat × VfCfg) :=
  let w := wordAt bs
  if bits (w 0) 63 48 = 0 ∧ 1 ≤ bits (w 0) 47 32 ∧ 1 ≤ bits (w 0) 31 24 ∧ bits (w 0) 23 9 = 0 ∧ 1 ≤ bits (w 0) 6 0 ∧
     bits (w 3) 63 32 = 0 ∧ w 4 % 4 = 0 ∧ bits (w 6) 63 16 = 0 ∧ w 7 = 0 then
    some (bits (w 0) 6 0,
      { slice := bits (w 0) 47 32, weight := bits (w 0) 31 24, qmax := bits (w 0) 8 7
        bdram := bits (w 1) 63 32, bflit := bits (w 1) 31 0, bcopy := bits (w 2) 63 32, bl2f := bits (w 2) 31 0
        sealto := bits (w 3) 31 0, svec := BitVec.ofNat 64 (w 4), gtab := BitVec.ofNat 64 (w 5), gcnt := bits (w 6) 15 0 })
  else none
/-- VFCFG (15:R218, 25:R295). -/
def execVfcfg (m : Mark) (d a b : Reg) (s : State) : Host.Outcome State Fault Refusal :=
  s.issue (.vfcfg m d a b) (fun s =>
    let t := s.th
    let f := (t.gr a).toNat
    let at_ := t.gr b
    if at_.toNat % 64 ≠ 0 then .trap ⟨.align, 0, at_⟩
    else (s.ldHeld t.acc .read at_ 64).andThen (fun bs s =>
      if 512 < f then .trap ⟨.illstate, 0, t.pc⟩
      else match cfgOf bs with
        | none => .trap ⟨.illstate, 0, t.pc⟩
        | some (n, c) =>
          let put (s : State) : Done := .ok ((State.touchVf { s with st := { s.st with cfgs := setKey s.st.cfgs f c } } f).gw d 0)
          if s.nodeOf f = some n then put s
          else if (s.nodeOf f).isSome && !s.unbindable f then .ok (s.gw d 1)
          else if !s.isPart n then .ok (s.gw d 2)
          else put (s.bindTo f n)))
/-- L2MSK (15:R220). -/
def execL2msk (m : Mark) (a b : Reg) (s : State) : Host.Outcome State Fault Refusal :=
  s.issue (.l2msk m a b) (fun s =>
    let f := (s.th.gr a).toNat
    let x := (s.th.gr b).toNat
    if 512 < f ∨ 65536 ≤ x then .trap ⟨.illstate, 0, s.th.pc⟩
    else .ok (State.touchVf { s with st := { s.st with l2mask := setKey s.st.l2mask f x } } f))

-- Domains on a tile ---------------------------------------------------------------------------------------------------

/-- A domain partition block (15:R219). -/
def dpOf (bs : List Byte) : Dp :=
  let w := wordAt bs
  ⟨true, bits (w 0) 56 47, bits (w 0) 46 39, bits (w 0) 31 16, bits (w 0) 15 0, bits (w 1) 15 0, bits (w 2) 40 32, bits (w 2) 23 16, bits (w 2) 8 0⟩
def dpReserved (bs : List Byte) : Bool :=
  let w := wordAt bs
  bits (w 0) 62 57 != 0 || bits (w 0) 38 32 != 0 || bits (w 1) 63 16 != 0 || bits (w 2) 63 41 != 0 || bits (w 2) 31 24 != 0 ||
    bits (w 2) 15 9 != 0 || w 3 != 0
/-- Valid domain partition registers of a tile other than DPn. -/
def Tile.otherDps (t : Tile) (n : Nat) : List Dp := ((List.range 4).zip t.dps).filterMap (fun p => if p.2.v && p.1 != n then some p.2 else none)
/-- Cache ways disjoint from those of another domain that shares a cache bank (15:R219). -/
def waysApart (a b : Dp) : Bool := (a.banks &&& (a.banks ^^^ a.scrb)) &&& (b.banks &&& (b.banks ^^^ b.scrb)) == 0 || a.cway &&& b.cway == 0
/-- The conditions of a WRITE (15:R219). -/
def Tile.dpOk (t : Tile) (n : Nat) (d : Dp) : Bool :=
  d.scrb &&& d.banks == d.scrb && 1 ≤ d.rlen && d.rbase + d.rlen ≤ 256 && 1 ≤ d.weight &&
  (t.otherDps n).all (fun o =>
    d.tslot &&& o.tslot == 0 && (d.rbase + d.rlen ≤ o.rbase || o.rbase + o.rlen ≤ d.rbase) &&
    d.scrb &&& o.banks == 0 && o.scrb &&& d.banks == 0 && waysApart d o && o.dom != d.dom)
def State.putDp (s : State) (i n : Nat) (d : Dp) : State := s.setTile i { s.tile i with dps := (s.tile i).dps.set n d }
/-- The watchdog periods of the slots of `m` return to their reset value: their domain changes (15:R215). -/
def State.resetWdog (s : State) (i m : Nat) : State :=
  let t := s.tile i
  let reset (l : List Nat) : List Nat := (List.range 16).map (fun k => if bitOf m k then 24 else l.getD k 24)
  s.setTile i { t with wdexp := reset t.wdexp, wdnew := reset t.wdnew }
/-- A domain still uses a tile (15:R219). -/
def State.domainBusy (s : State) (i : Nat) (d : Dp) : Bool :=
  let hit (w : Win) : Bool := w.fn == d.dom || (banksOf (w.sline * 192) (w.nline * 192)).any (bitOf d.banks)
  s.threads.any (fun t => t.tile == i && (t.dom == d.dom || t.home == d.dom)) || (s.tile i).wins.any (fun p => hit p.2) ||
    s.eng.engines.any (fun e => (e.2.jobs.filter (·.stage != 2) ++ e.2.subs).any (fun j => j.tile == i && j.dom == d.dom)) ||
    s.eng.compacts.any (fun c => c.2.dom == d.dom && c.2.members.any (·.tile == i)) || (bitOf (s.tile i).loft.toNat 63 && (s.tile i).loftDom == d.dom)
/-- A domain partition register stops being valid (15:R219). -/
def State.clearDp (s : State) (i n : Nat) (d : Dp) : State :=
  ((s.emptyBanks i (bitOf d.banks)).putDp i n { d with v := false }).resetWdog i d.tslot
/-- DOMCFG with the operation its target register names (15:R219, 25:R304). -/
def State.domcfg (s : State) (d a b : Reg) : Done :=
  let t := s.th
  let x := (t.gr a).toNat
  let n := bits x 12 11
  let op := bits x 14 13
  let at_ := t.gr b
  let bad : Done := .trap ⟨.illstate, 0, t.pc⟩
  let done (s : State) (k : Nat) : Done := .ok (s.gw d (BitVec.ofNat 64 k))
  let wrong := decide (bits x 63 15 ≠ 0 ∨ (coordIdx (bits x 10 0)).isNone)
  let i := (coordIdx (bits x 10 0)).getD 0
  if at_.toNat % 32 ≠ 0 then .trap ⟨.align, 0, at_⟩
  else if op = 2 then
    if wrong then bad
    else
      let p := (s.tile i).dps.getD n .reset
      if s.retired i then done s 3
      else if !p.v then done s 0
      else if s.domainBusy i p then done s 1
      else done ((s.clearDp i n p).touchVf p.dom) 0
  else if op = 3 then bad
  else (s.ldHeld t.acc .read at_ 32).andThen (fun bs s =>
      let p := (s.tile i).dps.getD n .reset
      let q := dpOf bs
      if wrong then bad
      else if s.retired i then done s 3
      else if op = 1 then
        (if !p.v then done s 2
         else
          let q := { p with weight := q.weight, cway := q.cway }
          if q.weight = 0 ∨ !((s.tile i).otherDps n).all (waysApart q) then bad else done ((s.putDp i n q).touchVf q.dom) 0)
      else if dpReserved bs || !(s.tile i).dpOk n q then bad
      else if p.v then done s 1
      else if !(s.nodeOf q.dom).any (fun k => nodeTile k i) then done s 4
      else done (((s.putDp i n q).resetWdog i q.tslot).touchVf q.dom) 0)
/-- DOMCFG as a WRITE (15:R219). -/
def execDomcfgWrite (m : Mark) (d a b : Reg) (s : State) : Host.Outcome State Fault Refusal := s.issue (.domcfgWrite m d a b) (fun s => s.domcfg d a b)
/-- DOMCFG as an ADJUST (15:R219). -/
def execDomcfgAdjust (m : Mark) (d a b : Reg) (s : State) : Host.Outcome State Fault Refusal := s.issue (.domcfgAdjust m d a b) (fun s => s.domcfg d a b)
/-- DOMCFG as a CLEAR (15:R219). -/
def execDomcfgClear (m : Mark) (d a b : Reg) (s : State) : Host.Outcome State Fault Refusal := s.issue (.domcfgClear m d a b) (fun s => s.domcfg d a b)

-- Capacity blocks -----------------------------------------------------------------------------------------------------

/-- A move's new state, told to the functions of both nodes (25:R300, 23:R291). -/
def State.moveTo (s : State) (b st reason : Nat) : State :=
  let m := s.move b
  let fs := ((match s.owner b with | some n => s.bound n | none => []) ++ s.bound m.gain).dedup
  let s := { s with st := { s.st with moves := setKey s.st.moves b { m with state := st, reason := reason } } }
  fs.foldl (fun s f => s.postEvent f 8 (pack [(reason, 20), (st, 16), (b, 0)])) s
/-- The block is inaccessible and its copies go without write-back (25:R300 step 2). -/
def State.startScrub (s : State) (b : Nat) : State :=
  let s := (s.moveTo b 2 0).dropLines (fun l => l / Config.blockSize == b) true
  { s with ms := { s.ms with l2 := s.ms.l2.filter (fun e => e.line / Config.blockSize != b) } }
/-- A line of the block is pinned, or a cellar entry of an unsealed interval stands: the line saved there, or the entry itself, where
the block is a cellar block (25:R300 step 2). -/
def State.blockHeld (s : State) (b : Nat) : Bool :=
  s.ms.pins.any (fun p => !p.away && p.line < 2 ^ 60 && p.line / Config.blockSize == b) ||
    s.ms.cellar.any (fun e => e.line / Config.blockSize == b) ||
    s.ms.cellar.any (fun e => (s.cellarSlot e.node e.seq).any (· / Config.blockSize == b))
/-- The block is the only cellar block of a partition with functions bound, whose CCAP is not to become 0 (21:R269): its move is refused
(DESIGN CHOICE, log 91). -/
def State.lastCellar (s : State) (b : Nat) : Bool :=
  s.blockKind b == 2 && !(s.bound (s.blockNode b)).isEmpty &&
    !(List.range 288).any (fun k => k != b && s.blockKind k == 2 && s.blockNode k == s.blockNode b)
/-- MEMBLK's answer: state and reason (15:R222). -/
def State.moveWord (s : State) (b : Nat) : Word := pack [((s.move b).reason, 8), ((s.move b).state, 0)]
/-- MEMBLK's command applied to a block (15:R222, 25:R300-R301, 29:R339); a gaining node that is no partition is refused (log 30). -/
def State.moveCmd (s : State) (b c : Nat) : State :=
  let m := s.move b
  match bits c 1 0 with
  | 0 =>
    if 1 ≤ m.state ∧ m.state ≤ 3 then s
    else
      let s := { s with st := { s.st with moves := setKey s.st.moves b ⟨0, 0, bits c 8 2, bits c 31 16⟩ } }
      let locked : Bool := match s.owner b with
        | some n => (s.bound n).any (fun f => f != 0 && (lookupD s.pl.tdisp f 0 == 1 || lookupD s.pl.tdisp f 0 == 2))
        | none => false
      if !s.isPart (bits c 8 2) || locked then s.moveTo b 5 3
      else if (s.owner b).isNone then s.startScrub b
      else s.moveTo b 1 0
  | 2 => if m.state = 1 then s.moveTo b 5 2 else s
  | _ => s
/-- MEMBLK with the operation its command register names (15:R222). -/
def State.memblk (s : State) (d a b : Reg) : Done :=
  let k := (s.th.gr a).toNat
  let c := (s.th.gr b).toNat
  if 288 ≤ k ∨ bits c 63 32 ≠ 0 ∨ bits c 15 9 ≠ 0 ∨ bits c 1 0 = 3 ∨ (bits c 1 0 = 0 ∧ (bits c 31 16 = 0 ∨ bits c 8 2 = 0)) then
    .trap ⟨.illstate, 0, s.th.pc⟩
  else
    let s := s.moveCmd k c
    .ok (s.gw d (s.moveWord k))
/-- MEMBLK as an OFFER (15:R222). -/
def execMemblkOffer (m : Mark) (d a b : Reg) (s : State) : Host.Outcome State Fault Refusal := s.issue (.memblkOffer m d a b) (fun s => s.memblk d a b)
/-- MEMBLK as a QUERY (15:R222). -/
def execMemblkQuery (m : Mark) (d a b : Reg) (s : State) : Host.Outcome State Fault Refusal := s.issue (.memblkQuery m d a b) (fun s => s.memblk d a b)
/-- MEMBLK as a CANCEL (15:R222). -/
def execMemblkCancel (m : Mark) (d a b : Reg) (s : State) : Host.Outcome State Fault Refusal := s.issue (.memblkCancel m d a b) (fun s => s.memblk d a b)

/-- A write of BOWN[b] (25:R297, 31:R346). -/
def State.bownPut (s : State) (b : Nat) (x : Word) : State :=
  let v := x.toNat
  let k := bits v 11 10
  let n := bits v 6 0
  let st := (s.move b).state
  let free (o : Option Nat) : Bool := match o with
    | none => true
    | some p => s.isPart p && (s.bound p).isEmpty
  let calm (kind node : Nat) : Bool := kind != 2 || (s.rgs node).cuse == 0
  if s.blockRetired b ∨ bits v 63 16 ≠ 0 ∨ k = 3 ∨ (k = 0 ∧ n ≠ 0) ∨ !(st = 0 ∨ 4 ≤ st) ∨ 288 ≤ b then s
  else if !free (s.owner b) || !free (if k = 0 then none else some n) || !calm (s.blockKind b) (s.blockNode b) || !calm k n then s
  else
    let old := s.blockNode b
    let s := { s with st := { s.st with bown := setKey s.st.bown b (pack [(k, 10), (n, 0)]) } }
    (s.countCellar old).countCellar n
/-- BOWN_WRITE (25:R297). -/
def execBownWrite (b : Nat) (x : Word) (s : State) : Host.Outcome State Fault Refusal := .next (s.bownPut b x)
/-- A write of MBACK[f] (25:R299-R300). -/
def State.mbackPut (s : State) (f : Nat) (x : Word) : State :=
  let v := x.toNat
  let b := bits v 8 0
  let m := s.move b
  if bits v 63 20 ≠ 0 ∨ !bitOf v 15 ∨ 288 ≤ b ∨ (s.nodeOf f).isNone then s
  else if m.state = 1 ∧ s.nodeOf f = s.owner b then (if s.blockHeld b || s.lastCellar b then s.moveTo b 5 3 else s.startScrub b)
  else if m.state = 3 ∧ s.nodeOf f = some m.gain then
    if s.lastCellar b then s.moveTo b 5 3 else
    let old := s.blockNode b
    let s := s.moveTo b 4 0
    let s := { s with st := { s.st with bown := setKey s.st.bown b (pack [(1, 10), (m.gain, 0)]) } }
    (s.countCellar old).countCellar m.gain
  else s
/-- MBACK_ACK (25:R299). -/
def execMbackAck (f : Nat) (x : Word) (s : State) : Host.Outcome State Fault Refusal := .next (s.mbackPut f x)
/-- MOVE_DEADLINE (25:R300-R301). -/
def execMoveDeadline (b : Nat) (s : State) : Host.Outcome State Fault Refusal :=
  unitStep s (if (s.move b).state = 1 ∨ (s.move b).state = 3 then some (s.moveTo b 5 1) else none)
/-- A block is zero, and its gaining node is asked (25:R300 steps 3-4). -/
def State.scrubbed (s : State) (b : Nat) : State :=
  State.moveTo { s with ms := { s.ms with mem := clearRange s.ms.mem (b * Config.blockSize) ((b + 1) * Config.blockSize) } } b 3 0
/-- SCRUB_DONE (25:R300). -/
def execScrubDone (b : Nat) (s : State) : Host.Outcome State Fault Refusal :=
  unitStep s (if (s.move b).state = 2 then some (s.scrubbed b) else none)

-- Budgets and function-level reset ------------------------------------------------------------------------------------

/-- Budgets renew, at the values configured by then; BSTAT counts those that ran out (23:R289, R278, 15:R218). -/
def State.renew (s : State) : State :=
  let fs := (s.st.used.map (fun p => p.1 / 4)).dedup
  let tally (s : State) (f : Nat) : State :=
    let v := s.vcp f
    s.setVcp f { v with bstat := (List.range 4).map (fun k => (v.bstat.getD k 0 + b2n (s.spent f k)) % 65536) }
  let s := fs.foldl tally s
  let limits := s.st.cfgs.flatMap (fun p => (List.range 4).map (fun k => (4 * p.1 + k, p.2.budget k)))
  { s with st := { s.st with used := [], limits := limits } }
/-- BUDGET_PERIOD (23:R289). -/
def execBudgetPeriod (s : State) : Host.Outcome State Fault Refusal := .next s.renew
/-- A function is active: it has work, or a queue that is not DISABLED (25:R301 does not say which ones are; DESIGN CHOICE, log 82). -/
def State.active (s : State) (f : Nat) : Bool := s.hasWork f || (s.vcp f).queues.any (·.state != 0)
/-- Moves that wait for a function in reset, when no other function of its node remains active (25:R301). -/
def State.settleMoves (s : State) (gone : Nat → Bool) (f : Nat) : State :=
  (s.st.moves.map (·.1)).foldl (fun s b =>
    if s.awaits f b && (match s.nodeOf f with | some n => (s.bound n).all (fun g => gone g || !s.active g) | none => false) then s.moveTo b 5 3 else s) s
/-- The reset of one function of those in reset (25:R310). -/
def State.resetFn (gone : Nat → Bool) (s : State) (f : Nat) : State :=
  let s := s.killFunction f none
  let s := (s.vcp f).queues.foldl State.dropCmds s
  (s.setVcp f Vcp.reset).settleMoves gone f
/-- FLR (25:R310): of the PF, of every function. -/
def execFlr (f : Nat) (s : State) : Host.Outcome State Fault Refusal :=
  .next (if f = 0 then (List.range 513).foldl (State.resetFn (fun _ => true)) s else State.resetFn (· == f) s f)

end Sys2Proof.Machine
end

