-- ==== Sys2Proof/Machine/Events.lean ====
section
/-! DEFINITION. Steps of the tile without an encoding: decode and fetch faults, parks, pre-emption, the watchdog, asynchronous
causes, page walks, accesses between tiles (01:R14, 03:R29-R35, R48, 07:R79, R84, 09:R115, 17:R230, R237, 27:R312). -/

namespace Sys2Proof.Machine
open Sys2Proof

/-- A step of the issuing thread, when one issues. -/
def State.issuing (s : State) (f : State → Host.Outcome State Fault Refusal) : Host.Outcome State Fault Refusal :=
  if s.th.live then f s else .next s
/-- ILLEGAL_ENCODING (07:R79, R84): the word takes the illegal-encoding trap. -/
def execIllegalEncoding (w : BitVec 32) (s : State) : Host.Outcome State Fault Refusal :=
  s.issuing (fun s => s.finish (.illegalEncoding w) (.trap ⟨.illenc, 0, illencTval w.toNat s.th.hints.length⟩))
/-- INSTRUCTION_FETCH_FAULT (09:R115): the fetch at the pc takes its trap. -/
def execInstructionFetchFault (va : Word) (s : State) : Host.Outcome State Fault Refusal :=
  s.issuing (fun s =>
    if s.th.pc ≠ va then .next s
    else match s.fetchAt va with
      | .trap x => s.finish (.instructionFetchFault va) (.trap x)
      | _ => .next s)

/-- The steps of one resident thread: `f` with the thread as the issuing one. -/
def State.onIssuer (s : State) (tid : Nat) (f : State → Option State) : Option State :=
  match s.thread? tid with
  | some _ => f (s.focus tid)
  | none => none
/-- A park is complete: the results of the run are written (03:R34, 25:R307). -/
def State.parkDone (s : State) (tid : Nat) : Option State :=
  s.onIssuer tid (fun s =>
    let t := s.th
    if t.status != .parked || !t.outsDone then none
    else
      let n := ((s.tile t.tile).cyc - t.flow.since).toNat
      some (State.takePark { s with th := t.countEv 4 n }))
/-- PARK_COMPLETE (03:R34). -/
def execParkComplete (tid : Nat) (s : State) : Host.Outcome State Fault Refusal := unitStep s (s.parkDone tid)
/-- A fault held for this restart point, else an asynchronous cause due at this boundary (03:R35, 27:R312-R313). -/
def State.takeCause (s : State) (tid : Nat) : Option State :=
  s.onIssuer tid (fun s =>
    match s.th.heldHere with
    | some h =>
      some (State.raise { s with th := { s.th with flow := { s.th.flow with held := s.th.flow.held.erase h } } } h.1 h.2)
    | none => if s.th.due.isSome then some s.serviceTrap else none)
/-- ASYNC_CAUSE (27:R312). -/
def execAsyncCause (tid : Nat) (s : State) : Host.Outcome State Fault Refusal := unitStep s (s.takeCause tid)
/-- A requested stop takes effect: the results of the run are written, and the thread leaves its slot (03:R48, 15:R213, 21:R267). -/
def State.preempted (s : State) (tid : Nat) : Option State :=
  s.onIssuer tid (fun s =>
    if !s.stopDue s.th then none
    else
      let k := s.stopKind s.th
      let s := { s with th := s.th.giveUp }
      if !s.th.flow.outs.isEmpty then some s.drain
      else
        let code := if k = 2 then 4 else if k = 3 then 5 else 3
        some (State.leaveNow { s with th := { s.th with flow := { s.th.flow with leave := code } } }))
/-- PREEMPTION (03:R48). -/
def execPreemption (tid : Nat) (s : State) : Host.Outcome State Fault Refusal := unitStep s (s.preempted tid)
/-- A leaving thread's results, guards and matrix commands are complete: it leaves its slot (03:R29). -/
def State.leaves (s : State) (tid : Nat) : Option State :=
  match s.thread? tid with
  | some t => if t.status == .leaving && s.mayLeave t then some (s.leaveGang t) else none
  | none => none
/-- LEAVE_SLOT (03:R29). -/
def execLeaveSlot (tid : Nat) (s : State) : Host.Outcome State Fault Refusal := unitStep s (s.leaves tid)
/-- The period of a slot's watchdog ends: it counts while its thread holds the slot in U or S mode, not while that is parked, waits, or has a
store stalled (03:R33, 21:R271). -/
def State.watchdogExpires (s : State) (tid : Nat) : Option State :=
  match s.thread? tid with
  | some t => if t.flow.holder && t.priv != .h && t.status == .ready && t.flow.hold != 3 then some (s.setThread { t with flow := { t.flow with wdog := true } }) else none
  | none => none
/-- SLOT_WATCHDOG_EXPIRY (03:R33). -/
def execSlotWatchdogExpiry (tid : Nat) (s : State) : Host.Outcome State Fault Refusal := unitStep s (s.watchdogExpires tid)

/-- A walk for a thread: its TLB fill with A and D updates, and its events (25:R307), or nothing where the instruction's own access reports the fault
(17:R230-R232). -/
def State.walkFor (s : State) (tid : Nat) (k : AccKind) (va : Word) : Option State :=
  match s.thread? tid with
  | some t => (match s.translate t.tile t.fn t.priv k va with
    | .ok (_, _, s') => some (s'.onThread tid (·.walkEvents k (s.tlb? t.tile t.fn va.toNat)))
    | .error _ => none)
  | none => none
/-- PAGE_WALK (17:R230). -/
def execPageWalk (tid : Nat) (kind : AccKind) (va : Word) (s : State) : Host.Outcome State Fault Refusal := unitStep s (s.walkFor tid kind va)

/-- A tile's transaction for a line at its home directory: other copies yield, a write is tagged, the tile's copy is filled
(01:R14, 17:R238-R239, 21:R265). A pinned line takes none. -/
def State.directory (s : State) (k : AccKind) (tile dom pa : Nat) : Option State :=
  let off := pa % 2 ^ 48
  let wr := k == .write || k == .atomic
  match lineOf off with
  | none => none
  | some line =>
    if regionOf off != .dram || (s.pinOfHome line).isSome then none
    else
      let go (s : State) : Option State := some (s.cacheAccess tile dom line (sectorMask line off 1) wr 0).1
      if wr then (match s.tagged dom line (s.rinOf dom) off false with
        | .ok s => go s
        | .stall => none
        | .roll s => some s)
      else go s
/-- DIRECTORY_REQUEST (01:R14). -/
def execDirectoryRequest (kind : AccKind) (tile dom pa : Nat) (s : State) : Host.Outcome State Fault Refusal :=
  unitStep s (s.directory kind tile dom pa)

/-- The answer to an access of a unit or of another package, at its target: bytes, or why it is refused; a read of a pinned line
is held under the requester's tag (03:R40-R41, 17:R224-R226, R237-R239, 21:R265, 25:R298, R302, 29:R326). -/
inductive Served where
  | ok (bs : List Byte) (s : State)
  | held (s : State)
  | no (r : Reply)

/-- The reply that carries a refusal. -/
def Trap.reply (t : Trap) : Reply := match t.cause with
  | .cprot => .pinned
  | .notile => .notile
  | .mcheck => .lost
  | _ => .domain
/-- A store or an atomic of another package that cannot be tagged is not made (21:R265, R269). -/
def State.untagged (s : State) (dom rin : Nat) (p : Piece) : Option State :=
  match (if regionOf p.off = .dram then lineOf p.off else none) with
  | none => none
  | some line =>
    if (s.pinOfHome line).isSome then none
    else match s.tagged dom line rin p.off true with
      | .ok _ => none
      | .stall => some s
      | .roll s => some s
/-- Another package, none for this one. -/
def State.elsewhere (s : State) (pkg : Nat) : Option Nat := if pkg = s.me then none else some pkg
/-- A read of a line that a member has pinned is held for it at the directory, or goes on to its package (03:R41). -/
def State.holdRead (s : State) (pin : Pin) (o n : Nat) (a : Acc) (pa pkg tag : Nat) : State := match pin.far with
  | some q => State.tick (((s.emit (.request (.forward pkg tag) q s.fresh pa a.stamp 0 (List.replicate n 0))).flits a.dom 0).forwarded (pin.line + o) n tag q
      (s.elsewhere pkg) a.dom)
  | none => { s with ms := { s.ms with defer := s.ms.defer ++ [(⟨sramAddr pin.tile (pin.sline * 192 + o), n, tag, pin.tile, s.elsewhere pkg, a.dom⟩ : Deferred)] } }
/-- Serves `n` bytes at offset `off`, of a requester outside every thread of the package, in interval `rin` (29:R326); `tag` and `pkg` name
it. -/
def State.serve (s : State) (k : AccKind) (dom : Nat) (priv : Priv) (off n : Nat) (data : List Byte) (pkg tag rin : Nat) : Served :=
  let a : Acc := ⟨16 * noTile, noTile, dom, dom, priv, 0, true, none, false⟩
  let p : Piece := ⟨0, s.me * 2 ^ 48 + off, n, 0⟩
  let bytes : Served := match s.engPiece a p with
    | .ok (bs, s) => .ok bs s
    | .error x => .no x.reply
  match s.pieceTrap a p with
  | some x => .no x.reply
  | none => match k with
    | .write => (match s.untagged dom rin p with
      | some s => .held s
      | none =>
        if regionOf off = .dram then
          (if ((lineOf off).bind s.pinOfHome).isSome then .no .pinned
           else .ok [] ((s.devStoreIn dom rin off data).wakeLine (waitLine off)))
        else match s.engStore a (2 ^ 60) p data with
          | .ok s => .ok [] s
          | .error x => .no x.reply)
    | .atomic =>
      let f := AOp.of ((data.headD 0).toNat)
      let m := ((data.drop 1).headD 8).toNat
      let p := { p with n := m }
      (match s.untagged dom rin p with
        | some s => .held s
        | none => match s.atomicPiece a p
            (fun x => f.eval m x (leNat ((data.drop 2).take 8) % 2 ^ (8 * m)) (leNat ((data.drop 10).take 8) % 2 ^ (8 * m))) rin with
          | .ok (old, s) => .ok old s
          | .error x => .no x.reply)
    | _ =>
      match regionOf off with
      | .dram => (match ((lineOf off).bind s.pinOfHome).filter (!·.away) with
        | some pin => .held (s.holdRead pin (off - pin.line) n a p.pa pkg tag)
        | none => bytes)
      | .tiles => (match s.pinOfSram p.slot.1 (p.slot.2 / 192) with
        | some pin => if s.retired p.slot.1 then .no .notile else .held (s.holdRead pin (p.slot.2 % 192) n a p.pa pkg tag)
        | none => bytes)
      | _ => bytes
/-- An access to a tile's SRAM by its global address at the tile (17:R237): the bytes a read returns go to its requester. -/
def State.serveTile (s : State) (k : AccKind) (tile off dom : Nat) (data : List Byte) : Option State :=
  match s.serve k dom .s (sramAddr tile (off % Config.slotSize)) (Nat.max data.length 1) data s.me s.fresh (s.rinOf dom) with
  | .ok _ s => some s
  | _ => none
/-- GLOBAL_TILE_SPACE_REQUEST (17:R237). -/
def execGlobalTileSpaceRequest (kind : AccKind) (tile off dom : Nat) (data : List Byte) (s : State) : Host.Outcome State Fault Refusal :=
  unitStep s (s.serveTile kind tile off dom data)

end Sys2Proof.Machine
end

