-- ==== Sys2Proof/Machine/Fabric.lean ====
section
/-! DEFINITION. The optical fabric: the port, peers, lanes and relays, remote accesses and their acknowledgements, losses, dead
packages, endpoint tables (29:R321-R332). -/

namespace Sys2Proof.Machine
open Sys2Proof

-- The port and its peers ----------------------------------------------------------------------------------------------

/-- PLACES: the I/O die, 0 for N and 1 for S, that carries the optical engines of a plane, and that of an Ethernet port (01:R9). -/
def planeDie (k : Nat) : Nat := if k = 2 ∨ k = 3 ∨ (25 ≤ k ∧ k ≤ 45) ∨ k = 47 then 1 else 0
def ethernetDie (p : Nat) : Nat := p / 4
/-- Planes 0-3 carry control flits and 46-47 are spares, the others carry data (29:R322). -/
def controlPlane (k : Nat) : Bool := k < 4
def sparePlane (k : Nat) : Bool := k == 46 || k == 47
/-- The wavelength on which package `i` sends to package `j` (29:R322). -/
def wavelength (i j : Nat) : Nat := (j % 16 + 16 - i % 16) % 16

def State.peer (s : State) (j : Nat) : Peer := lookupD s.pl.peers j .reset
def State.setPeer (s : State) (j : Nat) (p : Peer) : State := { s with pl := { s.pl with peers := setKey s.pl.peers j p } }
/-- Peers that flits are sent to. -/
def State.livePeers (s : State) : List Nat := (List.range 16).filter (fun j => j != s.me && s.pkgLive j)
/-- Setting EN: the port trains (29:R321). -/
def State.enablePort (s : State) : Option State := if s.pl.en then none else some { s with pl := { s.pl with en := true, trained := false } }
/-- BF_ENABLE (29:R321). -/
def execBfEnable (s : State) : Host.Outcome State Fault Refusal := unitStep s s.enablePort
/-- A group or a live compact joins the package to another (29:R331). -/
def State.shared (s : State) : Bool :=
  s.st.parts.any (fun n => !(s.rgs n).peers.isEmpty) ||
    s.eng.compacts.any (fun c => (s.packagesOf c.2.dom c.2.coords).any (· != s.me))
/-- Clearing EN: the leave is announced, and every peer is ABSENT; or it is refused (29:R331). -/
def State.leaveDomain (s : State) : Option State :=
  if !s.pl.en || s.shared then none
  else
    let s := s.livePeers.foldl (fun s j => s.emit (.steward 6 0 j)) s
    let peers := s.pl.peers.map (fun (p : Nat × Peer) => (p.1, { p.2 with st := 0, relay := 0 }))
    some { s with pl := { s.pl with en := false, trained := false, joined := false, peers := peers } }
/-- BF_LEAVE (29:R331). -/
def execBfLeave (s : State) : Host.Outcome State Fault Refusal := unitStep s s.leaveDomain
/-- The ports that were enabled before LOW have trained again: CUR leaves 10 (31:R343). -/
def Plat.portsUp (p : Plat) : Plat :=
  if p.leaving && (!p.en || p.trained) && !p.ethDown then { p with leaving := false, pwCur := 0 } else p
/-- The ports are down, and stay so (31:R343). -/
def Plat.portsDown (p : Plat) : Bool := p.pwCur == 2 && p.pwReq == 2 && !p.leaving
/-- The Ethernet ports have trained again (31:R343). -/
def State.ethernetUp (s : State) : State := if s.pl.portsDown then s else { s with pl := Plat.portsUp { s.pl with ethDown := false } }
/-- Tags of what is under way to a package (29:R323, R328-R330). -/
def State.inFlight (s : State) (j : Nat) : List Nat :=
  let src (o : Outst) : List Nat := match o.src with
    | .parts ps _ => ps.filterMap (fun p => match p with
      | .wait g _ _ _ pa => if pa / 2 ^ 48 = j then some g else none
      | .have _ => none)
    | _ => []
  (s.pl.posted.filter (·.pa / 2 ^ 48 == j)).map (·.tag) ++
    s.threads.flatMap (fun t => t.flow.outs.flatMap src ++ (t.flow.heldReads.filter (fun h => h.reply.isNone && h.pa / 2 ^ 48 == j)).map (·.tag)) ++
    s.eng.router.filterMap (fun m => match m with
      | .packetWait g _ _ p => if p = j then some g else none
      | _ => none) ++
    s.eng.compacts.flatMap (fun c => (c.2.sent.filter (fun x => x.path == 0 && x.pkg == j)).map (·.tag)) ++
    (s.ms.larder.filter (·.pa / 2 ^ 48 == j)).filterMap (·.sent)
/-- What is under way to a peer is sent again (29:R328-R329). -/
def State.resendAll (s : State) (j : Nat) : State := (s.inFlight j).foldl (fun s g => s.emit (.resend j g)) s
/-- The route of package `r` to package `p` as it is known here, in the codes of BF.PEER: this package's own, what `r` said of it, else
DIRECT between two packages that are in the domain (29:R327, R329; log 34). -/
def State.routeOf (s : State) (r p : Nat) : Nat :=
  if r = s.me then (s.peer p).st
  else if p = s.me then (s.peer r).st
  else if s.pkgLive r && s.pkgLive p then lookupD s.pl.routes (16 * r + p) 1
  else (s.peer p).st
/-- Packages of the domain, apart from `k`, to which the route of package `r` is not DIRECT (29:R329). -/
def State.notDirect (s : State) (r k : Nat) : Nat :=
  ((List.range 16).filter (fun p => p != r && p != k && (p == s.me || (s.peer p).st != 0) && s.routeOf r p != 1)).length
/-- The route to a peer with more failed lanes than spares: the lowest-numbered package that is DIRECT to both relays, and what is under
way goes again through it; with no such package, the one of the pair with more peers that are not DIRECT is declared dead, on a tie the
higher-numbered (29:R329; log 34). -/
def State.reroute (s : State) (j : Nat) : State :=
  let p := s.peer j
  if p.fail ≤ 2 || !(p.st == 1 || p.st == 2) then s
  else match (List.range 16).find? (fun r => r != j && r != s.me && (s.peer r).st == 1 && s.routeOf r j == 1) with
    | some r =>
      if p.st = 2 ∧ p.relay = r then s
      else
        let s := (s.setPeer j { p with st := 2, relay := r }).emit (.relayed j r)
        State.resendAll (s.livePeers.foldl (fun s k => s.emit (.route k j 2)) s) j
    | none =>
      let a := s.notDirect s.me j
      let b := s.notDirect j s.me
      if b < a || (a == b && j < s.me) then s.emit (.dead s.me) else (s.emit (.dead j)).plan [.dead j]
/-- Relayed routes after a change of another one: the next relay takes over (29:R329). -/
def State.rerouteAll (s : State) : State := (List.range 16).foldl (fun s j => if (s.peer j).st = 2 then s.reroute j else s) s
/-- A package says that its route to a peer has changed (29:R323, R329). -/
def State.routeTold (s : State) (r j st : Nat) : State :=
  if 16 ≤ r ∨ 16 ≤ j then s else State.rerouteAll { s with pl := { s.pl with routes := setKey s.pl.routes (16 * r + j) st } }
/-- Training ends: the packages found that no route leads to yet, as those that join or rejoin later, are DIRECT; two packages of one number
fail (29:R321, R327, R330). -/
def State.trainedWith (s : State) (found : List Nat) (dup : Bool) : Option State :=
  let new := found.filter (fun j => decide (j < 16) && j != s.me && ((s.peer j).st == 0 || (s.peer j).st == 3))
  if !s.pl.en || s.pl.portsDown || (s.pl.trained && (dup || new.isEmpty)) then none
  else if dup then
    let peers := s.pl.peers.map (fun (p : Nat × Peer) => (p.1, { p.2 with st := 0, relay := 0 }))
    some { s with pl := { s.pl with peers := peers } }
  else
    let s := new.foldl (fun s j => (s.setPeer j { s.peer j with st := 1, relay := 0 })) s
    some (new.foldl State.reroute { s with pl := Plat.portsUp { s.pl with trained := true, joined := true } })
/-- LINK_TRAINING (29:R321). -/
def execLinkTraining (peers : List Nat) (dup : Bool) (s : State) : Host.Outcome State Fault Refusal := unitStep s (s.trainedWith peers dup)
/-- HEARTBEAT (29:R330): one to every peer. -/
def execHeartbeat (s : State) : Host.Outcome State Fault Refusal := .next (s.livePeers.foldl (fun s j => s.emit (.heartbeat j)) s)

/-- 1 ms in ticks of 10 µs (29:R328, R335). -/
def checkTicks : Nat := 100
/-- A check of a lane: the third that fails within 1 ms fails the lane, until the package is reset (29:R328). -/
def State.checkLane (s : State) (j lane : Nat) (good : Bool) : Option State :=
  let p := s.peer j
  if 16 ≤ j || j == s.me || 48 ≤ lane then none
  else if good || p.lanes.contains lane then some s
  else if (p.checks.filter (·.1 == lane)).length < 2 then some (s.setPeer j { p with checks := p.checks ++ [(lane, checkTicks)] })
  else some ((s.setPeer j { p with checks := p.checks.filter (·.1 != lane), lanes := p.lanes ++ [lane] }).reroute j)
/-- A tick of the time in which failed checks count (29:R328). -/
def State.ageChecks (s : State) : State :=
  let age (p : Peer) : Peer := { p with checks := (p.checks.map (fun (c : Nat × Nat) => (c.1, c.2 - 1))).filter (·.2 != 0) }
  { s with pl := { s.pl with peers := s.pl.peers.map (fun (p : Nat × Peer) => (p.1, age p.2)) } }
/-- LANE_TEST (29:R328). -/
def execLaneTest (peer lane : Nat) (good : Bool) (s : State) : Host.Outcome State Fault Refusal := unitStep s (s.checkLane peer lane good)
/-- A failed lane runs on a spare; flits in flight to the peer are sent again (29:R328). -/
def State.spareLane (s : State) (j : Nat) : Option State :=
  let p := s.peer j
  if Nat.min p.fail 2 ≤ p.spu then none
  else some ((s.setPeer j { p with spu := p.spu + 1 }).resendAll j)
/-- LANE_SPARING_COMPLETE (29:R328). -/
def execLaneSparingComplete (peer : Nat) (s : State) : Host.Outcome State Fault Refusal := unitStep s (s.spareLane peer)

-- Replies -------------------------------------------------------------------------------------------------------------

/-- A store of a job or of a task node is refused: it ends FAULT at its payload or action, or as its status write gives (13:R186-R187, R198). -/
def State.storeFails (s : State) (tid : Nat) (t : Trap) : State :=
  if 2 ^ 40 ≤ tid then
    let fail (n : TaskNode) : TaskNode := if nodeTid n.die n.id = tid && n.stage = 1 then { n with fail := some (n.fail.getD t), acts := [] } else n
    { s with eng := { s.eng with tasks := s.eng.tasks.map fail } }
  else
    let e := (tid - 2 ^ 32) / 65536
    let fail (j : JobEntry) : JobEntry :=
      if j.jid ≠ (tid - 2 ^ 32) % 65536 then j
      else if j.stage = 1 ∧ j.st ≠ 4 then { j with todo := [], acts := [], st := 4, code := t.jobCode, faddr := t.tval }
      else if j.stage = 3 then { j with st := 4, code := t.jobCode, faddr := j.card + 8 }
      else j
    s.setEngine e { s.engine e with jobs := (s.engine e).jobs.map fail }
/-- The refusal of a part of a thread's store, which the last of its parts to be acknowledged reports (27:R317). -/
def State.partRefused (s : State) (p : Posted) (bad : Nat × Trap) : State :=
  if s.pl.posted.any (fun x => x.grp == p.grp && x.tid == p.tid) then
    { s with pl := { s.pl with posted := s.pl.posted.map (fun x => if x.grp = p.grp ∧ x.tid = p.tid then { x with bad := some bad } else x) } }
  else if s.pl.rests.any (fun x => x.grp == p.grp && x.acc.tid == p.tid) then
    { s with pl := { s.pl with rests := s.pl.rests.map (fun x => if x.grp = p.grp ∧ x.acc.tid = p.tid then { x with bad := some bad } else x) } }
  else s.refuseA p.tid bad.2
/-- The acknowledgement of a posted store: its refusal reaches its thread, job or node, and flags that wait for it go on (29:R324). Of the
refused parts of one instruction the lowest is reported (27:R317), and a part of class SO lets the next ones go (19:R252). -/
def State.acked (s : State) (tag : Nat) (r : Reply) : Option State :=
  match s.pl.posted.find? (·.tag == tag) with
  | none => none
  | some p =>
    let s := { s with pl := { s.pl with posted := s.pl.posted.filter (·.tag != tag) } }
    let s := s.plan ((s.pl.rests.filter (fun x => x.after == some tag)).map (fun x => .stores x.key))
    let s := match replyTrap r p.va p.pa with
      | none => if p.tid < 2 ^ 32 then (match p.bad with | some b => s.partRefused p b | none => s) else s
      | some t => if 2 ^ 60 ≤ p.tid then s else if 2 ^ 32 ≤ p.tid then s.storeFails p.tid t
        else s.partRefused p (match p.bad with
          | some b => if b.1 < tag then b else (tag, t)
          | none => (tag, t))
    some (s.flagTag tag (r == .done))
/-- The acknowledgement of a released store (21:R272). -/
def State.releaseAcked (s : State) (tag : Nat) (r : Reply) : Option State :=
  (s.ms.larder.find? (fun e => e.sent == some tag)).map (fun e => match replyTrap r e.va e.pa with
    | none => s.outOfLarder e []
    | some t => s.releaseRefused e t)
/-- An outstanding result waits for a tag. -/
def Outst.awaits (o : Outst) (tag : Nat) : Bool := o.src.tags.contains tag
/-- The fault that a refused part of a result carries. -/
def Outst.refusal (o : Outst) (tag : Nat) (r : Reply) : Option Trap := match o.src with
  | .parts ps _ => ps.findSome? (fun p => match p with
    | .wait g _ _ va pa => if g = tag then replyTrap r va pa else none
    | .have _ => none)
  | _ => none
/-- The parts of a result after a refusal under a tag: a refused part holds no bytes; and whether the first one that holds none was refused
now: it is the one reported (27:R317). -/
def refusedParts (tag : Nat) (ps : List Part) : List Part × Bool :=
  let hit (p : Part) : Bool := match p with
    | .wait g _ _ _ _ => g == tag
    | .have _ => false
  let first := (ps.find? (fun p => hit p || p == .have [])).any hit
  (ps.map (fun p => if hit p then .have [] else p), first)
/-- A reply reaches the thread that waits for its tag (03:R34-R35, 25:R303, 29:R326). -/
def Thread.replied (tag : Nat) (r : Reply) (bs : List Byte) (t : Thread) : Thread :=
  let mark (o : Outst) : Outst := match o.refusal tag r, o.src with
    | some x, .parts ps fix =>
      let q := refusedParts tag ps
      { o with src := .parts q.1 fix, fault := if q.2 then some x else o.fault }
    | _, _ => o
  let t := { t with flow := { t.flow with outs := t.flow.outs.map mark } }
  let t := t.fillTag tag bs
  { t with flow := { t.flow with heldReads := t.flow.heldReads.map (fun (h : HeldRead) => if h.tag = tag then { h with reply := some (r, bs) } else h) } }
/-- A packet's answer from another package (13:R180). -/
def State.packetReply (s : State) (tag : Nat) (ok : Bool) : Option State :=
  s.eng.router.findSome? (fun m => match m with
    | .packetWait g src q p => if g = tag then some ((s.dropMsg (.packetWait g src q p)).toRouter (.packetAck src q ok)) else none
    | _ => none)
/-- Records that wait at another package, for the answers that `p` selects by 16 times the tag plus the package, read again (13:R178). -/
def State.wakeFar (s : State) (p : Nat → Bool) : State :=
  (((s.ms.waits.map (·.line)).filter (fun l => decide (2 ^ 61 ≤ l) && p (l - 2 ^ 61))).dedup).foldl State.wakeLine s
/-- Exchange entries that `p` selects are no longer under way. -/
def State.dropSent (s : State) (p : Sent → Bool) : State :=
  { s with eng := { s.eng with compacts := s.eng.compacts.map (fun (c : Nat × Compact) => (c.1, { c.2 with sent := c.2.sent.filter (fun x => !p x) })) } }
/-- An exchange entry has landed; of one that is lost, outside every group, the member thread that opened its exchange takes MCHECK with
the address it was to land at; a thread whose packet is lost takes MCHECK too (03:R43, 29:R325, 27:R311; log 93). -/
def State.sentAck (s : State) (tag : Nat) (r : Reply) : State :=
  let s := if r != .lost then s else s.eng.router.foldl (fun s m => match m with
    | .packetWait g src _ p => if g = tag then s.refuseA src ⟨.mcheck, 0, BitVec.ofNat 64 (p % 16 * 2 ^ 48)⟩ else s
    | _ => s) s
  match s.eng.compacts.findSome? (fun c => (c.2.sent.find? (·.tag == tag)).map (fun x => (c.2, x))) with
  | none => s
  | some (c, x) =>
    let s := s.dropSent (·.tag == tag)
    if r != .lost then s else match c.members.find? (·.tile == x.tile) with
      | some m => s.refuseA m.tid ⟨.mcheck, 0, BitVec.ofNat 64 x.pa⟩
      | none => s
/-- The domain whose data a tag carries: that of a thread, a job, a task node, a compact, a unit's own access or a held store. -/
def State.ownerOf (s : State) (tag : Nat) : Option Nat :=
  let byTid (tid : Nat) : Option Nat :=
    if 2 ^ 62 ≤ tid then some (tid - 2 ^ 62)
    else if 2 ^ 60 ≤ tid then (s.compact? (tid - 2 ^ 60)).map (·.dom)
    else if 2 ^ 40 ≤ tid then (s.eng.tasks.find? (fun n => nodeTid n.die n.id == tid)).map (·.dom)
    else if 2 ^ 32 ≤ tid then (s.engine ((tid - 2 ^ 32) / 65536)).jobs.findSome? (fun j => if j.jid = (tid - 2 ^ 32) % 65536 then some j.dom else none)
    else (s.thread? tid).map (·.dom)
  match s.pl.posted.find? (·.tag == tag), s.eng.compacts.find? (fun c => c.2.sent.any (·.tag == tag)), s.pl.refills.find? (·.tag == tag) with
  | some p, _, _ => byTid p.tid
  | none, some c, _ => some c.2.dom
  | none, none, some x => (s.compact? x.bar).map (·.dom)
  | none, none, none =>
    let packet := s.eng.router.findSome? (fun m => match m with
      | .packetWait g src _ _ => if g = tag then some src else none
      | _ => none)
    match s.ms.larder.find? (·.sent == some tag), packet with
    | some e, _ => some (e.dom % 1024)
    | none, some src => byTid src
    | none, none => (s.threads.find? (fun t => t.flow.outs.any (·.awaits tag) || t.flow.heldReads.any (·.tag == tag))).map (·.dom)
/-- The group whose data a tag carries: that of a posted store stays it after its thread has gone. -/
def State.groupOfTag (s : State) (tag : Nat) : Option Nat := match s.pl.posted.find? (·.tag == tag) with
  | some p => if p.node = 0 then (s.ownerOf tag).bind s.nodeOf else some p.node
  | none => (s.ownerOf tag).bind s.nodeOf
/-- What travels by Ethernet under a tag: its UET peer (29:R332-R333). -/
def State.ethernetTag (s : State) (tag : Nat) : Option Nat :=
  (s.eng.compacts.findSome? (fun c => (c.2.sent.find? (fun x => x.tag == tag && x.path == 1)).map (·.pkg))).or
    (s.eng.router.findSome? (fun m => match m with
      | .packetWait g _ _ p => if g = tag ∧ 16 ≤ p then some p else none
      | _ => none))
/-- A reply under a tag: an acknowledgement, a packet's answer, or the bytes of a read (29:R323-R326). -/
def State.reply (s : State) (tag : Nat) (r : Reply) (bs : List Byte) : State :=
  let s := s.flitsIn ((s.ownerOf tag).getD 0) (dataFlits bs.length)
  let s := (s.wakeFar (· / 16 == tag)).sentAck tag r
  let s := match s.pl.refills.find? (·.tag == tag) with
    | some x => s.refilled x bs
    | none => s
  match (s.acked tag r).or (s.releaseAcked tag r) with
  | some s => s.mapThreads (Thread.replied tag r bs)
  | none => match s.packetReply tag (r == .done) with
    | some s => s
    | none => s.mapThreads (Thread.replied tag r bs)
/-- STORE_ACK (29:R324): an acknowledgement, which may answer a held store. -/
def execStoreAck (tag : Nat) (st : Reply) (s : State) : Host.Outcome State Fault Refusal := .next (s.reply tag st [])
def State.forgetNacks (s : State) (tag : Nat) : State := { s with pl := { s.pl with nacked := delKey s.pl.nacked tag } }
/-- A flit is lost beyond retry: its group rolls back, or its thread takes MCHECK (29:R325, 21:R273, 27:R311). A frame lost on Ethernet is
sent again by the transport (R333). -/
def State.lose (s : State) (tag : Nat) : Option State :=
  let s := s.forgetNacks tag
  match s.ethernetTag tag, s.groupOfTag tag, s.ownerOf tag with
  | some p, _, f => some ((s.count (325 + Config.uetPort s.fresh % 8) (f.getD 0) 3 1).emit (.resend p tag)).tick
  | none, some n, _ => some (s.rollBack n 4 s.me (Config.lostPlane s.fresh % 48)).tick
  | none, none, some _ => some (s.reply tag .lost [])
  | none, none, none => none
/-- A flit that fails its check counts against its lane, and is asked for again, up to 16 times (29:R325, R328). -/
def State.badFlit (s : State) (peer lane tag : Nat) : State :=
  let s := (s.checkLane peer lane false).getD s
  let k := lookupD s.pl.nacked tag 0
  if k < 16 then State.emit { s with pl := { s.pl with nacked := setKey s.pl.nacked tag (k + 1) } } (.nack peer tag)
  else (s.lose tag).getD (s.forgetNacks tag)
/-- FLIT_RECEIVE (29:R323, R325). -/
def execFlitReceive (peer lane : Nat) (good : Bool) (tag : Nat) (st : Reply) (data : List Byte) (s : State) : Host.Outcome State Fault Refusal :=
  .next (if good then (s.forgetNacks tag).reply tag st data else s.badFlit peer lane tag)
/-- FLIT_LOST (29:R325). -/
def execFlitLost (tag : Nat) (s : State) : Host.Outcome State Fault Refusal := unitStep s (s.lose tag)

-- Requests of other packages ------------------------------------------------------------------------------------------

/-- A member of another package pins a line homed here: domain, pins of others, the other copies, its bytes where INIT is 1 (03:R38-R39);
a compact that resumes has its line again (R47). -/
def State.servePin (s : State) (bar : Nat) (init : Bool) (dom : Nat) (priv : Priv) (off pkg : Nat) : Served :=
  match (if regionOf off = .dram && s.dramPermitted dom priv off then lineOf off else none) with
  | none => .no .domain
  | some line =>
    let bytes (s : State) : Served :=
      if !init then .ok [] s
      else if s.badAt line 192 then (match s.detect line with
        | (true, s) => .ok (s.homeBytes line 192) s
        | (false, _) => .no .lost)
      else .ok (s.homeBytes line 192) s
    match s.pinOfHome line with
    | some p =>
      if p.bar = bar && p.far = some pkg && p.away then
        bytes { s with ms := { s.ms with pins := s.ms.pins.map (fun (q : Pin) => if q = p then { q with away := false } else q) } }
      else .no .pinned
    | none =>
      let s := s.othersYield noTile dom line true
      bytes { s with ms := { s.ms with pins := s.ms.pins ++ [(⟨line, bar, some pkg, 0, 0, 0, false, init, false⟩ : Pin)] } }
/-- What a member of another package does with a line it has pinned here; reads that went on to it come back (03:R41, R46-R47, 27:R314). -/
def State.farPinned (s : State) (bar pkg off : Nat) (f : Pin → State → State) : State :=
  match s.ms.pins.find? (fun p => p.line == off && p.bar == bar && p.far == some pkg) with
  | some p => f p s
  | none => s
/-- Reads forwarded to a package are answered: the home forgets them. -/
def State.answered (s : State) (line pkg : Nat) : State :=
  { s with ms := { s.ms with defer := s.ms.defer.filter (fun d => !(d.tile == noTile + 1 + pkg && decide (line ≤ d.pa && d.pa < line + 192))) } }
def State.unpinFar (s : State) (p : Pin) (pkg : Nat) : State :=
  State.answered { s with ms := { s.ms with pins := s.ms.pins.filter (fun q => q != p) } } p.line pkg
/-- An answer to a requester, on this package or another. -/
def State.answer (s : State) (f pkg tag : Nat) (r : Reply) (bs : List Byte) : State :=
  if pkg = s.me then s.reply tag r bs else s.sendReply f pkg tag r bs
def State.answerServed (s : State) (f pkg tag : Nat) (x : Served) : State := match x with
  | .ok bs s => s.answer f pkg tag .done bs
  | .held s => s
  | .no r => s.answer f pkg tag r []
/-- A request about one line of this package: CWB, CINV, DISCARD; a pinned line is left, or refuses (13:R199). -/
def State.serveLine (s : State) (kind : ReqKind) (f rin line pkg tag : Nat) : State :=
  let pinned := (s.pinOfHome line).isSome
  match kind with
  | .clean => (if pinned then s else s.cleanLines (· == line)).answer f pkg tag .done []
  | .inval => (if pinned then s else s.dropLines (· == line) false).answer f pkg tag .done []
  | .discard =>
    if pinned then s.answer f pkg tag .pinned []
    else (match s.untagged f rin ⟨0, line, 192, 0⟩ with
      | some s => s
      | none => (s.discardLine f rin line true).answer f pkg tag .done [])
  | _ => s.answer f pkg tag (if pinned then .pinned else .done) []
/-- A flit for another package, sent to this one as the relay of its pair, goes on to it unchanged (29:R329, 25:R309). -/
def State.pass (s : State) (kind : ReqKind) (pa dom pkg tag rin : Nat) (data : List Byte) : Option State :=
  let j := pa / 2 ^ 48
  if (s.peer j).st = 1 then
    some ((s.count 324 (dom % 1024) 3 (Nat.max 1 (reqFlits kind data.length))).emit (.passed kind j pkg tag pa dom rin data))
  else none
/-- A request of another package: a read asks for as many bytes as `data` holds (13:R178-R179, R199, 03:R39-R41, R46-R47, 29:R323, R326;
log 13). A read forwarded to a package whose member has released the line since goes back to its home. -/
def State.remote (s : State) (kind : ReqKind) (pa dom pkg tag rin : Nat) (data : List Byte) : Option State :=
  let off := pa % 2 ^ 48
  let f := dom % 1024
  let priv : Priv := if dom < 1024 then .s else .h
  let n := Nat.max data.length 1
  let s := if pa / 2 ^ 48 = s.me then s.flitsIn f (reqFlits kind data.length) else s
  match kind with
  | .forward p t =>
    if pa / 2 ^ 48 = s.me then some (s.answerServed f p t (s.serve .read f priv off n data p t rin))
    else (match s.pinOfFar pa with
      | some pin =>
        let loc := sramAddr pin.tile (pin.sline * 192) + (2 ^ 60 + pa - pin.line)
        some { s with ms := { s.ms with defer := s.ms.defer ++ [(⟨loc, n, t, pin.tile, some p, f⟩ : Deferred)] } }
      | none => some ((s.emit (.request (.forward p t) (pa / 2 ^ 48) s.fresh pa dom rin data)).flits f 0).tick)
  | _ =>
    if pa / 2 ^ 48 ≠ s.me then s.pass kind pa dom pkg tag rin data
    else match kind with
      | .acc k => some (s.answerServed f pkg tag (s.serve k f priv off n data pkg tag rin))
      | .wake => some (s.wakeLine (waitLine off))
      | .waiter => some { s with ms := { s.ms with waits := s.ms.waits ++ [(⟨waitLine off, 0, f, 0, 0, some (pkg, tag)⟩ : Waiter)] } }
      | .pin bar init => some (s.answerServed f pkg tag (s.servePin bar init f priv off pkg))
      | .unpin bar dirty =>
        some ((s.farPinned bar pkg off (fun p s => (s.unpinFar p pkg).sectorsHome f off rin dirty data)).answer f pkg tag .done [])
      | .publish bar dirty =>
        some ((s.farPinned bar pkg off (fun p s =>
          let s := s.unpinFar p pkg
          s.owned f rin off (noTile + 1 + pkg) off dirty data)).answer f pkg tag .done [])
      | .save bar dirty away =>
        some ((s.farPinned bar pkg off (fun p s =>
          let pins := s.ms.pins.map (fun (q : Pin) => if q = p then { q with away := away } else q)
          let s := { s with ms := { s.ms with pins := pins } }
          (if away then s.answered off pkg else s).sectorsHome f off rin dirty data)).answer f pkg tag .done [])
      | k => (lineOf off).map (fun line => s.serveLine k f rin line pkg tag)
/-- REMOTE_REQUEST (29:R326): `src` is the requester, its package and tag. -/
def execRemoteRequest (kind : ReqKind) (pa dom : Nat) (src : Nat × Nat) (rin : Nat) (data : List Byte) (s : State) : Host.Outcome State Fault Refusal :=
  unitStep s (s.remote kind pa dom src.1 src.2 rin data)

-- Dead packages -------------------------------------------------------------------------------------------------------

/-- The rollback of a group that had a partition on a dead package (29:R330 step 2): its survivors go on without it. -/
def State.rollDead (s : State) (n p : Nat) : State :=
  let s := s.settleCommit n
  let g := s.rgs n
  (s.setRgs n { g with
    peers := g.peers.filter (· != p), prepared := g.prepared.filter (· != p), stopped := g.stopped.filter (·.1 != p) }).rollFrom n 6 p 0
/-- Reads that went on to members of a dead package are served from memory, its pins are gone (29:R330 step 3). -/
def State.serveDead (s : State) (p : Nat) : State :=
  let s := (s.ms.defer.filter (·.tile == noTile + 1 + p)).foldl (fun s d =>
    let s' := { s with ms := { s.ms with defer := s.ms.defer.filter (· != d) } }
    s'.answer d.dom (d.remote.getD s.me) d.tag .done (s.homeBytes d.pa d.n)) s
  { s with ms := { s.ms with pins := s.ms.pins.filter (fun q => q.far != some p) } }
/-- Compacts of no group with a member on a dead package (29:R330 step 3, 27:R314). -/
def State.failDead (s : State) (p : Nat) : State :=
  (s.eng.compacts.filter (fun c => c.2.node == 0 && (s.packagesOf c.2.dom c.2.coords).contains p)).foldl (fun s c => s.failCompact c.1 c.2 6) s
/-- Announcements lie at least 40 µs before they take effect: the fifth tick after one made between ticks (29:R335). -/
def leadTicks : Nat := 5
/-- A dead package leaves the clock group at once; AGR is formed anew 40 µs later (29:R330 step 6, R336-R337; log 53). -/
def State.leaveClock (s : State) (p : Nat) : State :=
  let members := s.pl.members.map (fun (m : Nat × ClockMember) =>
    if Config.memberPkg (s.pl.group.getD 0) m.1 = p then (m.1, { m.2 with pend := [(128, leadTicks)] }) else m)
  { s with pl := { s.pl with members := members } }
/-- A package is declared dead (29:R330): its groups roll back, exchanges under way to it are discarded, other accesses under way take
NOTILE, packets are refused, records that wait there read again. -/
def State.declareDead (s : State) (p : Nat) : Option State :=
  if 16 ≤ p || p == s.me || (s.peer p).st == 3 then none
  else
    let s := (s.setPeer p { s.peer p with st := 3, relay := 0 }).leaveClock p
    let s := (s.st.parts.filter (fun n => (s.rgs n).peers.contains p)).foldl (fun s n => s.rollDead n p) s
    let s := (((s.dropSent (·.pkg == p)).failDead p).serveDead p).wakeFar (· % 16 == p)
    some ((s.inFlight p).foldl (fun s g => s.reply g .notile []) s).rerouteAll
/-- PACKAGE_DEAD (29:R330). -/
def execPackageDead (p : Nat) (s : State) : Host.Outcome State Fault Refusal := unitStep s (s.declareDead p)

/-- A package leaves its Berven domain in order (29:R331): its peers mark it ABSENT. -/
def State.peerLeft (s : State) (p : Nat) : State := (s.setPeer p { s.peer p with st := 0, relay := 0 }).rerouteAll
/-- What another package's steward says: kind 6 of its domain, the others of a partition's group (29:R331, 21:R267-R274). -/
def State.hear (s : State) (kind n pkg : Nat) : State := if kind = 6 then s.peerLeft pkg else s.told kind n pkg

-- Endpoint tables -----------------------------------------------------------------------------------------------------

/-- A write of word `w` of EPT[f] entry `p` (29:R332). -/
def State.eptPut (s : State) (f p w : Nat) (x : Word) : State :=
  let old : Word × Word := match s.pl.ept.find? (fun e => e.1 == f * 16 + p) with
    | some (_, v) => v
    | none => (pack [(p, 58)], 0)
  let k := bits x.toNat 63 62
  if 512 < f ∨ 16 ≤ p ∨ p = s.pl.pkg ∨ (w = 0 ∧ (k = 1 ∨ bits x.toNat 49 0 ≠ 0 ∨ (k = 2 ∧ bits x.toNat 57 50 = 0))) then s
  else { s with pl := { s.pl with ept := setKey s.pl.ept (f * 16 + p) (if w = 0 then (x, old.2) else (old.1, x)) } }
/-- EPT_WRITE (29:R332). -/
def execEptWrite (f p w : Nat) (x : Word) (s : State) : Host.Outcome State Fault Refusal := .next (s.eptPut f p w x)

end Sys2Proof.Machine
end

