-- ==== Sys2Proof/Machine/Platform.lean ====
section
/-! DEFINITION. Clock groups, power, sensors, sparing, boot and firmware, measurements, TDISP and configuration requests, and writes
of MMIO registers (15:R221, 17:R224, R227, R348, 21:R264, 23:R278, 29:R321, R332-R339, 31:R340-R347). -/

namespace Sys2Proof.Machine
open Sys2Proof

-- Clock groups --------------------------------------------------------------------------------------------------------

def State.setPl (s : State) (p : Plat) : State := { s with pl := p }
/-- The package's own ceiling has changed: announced to its group, or in effect at once outside one (29:R334-R336). -/
def State.ceilChanged (s : State) : State :=
  let c := s.ownCeil
  if s.pl.group.isNone then s.setPl { s.pl with cur := c, self := ⟨c, [], 0, false⟩ }
  else (s.setPl { s.pl with self := { s.pl.self with pend := s.pl.self.pend ++ [(c, leadTicks)] } }).tellClock s.pl.index c
/-- HCEIL_WRITE (29:R334). -/
def execHceilWrite (level : Nat) (s : State) : Host.Outcome State Fault Refusal :=
  .next (if 60 < level then s else State.ceilChanged (s.setPl { s.pl with hceil := level }))
def State.setMember (s : State) (m : Nat) (x : ClockMember) : State := s.setPl { s.pl with members := setKey s.pl.members m x }
/-- A silent member's removal, told to the group and in effect 40 µs later (29:R337 steps 3 and 4). -/
def State.removeSilent (s : State) (m : Nat) : Option State :=
  match s.pl.members.find? (·.1 == m) with
  | some (_, x) => if x.silent then some ((s.setMember m { x with pend := x.pend ++ [(128, leadTicks)] }).tellClock m 128) else none
  | none => none
/-- CK_EVICT (29:R334, R337): the host removes a silent member. -/
def execCkEvict (m : Nat) (s : State) : Host.Outcome State Fault Refusal := unitStep s (s.removeSilent m)
/-- SILENT_REMOVAL (29:R337). -/
def execSilentRemoval (m : Nat) (s : State) : Host.Outcome State Fault Refusal := .next ((s.removeSilent m).getD s)
def State.dropJoin (s : State) (tid : Nat) : State := s.setPl { s.pl with joins := delKey s.pl.joins tid }
def State.setJoin (s : State) (tid : Nat) (w : Word) : State := s.setPl { s.pl with joins := setKey s.pl.joins tid w }
/-- The pending joins are agreed: the package is a member of the group asked for first (29:R336). -/
def State.agreeJoins (s : State) : State :=
  s.pl.joins.foldl (fun s j =>
    if bits j.2.toNat 33 32 ≠ 0 ∨ s.pl.group.isSome then s
    else (s.joinGroup (bits j.2.toNat 15 0) false).setJoin j.1 (j.2 ||| 0x100000000)) s
/-- CLKJ (15:R221, 29:R336): its announcement comes before its member index, 64 standing for that; bits 32 and 33 of a pending join say that it was agreed, or that its time is over. -/
def execClkj (m : Mark) (d a : Reg) (s : State) : Host.Outcome State Fault Refusal :=
  s.issue (.clkj m d a) (fun s =>
    let t := s.th
    let g := (t.gr a).toNat
    if g = 0 ∨ 65536 ≤ g then .trap ⟨.illstate, 0, t.pc⟩
    else match s.pl.joins.find? (·.1 == t.tid) with
      | none =>
        if s.pl.group.isSome then .ok (s.gw d 1)
        else .hold 2 ((s.setJoin t.tid (BitVec.ofNat 64 g)).emit (.ceiling g 64 s.ownCeil))
      | some (_, w) =>
        if bits w.toNat 33 33 = 1 then .ok ((s.dropJoin t.tid).gw d 2)
        else if bits w.toNat 32 32 = 1 then .ok ((s.dropJoin t.tid).gw d 0)
        else if s.pl.group.isSome then .ok ((s.dropJoin t.tid).gw d 1)
        else .hold 2 s)
/-- CLKL (15:R221, 29:R336). -/
def execClkl (m : Mark) (d : Reg) (s : State) : Host.Outcome State Fault Refusal :=
  s.issue (.clkl m d) (fun s =>
    if s.pl.group.isNone then .ok (s.gw d 1)
    else if s.pl.autoJoin && s.eng.compacts.any (·.2.clk) then .ok (s.gw d 2)
    else
      let u := (s.tellClock s.pl.index 128).outOfGroup
      .ok ((u.setPl { u.pl with cur := s.ownCeil }).gw d 0))
/-- CLOCK_JOIN_TIMEOUT (15:R221). -/
def execClockJoinTimeout (tid : Nat) (s : State) : Host.Outcome State Fault Refusal :=
  .next (match s.pl.joins.find? (·.1 == tid) with
    | some (_, w) => if bits w.toNat 33 32 = 0 then s.setJoin tid (w ||| 0x200000000) else s
    | none => s)

/-- One tick of a member: waits and announcements count down; due ones take effect in the order made. -/
def ClockMember.tick (m : ClockMember) : ClockMember :=
  let p := m.pend.map (fun (x : Nat × Nat) => (x.1, x.2 - 1))
  { m with ceil := ((p.filter (·.2 == 0)).map (·.1)).getLastD m.ceil, pend := p.filter (·.2 != 0), wait := m.wait - 1 }
/-- A thermal trip: level 0 at once, announced like any change, which replaces those still to come (29:R335, 31:R344). -/
def State.trip (s : State) : State :=
  let s := s.setPl { s.pl with ownLimit := 0 }
  let s := if s.pl.group.isSome then s.tellClock s.pl.index 0 else s
  s.setPl { s.pl with self := { s.pl.self with ceil := 0, pend := [] }, cur := 0 }
/-- Every arithmetic clock stops until a reset (31:R344). -/
def State.overheats (s : State) (tj : Nat) : State :=
  if s.pl.stopped then s
  else State.postEvent (s.setPl { s.pl with tj := tj % 65536, stopped := true }) 0 9 (BitVec.ofNat 64 (tj % 65536))
/-- What the sensors show, and the package's own limit after it (31:R343-R344; log 32). -/
def State.sense (s : State) : State :=
  let tj := Config.sensor 0 s.fresh % 65536
  let flow := Config.sensor 2 s.fresh % 65536
  let was := s.ownCeil
  let lim := if 380 ≤ tj then was - 1 else Nat.max s.pl.ownLimit (Config.sensor 3 s.fresh % 61)
  let s := State.tick (s.setPl { s.pl with tj := tj, flow := flow, watts := Config.sensor 1 s.fresh % 65536, ownLimit := lim })
  let s := if s.ownCeil != was then s.ceilChanged else s
  if 460 ≤ tj then s.trip.overheats tj else if 420 ≤ tj ∨ flow < 100 then s.trip else s
/-- AGR and CUR at a tick (29:R335-R337). -/
def State.agree (s : State) : State :=
  if s.pl.group.isNone then s.setPl { s.pl with agr := 60, cur := s.ownCeil }
  else
    let self := s.pl.self.tick
    let ms := (s.pl.members.map (fun (p : Nat × ClockMember) => (p.1, p.2.tick))).filter (fun p => p.2.ceil < 128)
    let ceils := (ms.filter (fun p => p.2.wait == 0)).map (fun (p : Nat × ClockMember) => if p.2.silent then 0 else p.2.ceil)
    let agr := (if self.wait = 0 then self.ceil :: ceils else ceils).foldl Nat.min 60
    s.setPl { s.pl with members := ms, self := self, agr := agr, cur := Nat.min self.ceil agr }
/-- CLOCK_TICK (29:R335, 31:R344). -/
def execClockTick (s : State) : Host.Outcome State Fault Refusal := .next (s.ageChecks.sense.agreeJoins.agree)
/-- CLOCK_ANNOUNCEMENT (29:R335-R337): the ceiling of a member, 128 for one that leaves; a silent member that speaks is live. -/
def State.announced (s : State) (m level : Nat) : Option State :=
  if 64 ≤ m ∨ (60 < level ∧ level ≠ 128) ∨ (s.pl.group.isSome ∧ m = s.pl.index) then none
  else
    let s := s.agreeJoins
    if s.pl.group.isNone then none
    else match s.pl.members.find? (·.1 == m) with
      | none => if level = 128 then none else some (s.setMember m ⟨level, [], leadTicks, false⟩)
      | some (_, x) => some (s.setMember m { x with silent := false, pend := x.pend ++ [(level, leadTicks)] })
/-- CLOCK_ANNOUNCEMENT (29:R335). -/
def execClockAnnouncement (m level : Nat) (s : State) : Host.Outcome State Fault Refusal := unitStep s (s.announced m level)
/-- CLOCK_HEARTBEAT (29:R335): the package's ceiling to its group. -/
def execClockHeartbeat (s : State) : Host.Outcome State Fault Refusal :=
  .next (if s.pl.group.isSome then s.tellClock s.pl.index s.ownCeil else s)
/-- A member is silent (29:R337): level 0 from the next tick, and CLOCK_SILENT to the PF. -/
def State.silence (s : State) (m : Nat) : Option State :=
  match s.pl.members.find? (·.1 == m) with
  | some (_, x) => if x.silent || x.pend.any (·.1 == 128) then none
      else some ((s.setMember m { x with silent := true, ceil := 0, pend := [] }).postEvent 0 7 (BitVec.ofNat 64 (s.pl.group.getD 0)))
  | none => none
/-- CLOCK_SILENT (29:R337). -/
def execClockSilent (m : Nat) (s : State) : Host.Outcome State Fault Refusal := unitStep s (s.silence m)
/-- THERMAL_TRIP (29:R335, 31:R344). -/
def execThermalTrip (s : State) : Host.Outcome State Fault Refusal := .next s.trip
/-- OVERHEAT (31:R344). -/
def execOverheat (tj : Nat) (s : State) : Host.Outcome State Fault Refusal := .next (s.overheats tj)

-- Power ---------------------------------------------------------------------------------------------------------------

/-- A write of RUN (31:R343): clocks restart; ports that were enabled train again before CUR leaves LOW. -/
def State.runPower (s : State) : State :=
  s.setPl (if s.pl.pwCur = 2 then Plat.portsUp { s.pl with pwReq := 0, leaving := true } else { s.pl with pwReq := 0, pwCur := 0 })
/-- PW_RUN (31:R343). -/
def execPwRun (s : State) : Host.Outcome State Fault Refusal := .next s.runPower
/-- PW_HOLD (31:R343). -/
def execPwHold (s : State) : Host.Outcome State Fault Refusal := .next (s.setPl { s.pl with pwReq := 1 })
/-- PW_LOW (31:R343). -/
def execPwLow (s : State) : Host.Outcome State Fault Refusal := .next (s.setPl { s.pl with pwReq := 2 })
/-- A requested HOLD or LOW is reached once every partition is idle, which it stays while the clocks stand; LOW takes the ports down, and
HOLD after LOW is reached once they have trained again (31:R343). -/
def State.powerReached (s : State) : Option State :=
  let p := s.pl
  if p.pwReq = 0 ∨ (p.pwCur = p.pwReq ∧ !p.leaving) then none
  else if s.clocked && !s.st.parts.all s.partIdle then none
  else if p.pwReq = 1 ∧ p.pwCur = 2 ∧ (p.ethDown ∨ (p.en ∧ !p.trained)) then none
  else if p.pwReq = 2 then
    some (s.setPl { p with pwCur := 2, leaving := false, trained := false, ethDown := p.ept.any (fun e => bits e.2.1.toNat 63 62 == 2) })
  else some (s.setPl { p with pwCur := p.pwReq, leaving := false })
/-- POWER_STATE_REACHED (31:R343). -/
def execPowerStateReached (s : State) : Host.Outcome State Fault Refusal := unitStep s s.powerReached

-- Sparing -------------------------------------------------------------------------------------------------------------

/-- A write of SP.TRET (31:R347); inside a seal's commit of the tile's group, it takes effect after that. -/
def State.retireAt (s : State) (x : Word) : State :=
  let t := bits x.toNat 10 0
  if bits x.toNat 63 63 = 0 then s.setPl { s.pl with tretBusy := false }
  else if 1536 ≤ t ∨ (s.tile t).dps.any (·.v) then s.setPl { s.pl with tretBusy := true }
  else if (s.coverTile t).any (fun n => (s.rgs n).cmt) then
    State.setPl { s with st := { s.st with toRetire := s.st.toRetire ++ [t] } } { s.pl with tretBusy := false }
  else State.retireTile (s.setPl { s.pl with tretBusy := false }) t
/-- SP_TRET (31:R347). -/
def execSpTret (x : Word) (s : State) : Host.Outcome State Fault Refusal := .next (s.retireAt x)
/-- ROW_SPARE (31:R346): a row is copied to a spare; no outcome differs. -/
def execRowSpare (pa : Nat) (s : State) : Host.Outcome State Fault Refusal :=
  .next (if pa % 2 ^ 48 < Config.dramEnd then s.spareRow (pa % 2 ^ 48) else s)

-- Boot and firmware ---------------------------------------------------------------------------------------------------

/-- An image verifies: `fwVer` is 65536 or more for one whose signature does not (31:R341). -/
def Plat.imageOk (p : Plat) (slot : Nat) : Bool := p.fwVer.getD slot 65536 < 65536 && p.fwMin ≤ p.fwVer.getD slot 65536
/-- Cold reset or PERST# (31:R340 step 1): what the package flash and fuses keep, and what lies outside, host memory and sensors, stays; the
agenda and the counter of free values are the model's own. -/
def State.coldReset (s : State) : State :=
  let p := State.reset.pl
  { State.reset with
      ms := { State.reset.ms with mem := s.ms.mem.filter (fun c => regionOf c.1 == .host) }
      st := { State.reset.st with retired := s.st.retired },
      pl := { p with key := s.pl.key + 1, fwFirst := s.pl.fwFirst, fwVer := s.pl.fwVer, fwMin := s.pl.fwMin, tj := s.pl.tj, watts := s.pl.watts, flow := s.pl.flow, bret := s.pl.bret, spared := s.pl.spared },
      inbox := s.inbox, fresh := s.fresh }
/-- COLD_RESET (31:R340). -/
def execColdReset (s : State) : Host.Outcome State Fault Refusal := .next s.coldReset
/-- The package runs the image of a slot; CUR is the level at which the clock then runs (31:R340 steps 4-5, 15:R206). -/
def State.runImage (s : State) (slot : Nat) : State := s.setPl { s.pl with fwSt := 1, fwSlot := slot, cur := s.ownCeil }
/-- The boot ROM loads slot A, else slot B, else the package stops (31:R340 steps 2-5); after an update the slot it wrote comes first
(R341; log 95). -/
def State.boot (s : State) : State :=
  let i := s.pl.fwFirst
  if s.pl.imageOk i then s.runImage i
  else if s.pl.imageOk (1 - i) then s.runImage (1 - i)
  else s.setPl { s.pl with fwSt := 3 }
/-- FIRMWARE_UPDATE (31:R341): the slot that is not running; the fused minimum rises to a verified version only. -/
def execFirmwareUpdate (ver : Nat) (verified raiseMin : Bool) (s : State) : Host.Outcome State Fault Refusal :=
  let v := ver % 65536
  let slots := s.pl.fwVer.set (1 - s.pl.fwSlot) (if verified then v else v + 65536)
  .next (if s.pl.fwSt ≠ 1 then s
    else s.setPl { s.pl with fwVer := slots, fwFirst := 1 - s.pl.fwSlot, fwMin := if raiseMin ∧ verified then Nat.max s.pl.fwMin v else s.pl.fwMin })
/-- The configuration items that a VF's interface locks: its binding, VFCFG, L2.MASK, TCR, the BOWN of its node's blocks and its domain
partition registers, each tile's with the tile (29:R339). -/
def State.lockedItems (s : State) (f : Nat) : List Nat :=
  let n := (s.nodeOf f).getD 0
  let c := s.cfg f
  let t := lookupD s.st.tcrs f ⟨0, 0, []⟩
  let dps := s.tiles.flatMap (fun x => (List.range 4).flatMap (fun i =>
    let d := x.2.dps.getD i .reset
    if d.v && d.dom == f then x.1 :: i :: (List.range 4).map (fun w => (d.word w).toNat) else []))
  n :: [c.slice, c.weight, c.qmax, c.bdram, c.bflit, c.bcopy, c.bl2f, c.sealto, c.svec.toNat, c.gtab.toNat, c.gcnt, s.l2mask f, t.root.toNat, t.gtv.toNat] ++
    ((List.range 288).filter (fun b => n != 0 && s.blockNode b == n)).map (fun b => (s.bownWord b).toNat) ++ dps
/-- What measurement block `k` holds (31:R342). -/
def State.measured (s : State) (k : Nat) : List Nat := match k with
  | 1 => [Config.bootRom]
  | 2 =>
    let v := s.pl.fwVer.getD s.pl.fwSlot 0
    [Config.imageDigest s.pl.fwSlot v, v % 65536]
  | 3 => Config.plugins s.fresh
  | 4 => s.pl.spared ++ s.pl.bret ++ s.st.retired
  | 5 => (List.range 512).flatMap (fun i => [lookupD s.pl.tdisp (i + 1) 0, Config.sha256 (s.lockedItems (i + 1))])
  | _ => []
/-- GET_MEASUREMENTS (31:R342): the signed blocks; indices 6 to 0xFE are not used. -/
def execGetMeasurements (index : Nat) (s : State) : Host.Outcome State Fault Refusal :=
  let blocks := if index = 255 then [1, 2, 3, 4, 5] else if 1 ≤ index ∧ index ≤ 5 then [index] else []
  .next (blocks.foldl (fun s k => (s.emit (.measurement k (s.measured k) (Config.signature s.fresh))).tick) s)

-- Host link -----------------------------------------------------------------------------------------------------------

/-- A TDISP message (29:R339; log 17). Interface states: 0 CONFIG_UNLOCKED, 1 CONFIG_LOCKED, 2 RUN, 3 ERROR. -/
def State.tdispMsg (s : State) (f : Nat) (msg : TdispMsg) : Option State :=
  let k := lookupD s.pl.tdisp f 0
  let to_ (x : Nat) : Option State := some (s.setPl { s.pl with tdisp := setKey s.pl.tdisp f x })
  if f = 0 ∨ 512 < f then none
  else match msg with
    | .lock => if k = 0 then to_ 1 else none
    | .start => if k = 1 then to_ 2 else none
    | .stop => to_ 0
    | .report => some ((s.emit (.report f k (s.lockedItems f) (Config.signature s.fresh))).tick)
/-- TDISP_REQUEST (29:R339). -/
def execTdispRequest (f : Nat) (msg : TdispMsg) (s : State) : Host.Outcome State Fault Refusal := unitStep s (s.tdispMsg f msg)
/-- IDE_KM_REQUEST (29:R339): link IDE, stream 0, and up to 8 selective streams. -/
def execIdeKmRequest (stream : Nat) (go : Bool) (s : State) : Host.Outcome State Fault Refusal :=
  .next (if go ∧ stream ≤ 8 ∧ !s.pl.ide.contains stream then s.setPl { s.pl with ide := s.pl.ide ++ [stream] } else s)
/-- UNSUPPORTED_REQUEST (29:R339): completed with Unsupported Request, with no effect, while the interface is in RUN. -/
def execUnsupportedRequest (f : Nat) (s : State) : Host.Outcome State Fault Refusal :=
  .next (if lookupD s.pl.tdisp f 0 = 2 then s.emit (.unsupported f) else s)
/-- A request of the host to a VF's BAR0 in RUN that does not arrive in the VF's selective IDE stream (29:R339). -/
def State.unprotected (s : State) (f stream : Nat) : Bool :=
  f != 0 && lookupD s.pl.tdisp f 0 == 2 && !(stream != 0 && stream == Config.vfStream f % 8 + 1 && s.pl.ide.contains stream)
/-- A read of the host: of its VCP page by a function's BAR0, of device MMIO by the PF's BAR2 (29:R338-R339, 31:R340). -/
def State.hostRead (s : State) (f bar off n stream : Nat) : State :=
  let o := if bar = 0 then 0x100000000 + f * 0x1000 + off else off
  if s.pl.fwSt = 0 ∨ s.pl.vfs < f ∨ (bar = 0 ∧ 0x1000 < off + n) ∨ (bar ≠ 0 ∧ f ≠ 0) ∨ (bar = 0 ∧ s.unprotected f stream) then s.emit (.unsupported f)
  else match s.mmioRead o n with
    | some bs => s.emit (.completion f off bs)
    | none => s.emit (.unsupported f)
/-- A configuration request (31:R340, 29:R338; log 17). -/
def State.configRequest (s : State) (fn off : Nat) (write : Bool) (x : BitVec 32) : State :=
  let key := fn * 4096 + off % 4096
  if s.pl.fwSt = 0 then s.emit (.retryStatus fn)
  else if s.pl.vfs < fn ∨ (s.pl.fwSt = 3 ∧ fn ≠ 0) then s.emit (.unsupported fn)
  else if !write then s.emit (.configReply fn off (lookupD s.pl.config key (Config.configWord fn (off % 4096))))
  else if fn = 0 ∧ off % 4096 = Config.vfOffset ∧ s.pl.fwSt = 3 then s
  else
    let vfs := if fn = 0 ∧ off % 4096 = Config.vfOffset then Nat.min x.toNat 512 else s.pl.vfs
    s.setPl { s.pl with config := setKey s.pl.config key x, vfs := vfs }
/-- CONFIGURATION_REQUEST (31:R340). -/
def execConfigurationRequest (fn off : Nat) (write : Bool) (x : BitVec 32) (s : State) : Host.Outcome State Fault Refusal :=
  .next (s.configRequest fn off write x)

-- Register writes -----------------------------------------------------------------------------------------------------

/-- The fields of a VCP word that the guest writes (23:R278). -/
def State.vcpPut (s : State) (f o : Nat) (x : Word) : State :=
  let v := s.vcp f
  let n := x.toNat
  match o with
  | 0x008 => if bits n 7 0 = 0 then s else s.post (.vcpNotify f (BitVec.ofNat 8 n))
  | 0x010 => s.setVcp f { v with evbase := pack [(bits n 63 6, 6)] }
  | 0x018 => s.setVcp f { v with evctl := pack [(bits n 8 8, 8), (bits n 4 0, 0)] }
  | 0x028 => s.setVcp f { v with evr := x }
  | _ =>
    if 0x100 ≤ o ∧ o < 0x200 then
      let i := (o - 0x100) / 0x20
      let q := v.queue i
      match (o - 0x100) % 0x20 with
      | 0 => s.setVcp f (v.setQueue i { q with base := pack [(bits n 63 6, 6)] })
      | 8 => s.setVcp f (v.setQueue i { q with ctl := pack [(bits n 47 32, 32), (bits n 16 16, 16), (bits n 9 8, 8), (bits n 4 0, 0)] })
      | 16 => s.setVcp f (v.setQueue i { q with qwr := bits n 31 0 })
      | _ => s
    else s
/-- A write of TCR[f] (17:R227): a GTV that is not a canonical multiple of 2^36 is ignored (log 31). -/
def State.tcrPut (s : State) (f o : Nat) (x : Word) (h : Bool) : State :=
  let t := lookupD s.st.tcrs f ⟨0, 0, []⟩
  let n := x.toNat
  let put (t : Tcr) : State :=
    let s : State := { s with st := { s.st with tcrs := setKey s.st.tcrs f t } }
    if h then s.touchVf f else s
  match o with
  | 0 => put { t with root := pack [(bits n 51 8, 8), (bits n 0 0, 0)], prev := t.root :: t.prev }
  | 8 => if canonical x ∧ n % 2 ^ 36 = 0 then put { t with gtv := x } else s
  | _ => s
/-- A write of RGS[n] (21:R264). -/
def State.rgsPut (s : State) (n o : Nat) (x : Word) : State :=
  let g := s.rgs n
  let v := x.toNat
  if !s.isPart n then s
  else match o with
    | 0 => if s.partIdle n then s.setRgs n { g with gid := bits v 63 32 } else s
    | 32 => s.setRgs n { g with logb := pack [(bits v 63 6, 6)] }
    | 40 => s.setRgs n { g with logn := bits v 15 0 }
    | _ => s
/-- A write of BF.CFG (29:R321, R331-R332): entries of the old and the new number return to what they read by default. -/
def State.bfPut (s : State) (x : Word) : State :=
  let n := x.toNat
  let p := bits n 7 4
  let s := if s.pl.en ∨ p = s.pl.pkg then s
    else s.setPl { s.pl with pkg := p, ept := s.pl.ept.filter (fun e => e.1 % 16 != p && e.1 % 16 != s.pl.pkg) }
  if bits n 0 0 = 1 ∧ !s.pl.en then s.post .bfEnable
  else if bits n 0 0 = 0 ∧ s.pl.en then s.post .bfLeave
  else s
/-- A 64-bit write of the register at an aligned MMIO offset; read-only registers ignore it (17:R348). -/
def State.regPut (s : State) (off : Nat) (x : Word) (h : Bool) : State :=
  if s.pl.fwSt = 3 then s
  else if 0x100000000 ≤ off then s.vcpPut ((off - 0x100000000) / 0x1000) (off % 0x1000) x
  else if 0x01000000 ≤ off ∧ off < 0x03010000 then s.tcrPut ((off - 0x01000000) / 0x10000) (off % 0x10000) x h
  else if 0x03101000 ≤ off ∧ off < 0x03180000 then s.rgsPut ((off - 0x03100000) / 0x1000) (off % 0x1000) x
  else if 0x04800000 ≤ off ∧ off < 0x04800000 + 8 * 288 then s.post (.bownWrite ((off - 0x04800000) / 8) x)
  else if 0x05000000 ≤ off ∧ off < 0x07010000 then s.post (.mbackAck ((off - 0x05000000) / 0x10000) x)
  else if off = 0x09000000 then s.bfPut x
  else if 0x0A000000 ≤ off ∧ off < 0x0A200100 then
    s.post (.eptWrite ((off - 0x0A000000) / 0x1000) (off % 0x1000 / 16) (off % 16 / 8) x)
  else if off = 0x0B000000 then
    let s := if bits x.toNat 15 15 = 1 then s.post (.ckEvict (bits x.toNat 22 16)) else s
    s.post (.hceilWrite (bits x.toNat 6 0))
  else if off = 0x0C000000 then
    match bits x.toNat 1 0 with
    | 0 => s.post .pwRun
    | 1 => s.post .pwHold
    | 2 => s.post .pwLow
    | _ => s
  else if off = 0x0C000140 then s.post (.spTret x)
  else s
/-- REGISTER_WRITE (17:R348): an access within one aligned word is one merged write, a crossing one is made by bytes in ascending
order; 16 added to the size marks an H-mode write, 32 times one more than its IDE stream, 0 for none, a write of the host, which a VF in RUN
takes in its own stream only (29:R339; log 13). -/
def execRegisterWrite (off n : Nat) (x : Word) (s : State) : Host.Outcome State Fault Refusal :=
  let k := n % 16
  let h := n / 16 % 2 == 1
  let f := (off - 0x100000000) / 0x1000
  if 0x100000000 ≤ off ∧ 32 ≤ n ∧ s.unprotected f (n / 32 - 1) then .next (s.emit (.unsupported f))
  else if 8 < off % 8 + k then
    .next (s.postWrite off ((List.range k).map (fun i => BitVec.ofNat 8 (x.toNat / 2 ^ (8 * i)))) h)
  else match s.mmioWord (off / 8 * 8) with
    | some cur => .next (s.regPut (off / 8 * 8) (mergeWord cur (off % 8) k x) h)
    | none => .refused (.unassignedMmio off)

end Sys2Proof.Machine
end

