-- ==== Sys2Proof/Machine/Flags.lean ====
section
/-! DEFINITION. Results of the scalar forms with the flags they set, and bit counting (09:R106-R108, 05:R59, R63). -/

namespace Sys2Proof.Machine
open Sys2Proof

/-- `satint` to 64 bits as a register value with its flag (05:R59). -/
def sat64 (x : Int) (sg : Bool) : Word × Flags := let r := satint x 64 sg; (BitVec.ofNat 64 r.1, r.2)
/-- ADD, SUB, MUL by fn[1:0]: the exact signed result `e` and unsigned result `f` (09:R106). -/
def arith (q : BitVec 2) (e f : Int) : Word × Flags :=
  if q = 0 then (BitVec.ofInt 64 e, 0) else if q = 1 then sat64 e true else sat64 f false
/-- Quotient and remainder of DIV and REM with the flag of their overflow case (09:R106). -/
def divrem (x y : Word) : Int × Int × Flags :=
  if y = 0 then (-1, sv x, 0)
  else if sv x = -(2 ^ 63 : Nat) ∧ sv y = -1 then ((2 ^ 63 : Nat) - 1, 0, fSAT)
  else (Int.tdiv (sv x) (sv y), Int.tmod (sv x) (sv y), 0)
/-- Quotient and remainder of DIVN and REMN (09:R106). -/
def divremn (x y : Word) : Nat × Nat := if y = 0 then (2 ^ 64 - 1, uv x) else (uv x / uv y, uv x % uv y)
/-- Register value of an integer. -/
def ofI (x : Int) : Word := BitVec.ofInt 64 x
def ofN (x : Nat) : Word := BitVec.ofNat 64 x

/-- Width of the .w32 forms (09:R105). -/
def wOf (w : BitVec 1) : Nat := if w = 1 then 32 else 64
/-- SHL, SHR, SRA and ROL of the low `w` bits by `n` (09:R107). -/
def shlW (w x n : Nat) : Word := ofN (x % 2 ^ w * 2 ^ n % 2 ^ w)
def shrW (w x n : Nat) : Word := ofN (x % 2 ^ w / 2 ^ n)
def sraW (w x n : Nat) : Word := ofI (sInt w x / (2 ^ n : Nat))
def rolW (w x n : Nat) : Word := ofN ((x % 2 ^ w * 2 ^ n % 2 ^ w) + x % 2 ^ w / 2 ^ (w - n))
/-- Leading and trailing zero bits of the low `w` bits, and one bits (09:R107). -/
def clzW (w x : Nat) : Nat := if x % 2 ^ w = 0 then w else w - 1 - (x % 2 ^ w).log2
def ctzFrom (x : Nat) : Nat → Nat
  | 0 => 0
  | n + 1 => if x % 2 = 1 then 0 else ctzFrom (x / 2) n + 1
def ctzW (w x : Nat) : Nat := ctzFrom (x % 2 ^ w) w
def popFrom (x : Nat) : Nat → Nat
  | 0 => 0
  | n + 1 => x % 2 + popFrom (x / 2) n
def popW (w x : Nat) : Nat := popFrom x w

/-- CMP's condition by fn[1:0] (09:R108). -/
def cmpHolds (c : BitVec 2) (x y : Word) : Bool :=
  if c = 0 then x == y else if c = 1 then x != y else if c = 2 then decide (sv x < sv y) else decide (uv x < uv y)
/-- Bits kept by SEXT and ZEXT by fn[1:0] (09:R108). -/
def extN (w : BitVec 2) : Nat := 8 * 2 ^ w.toNat
/-- BFX: field of `x` at the position and length of the control `y` (09:R108). -/
def bfxVal (sg : BitVec 1) (x y : Word) : Word :=
  let p := bits y.toNat 5 0
  let k := Nat.min (bits y.toNat 12 6) 64
  if k = 0 then 0
  else
    let f := uv x / 2 ^ p % 2 ^ k
    if sg = 1 then ofN (sextN k 64 f) else ofN f
/-- BFI: the low bits of `x` put into `d` (09:R108). -/
def bfiVal (d x y : Word) : Word :=
  let p := bits y.toNat 5 0
  let k := Nat.min (bits y.toNat 12 6) (64 - p)
  let msk := ofN ((2 ^ k - 1) * 2 ^ p)
  (d &&& ~~~ msk) ||| (ofN (uv x * 2 ^ p) &&& msk)

end Sys2Proof.Machine
end

