-- ==== Sys2Proof/Machine/Scalar.lean ====
section
/-! DEFINITION. The register ALU and immediate forms, addresses of tiles and hints (09:R105-R111, R124). -/

namespace Sys2Proof.Machine
open Sys2Proof

/-- A form that delivers one register result with flags and completes. -/
def State.alu (s : State) (i : Instr) (m : Mark) (d : Reg) (f : Thread → Word × Flags) : Host.Outcome State Fault Refusal :=
  s.issue i (fun s => let r := f s.th; .ok ((s.deliver m d r.1).setfx r.2))

/-- ADD (09:R106). -/
def execAdd (m : Mark) (d a b : Reg) (q : BitVec 2) (s : State) : Host.Outcome State Fault Refusal :=
  s.alu (.add m d a b q) m d (fun t => arith q (sv (t.gr a) + sv (t.gr b)) ((uv (t.gr a) : Int) + uv (t.gr b)))
/-- SUB (09:R106). -/
def execSub (m : Mark) (d a b : Reg) (q : BitVec 2) (s : State) : Host.Outcome State Fault Refusal :=
  s.alu (.sub m d a b q) m d (fun t => arith q (sv (t.gr a) - sv (t.gr b)) ((uv (t.gr a) : Int) - uv (t.gr b)))
/-- MUL (09:R106). -/
def execMul (m : Mark) (d a b : Reg) (q : BitVec 2) (s : State) : Host.Outcome State Fault Refusal :=
  s.alu (.mul m d a b q) m d (fun t => arith q (sv (t.gr a) * sv (t.gr b)) ((uv (t.gr a) : Int) * uv (t.gr b)))
/-- MULH (09:R106). -/
def execMulh (m : Mark) (d a b : Reg) (s : State) : Host.Outcome State Fault Refusal :=
  s.alu (.mulh m d a b) m d (fun t => (ofI ((sv (t.gr a) * sv (t.gr b)) / (2 ^ 64 : Nat)), 0))
/-- MULHN (09:R106). -/
def execMulhn (m : Mark) (d a b : Reg) (s : State) : Host.Outcome State Fault Refusal :=
  s.alu (.mulhn m d a b) m d (fun t => (ofN (uv (t.gr a) * uv (t.gr b) / 2 ^ 64), 0))
/-- DIV (09:R106). -/
def execDiv (m : Mark) (d a b : Reg) (s : State) : Host.Outcome State Fault Refusal :=
  s.alu (.div m d a b) m d (fun t => let r := divrem (t.gr a) (t.gr b); (ofI r.1, r.2.2))
/-- DIVN (09:R106). -/
def execDivn (m : Mark) (d a b : Reg) (s : State) : Host.Outcome State Fault Refusal :=
  s.alu (.divn m d a b) m d (fun t => (ofN (divremn (t.gr a) (t.gr b)).1, 0))
/-- REM (09:R106). -/
def execRem (m : Mark) (d a b : Reg) (s : State) : Host.Outcome State Fault Refusal :=
  s.alu (.rem m d a b) m d (fun t => let r := divrem (t.gr a) (t.gr b); (ofI r.2.1, r.2.2))
/-- REMN (09:R106). -/
def execRemn (m : Mark) (d a b : Reg) (s : State) : Host.Outcome State Fault Refusal :=
  s.alu (.remn m d a b) m d (fun t => (ofN (divremn (t.gr a) (t.gr b)).2, 0))
/-- MIN (09:R106). -/
def execMin (m : Mark) (d a b : Reg) (s : State) : Host.Outcome State Fault Refusal :=
  s.alu (.min m d a b) m d (fun t => (if sv (t.gr a) < sv (t.gr b) then t.gr a else t.gr b, 0))
/-- MAX (09:R106). -/
def execMax (m : Mark) (d a b : Reg) (s : State) : Host.Outcome State Fault Refusal :=
  s.alu (.max m d a b) m d (fun t => (if sv (t.gr a) < sv (t.gr b) then t.gr b else t.gr a, 0))
/-- MINN (09:R106). -/
def execMinn (m : Mark) (d a b : Reg) (s : State) : Host.Outcome State Fault Refusal :=
  s.alu (.minn m d a b) m d (fun t => (if uv (t.gr a) < uv (t.gr b) then t.gr a else t.gr b, 0))
/-- MAXN (09:R106). -/
def execMaxn (m : Mark) (d a b : Reg) (s : State) : Host.Outcome State Fault Refusal :=
  s.alu (.maxn m d a b) m d (fun t => (if uv (t.gr a) < uv (t.gr b) then t.gr b else t.gr a, 0))
/-- AND (09:R107). -/
def execAnd (m : Mark) (d a b : Reg) (s : State) : Host.Outcome State Fault Refusal :=
  s.alu (.and m d a b) m d (fun t => (t.gr a &&& t.gr b, 0))
/-- OR (09:R107). -/
def execOr (m : Mark) (d a b : Reg) (s : State) : Host.Outcome State Fault Refusal :=
  s.alu (.or m d a b) m d (fun t => (t.gr a ||| t.gr b, 0))
/-- XOR (09:R107). -/
def execXor (m : Mark) (d a b : Reg) (s : State) : Host.Outcome State Fault Refusal :=
  s.alu (.xor m d a b) m d (fun t => (t.gr a ^^^ t.gr b, 0))
/-- ANDN (09:R107). -/
def execAndn (m : Mark) (d a b : Reg) (s : State) : Host.Outcome State Fault Refusal :=
  s.alu (.andn m d a b) m d (fun t => (t.gr a &&& ~~~ t.gr b, 0))
/-- SHL (09:R107). -/
def execShl (m : Mark) (d a b : Reg) (w : BitVec 1) (s : State) : Host.Outcome State Fault Refusal :=
  s.alu (.shl m d a b w) m d (fun t => (shlW (wOf w) (uv (t.gr a)) (uv (t.gr b) % wOf w), 0))
/-- SHR (09:R107). -/
def execShr (m : Mark) (d a b : Reg) (w : BitVec 1) (s : State) : Host.Outcome State Fault Refusal :=
  s.alu (.shr m d a b w) m d (fun t => (shrW (wOf w) (uv (t.gr a)) (uv (t.gr b) % wOf w), 0))
/-- SRA (09:R107). -/
def execSra (m : Mark) (d a b : Reg) (w : BitVec 1) (s : State) : Host.Outcome State Fault Refusal :=
  s.alu (.sra m d a b w) m d (fun t => (sraW (wOf w) (uv (t.gr a)) (uv (t.gr b) % wOf w), 0))
/-- ROL (09:R107). -/
def execRol (m : Mark) (d a b : Reg) (w : BitVec 1) (s : State) : Host.Outcome State Fault Refusal :=
  s.alu (.rol m d a b w) m d (fun t => (rolW (wOf w) (uv (t.gr a)) (uv (t.gr b) % wOf w), 0))
/-- CLZ (09:R107). -/
def execClz (m : Mark) (d a : Reg) (w : BitVec 1) (s : State) : Host.Outcome State Fault Refusal :=
  s.alu (.clz m d a w) m d (fun t => (ofN (clzW (wOf w) (uv (t.gr a))), 0))
/-- CTZ (09:R107). -/
def execCtz (m : Mark) (d a : Reg) (w : BitVec 1) (s : State) : Host.Outcome State Fault Refusal :=
  s.alu (.ctz m d a w) m d (fun t => (ofN (ctzW (wOf w) (uv (t.gr a))), 0))
/-- POPC (09:R107). -/
def execPopc (m : Mark) (d a : Reg) (w : BitVec 1) (s : State) : Host.Outcome State Fault Refusal :=
  s.alu (.popc m d a w) m d (fun t => (ofN (popW (wOf w) (uv (t.gr a))), 0))
/-- SEL (09:R108). -/
def execSel (m : Mark) (d a b : Reg) (s : State) : Host.Outcome State Fault Refusal :=
  s.alu (.sel m d a b) m d (fun t => (if t.gr d ≠ 0 then t.gr a else t.gr b, 0))
/-- CMP (09:R108). -/
def execCmp (m : Mark) (d a b : Reg) (c : BitVec 2) (s : State) : Host.Outcome State Fault Refusal :=
  s.alu (.cmp m d a b c) m d (fun t => (if cmpHolds c (t.gr a) (t.gr b) then 1 else 0, 0))
/-- SEXT (09:R108). -/
def execSext (m : Mark) (d a : Reg) (w : BitVec 2) (s : State) : Host.Outcome State Fault Refusal :=
  s.alu (.sext m d a w) m d (fun t => (ofN (sextN (extN w) 64 (uv (t.gr a))), 0))
/-- ZEXT (09:R108). -/
def execZext (m : Mark) (d a : Reg) (w : BitVec 2) (s : State) : Host.Outcome State Fault Refusal :=
  s.alu (.zext m d a w) m d (fun t => (ofN (uv (t.gr a) % 2 ^ extN w), 0))
/-- BFX (09:R108). -/
def execBfx (m : Mark) (d a b : Reg) (x : BitVec 1) (s : State) : Host.Outcome State Fault Refusal :=
  s.alu (.bfx m d a b x) m d (fun t => (bfxVal x (t.gr a) (t.gr b), 0))
/-- BFI (09:R108). -/
def execBfi (m : Mark) (d a b : Reg) (s : State) : Host.Outcome State Fault Refusal :=
  s.alu (.bfi m d a b) m d (fun t => (bfiVal (t.gr d) (t.gr a) (t.gr b), 0))
/-- ADDI (09:R109). -/
def execAddi (m : Mark) (d a : Reg) (i : BitVec 11) (s : State) : Host.Outcome State Fault Refusal :=
  s.alu (.addi m d a i) m d (fun t => (t.gr a + t.simm i.toNat 11, 0))
/-- ANDI (09:R109). -/
def execAndi (m : Mark) (d a : Reg) (i : BitVec 11) (s : State) : Host.Outcome State Fault Refusal :=
  s.alu (.andi m d a i) m d (fun t => (t.gr a &&& t.simm i.toNat 11, 0))
/-- ORI (09:R109). -/
def execOri (m : Mark) (d a : Reg) (i : BitVec 11) (s : State) : Host.Outcome State Fault Refusal :=
  s.alu (.ori m d a i) m d (fun t => (t.gr a ||| t.simm i.toNat 11, 0))
/-- XORI (09:R109). -/
def execXori (m : Mark) (d a : Reg) (i : BitVec 11) (s : State) : Host.Outcome State Fault Refusal :=
  s.alu (.xori m d a i) m d (fun t => (t.gr a ^^^ t.simm i.toNat 11, 0))
/-- CMPI (09:R109). -/
def execCmpi (m : Mark) (d a : Reg) (i : BitVec 11) (s : State) : Host.Outcome State Fault Refusal :=
  s.alu (.cmpi m d a i) m d (fun t => (if sv (t.gr a) < sv (t.simm i.toNat 11) then 1 else 0, 0))
/-- SHLI (09:R109). -/
def execShli (m : Mark) (d a : Reg) (w : BitVec 1) (n : BitVec 6) (s : State) : Host.Outcome State Fault Refusal :=
  s.alu (.shli m d a w n) m d (fun t => (shlW (wOf w) (uv (t.gr a)) n.toNat, 0))
/-- SHRI (09:R109). -/
def execShri (m : Mark) (d a : Reg) (w : BitVec 1) (n : BitVec 6) (s : State) : Host.Outcome State Fault Refusal :=
  s.alu (.shri m d a w n) m d (fun t => (shrW (wOf w) (uv (t.gr a)) n.toNat, 0))
/-- SRAI (09:R109). -/
def execSrai (m : Mark) (d a : Reg) (w : BitVec 1) (n : BitVec 6) (s : State) : Host.Outcome State Fault Refusal :=
  s.alu (.srai m d a w n) m d (fun t => (sraW (wOf w) (uv (t.gr a)) n.toNat, 0))
/-- LI (09:R109). -/
def execLi (m : Mark) (d : Reg) (i : BitVec 16) (s : State) : Host.Outcome State Fault Refusal :=
  s.alu (.li m d i) m d (fun t => (t.simm i.toNat 16, 0))
/-- LIH (09:R109). -/
def execLih (m : Mark) (d : Reg) (i : BitVec 16) (s : State) : Host.Outcome State Fault Refusal :=
  s.alu (.lih m d i) m d (fun t => (ofN (i.toNat * 2 ^ 48 + uv (t.gr d) % 2 ^ 48), 0))
/-- GADR (09:R110): the package field indexes the endpoint table, where KIND 10 and 11 name no package (29:R332). -/
def execGadr (m : Mark) (d a : Reg) (i : BitVec 11) (s : State) : Host.Outcome State Fault Refusal :=
  s.issue (.gadr m d a i) (fun s =>
    let t := s.th
    let k := bits (uv (t.gr a)) 14 0
    match coordIdx (k % 2048), s.eptPackage t.fn (bits k 14 11) with
    | some g, some p => .ok (s.deliver m d (ofN (s.gtb t.fn p + g * 0x200000) + t.simm i.toNat 11))
    | _, _ => .trap ⟨.illstate, 0, t.gr a⟩)
/-- LADR (09:R111). -/
def execLadr (m : Mark) (d a : Reg) (i : BitVec 11) (s : State) : Host.Outcome State Fault Refusal :=
  s.issue (.ladr m d a i) (fun s =>
    let t := s.th
    let e := t.gr a + t.simm i.toNat 11
    let sb := ofN (s.gtb t.fn s.me + t.tile * 0x200000)
    .ok (s.deliver m d (if uv sb ≤ uv e ∧ uv e < uv sb + 0x200000 then e - sb else ofN (2 ^ 64 - 1))))

/-- HIMM (07:R80-R81, 09:R124). -/
def execHimm (v : Bool) (i : BitVec 21) (s : State) : Host.Outcome State Fault Refusal := s.issueHint (.himm v i) id
/-- HMOD (07:R80, R82). -/
def execHmod (v : Bool) (r e : BitVec 1) (f : BitVec 4) (c : BitVec 2) (s : State) : Host.Outcome State Fault Refusal :=
  s.issueHint (.hmod v r e f c) id

end Sys2Proof.Machine
end

