-- ==== Sys2Proof/Machine/Dispatch.lean ====
section
/-! DEFINITION. One arm per constructor of Instr: a direct call of its meaning. -/

namespace Sys2Proof.Machine
open Sys2Proof

def exec (i : Instr) (s : State) : Host.Outcome State Fault Refusal :=
  match i with
  | .add x0 x1 x2 x3 x4 => Sys2Proof.Machine.execAdd x0 x1 x2 x3 x4 s
  | .sub x0 x1 x2 x3 x4 => Sys2Proof.Machine.execSub x0 x1 x2 x3 x4 s
  | .mul x0 x1 x2 x3 x4 => Sys2Proof.Machine.execMul x0 x1 x2 x3 x4 s
  | .mulh x0 x1 x2 x3 => Sys2Proof.Machine.execMulh x0 x1 x2 x3 s
  | .mulhn x0 x1 x2 x3 => Sys2Proof.Machine.execMulhn x0 x1 x2 x3 s
  | .div x0 x1 x2 x3 => Sys2Proof.Machine.execDiv x0 x1 x2 x3 s
  | .divn x0 x1 x2 x3 => Sys2Proof.Machine.execDivn x0 x1 x2 x3 s
  | .rem x0 x1 x2 x3 => Sys2Proof.Machine.execRem x0 x1 x2 x3 s
  | .remn x0 x1 x2 x3 => Sys2Proof.Machine.execRemn x0 x1 x2 x3 s
  | .min x0 x1 x2 x3 => Sys2Proof.Machine.execMin x0 x1 x2 x3 s
  | .max x0 x1 x2 x3 => Sys2Proof.Machine.execMax x0 x1 x2 x3 s
  | .minn x0 x1 x2 x3 => Sys2Proof.Machine.execMinn x0 x1 x2 x3 s
  | .maxn x0 x1 x2 x3 => Sys2Proof.Machine.execMaxn x0 x1 x2 x3 s
  | .and x0 x1 x2 x3 => Sys2Proof.Machine.execAnd x0 x1 x2 x3 s
  | .or x0 x1 x2 x3 => Sys2Proof.Machine.execOr x0 x1 x2 x3 s
  | .xor x0 x1 x2 x3 => Sys2Proof.Machine.execXor x0 x1 x2 x3 s
  | .andn x0 x1 x2 x3 => Sys2Proof.Machine.execAndn x0 x1 x2 x3 s
  | .shl x0 x1 x2 x3 x4 => Sys2Proof.Machine.execShl x0 x1 x2 x3 x4 s
  | .shr x0 x1 x2 x3 x4 => Sys2Proof.Machine.execShr x0 x1 x2 x3 x4 s
  | .sra x0 x1 x2 x3 x4 => Sys2Proof.Machine.execSra x0 x1 x2 x3 x4 s
  | .rol x0 x1 x2 x3 x4 => Sys2Proof.Machine.execRol x0 x1 x2 x3 x4 s
  | .clz x0 x1 x2 x3 => Sys2Proof.Machine.execClz x0 x1 x2 x3 s
  | .ctz x0 x1 x2 x3 => Sys2Proof.Machine.execCtz x0 x1 x2 x3 s
  | .popc x0 x1 x2 x3 => Sys2Proof.Machine.execPopc x0 x1 x2 x3 s
  | .sel x0 x1 x2 x3 => Sys2Proof.Machine.execSel x0 x1 x2 x3 s
  | .cmp x0 x1 x2 x3 x4 => Sys2Proof.Machine.execCmp x0 x1 x2 x3 x4 s
  | .sext x0 x1 x2 x3 => Sys2Proof.Machine.execSext x0 x1 x2 x3 s
  | .zext x0 x1 x2 x3 => Sys2Proof.Machine.execZext x0 x1 x2 x3 s
  | .bfx x0 x1 x2 x3 x4 => Sys2Proof.Machine.execBfx x0 x1 x2 x3 x4 s
  | .bfi x0 x1 x2 x3 => Sys2Proof.Machine.execBfi x0 x1 x2 x3 s
  | .addi x0 x1 x2 x3 => Sys2Proof.Machine.execAddi x0 x1 x2 x3 s
  | .andi x0 x1 x2 x3 => Sys2Proof.Machine.execAndi x0 x1 x2 x3 s
  | .ori x0 x1 x2 x3 => Sys2Proof.Machine.execOri x0 x1 x2 x3 s
  | .xori x0 x1 x2 x3 => Sys2Proof.Machine.execXori x0 x1 x2 x3 s
  | .shli x0 x1 x2 x3 x4 => Sys2Proof.Machine.execShli x0 x1 x2 x3 x4 s
  | .shri x0 x1 x2 x3 x4 => Sys2Proof.Machine.execShri x0 x1 x2 x3 x4 s
  | .srai x0 x1 x2 x3 x4 => Sys2Proof.Machine.execSrai x0 x1 x2 x3 x4 s
  | .cmpi x0 x1 x2 x3 => Sys2Proof.Machine.execCmpi x0 x1 x2 x3 s
  | .li x0 x1 x2 => Sys2Proof.Machine.execLi x0 x1 x2 s
  | .lih x0 x1 x2 => Sys2Proof.Machine.execLih x0 x1 x2 s
  | .gadr x0 x1 x2 x3 => Sys2Proof.Machine.execGadr x0 x1 x2 x3 s
  | .ladr x0 x1 x2 x3 => Sys2Proof.Machine.execLadr x0 x1 x2 x3 s
  | .br x0 x1 x2 => Sys2Proof.Machine.execBr x0 x1 x2 s
  | .bc x0 x1 x2 x3 => Sys2Proof.Machine.execBc x0 x1 x2 x3 s
  | .bcZ x0 x1 x2 x3 => Sys2Proof.Machine.execBcZ x0 x1 x2 x3 s
  | .bg x0 x1 x2 x3 => Sys2Proof.Machine.execBg x0 x1 x2 x3 s
  | .bgF x0 x1 x2 x3 => Sys2Proof.Machine.execBgF x0 x1 x2 x3 s
  | .call x0 x1 x2 => Sys2Proof.Machine.execCall x0 x1 x2 s
  | .callr x0 x1 x2 => Sys2Proof.Machine.execCallr x0 x1 x2 s
  | .ret x0 x1 => Sys2Proof.Machine.execRet x0 x1 s
  | .jmpr x0 x1 => Sys2Proof.Machine.execJmpr x0 x1 s
  | .jtab x0 x1 x2 x3 => Sys2Proof.Machine.execJtab x0 x1 x2 x3 s
  | .loop x0 x1 x2 => Sys2Proof.Machine.execLoop x0 x1 x2 s
  | .lexit x0 => Sys2Proof.Machine.execLexit x0 s
  | .yield x0 => Sys2Proof.Machine.execYield x0 s
  | .spawn x0 x1 x2 x3 x4 => Sys2Proof.Machine.execSpawn x0 x1 x2 x3 x4 s
  | .exit x0 => Sys2Proof.Machine.execExit x0 s
  | .ld x0 x1 x2 x3 x4 => Sys2Proof.Machine.execLd x0 x1 x2 x3 x4 s
  | .st x0 x1 x2 x3 x4 => Sys2Proof.Machine.execSt x0 x1 x2 x3 x4 s
  | .ldl x0 x1 x2 x3 x4 => Sys2Proof.Machine.execLdl x0 x1 x2 x3 x4 s
  | .stl x0 x1 x2 x3 x4 => Sys2Proof.Machine.execStl x0 x1 x2 x3 x4 s
  | .ldx x0 x1 x2 x3 x4 => Sys2Proof.Machine.execLdx x0 x1 x2 x3 x4 s
  | .stx x0 x1 x2 x3 x4 => Sys2Proof.Machine.execStx x0 x1 x2 x3 x4 s
  | .lda x0 x1 x2 x3 x4 x5 => Sys2Proof.Machine.execLda x0 x1 x2 x3 x4 x5 s
  | .strel x0 x1 x2 x3 x4 x5 => Sys2Proof.Machine.execStrel x0 x1 x2 x3 x4 x5 s
  | .bmov x0 x1 x2 x3 => Sys2Proof.Machine.execBmov x0 x1 x2 x3 s
  | .bfill x0 x1 x2 x3 => Sys2Proof.Machine.execBfill x0 x1 x2 x3 s
  | .vld x0 x1 x2 x3 x4 => Sys2Proof.Machine.execVld x0 x1 x2 x3 x4 s
  | .vst x0 x1 x2 x3 x4 => Sys2Proof.Machine.execVst x0 x1 x2 x3 x4 s
  | .vlds x0 x1 x2 x3 x4 x5 => Sys2Proof.Machine.execVlds x0 x1 x2 x3 x4 x5 s
  | .vsts x0 x1 x2 x3 x4 x5 => Sys2Proof.Machine.execVsts x0 x1 x2 x3 x4 x5 s
  | .vgth x0 x1 x2 x3 x4 x5 => Sys2Proof.Machine.execVgth x0 x1 x2 x3 x4 x5 s
  | .vsct x0 x1 x2 x3 x4 x5 => Sys2Proof.Machine.execVsct x0 x1 x2 x3 x4 x5 s
  | .vbcst x0 x1 x2 x3 => Sys2Proof.Machine.execVbcst x0 x1 x2 x3 s
  | .vext x0 x1 x2 x3 x4 => Sys2Proof.Machine.execVext x0 x1 x2 x3 x4 s
  | .vadd x0 x1 x2 x3 x4 => Sys2Proof.Machine.execVadd x0 x1 x2 x3 x4 s
  | .vsub x0 x1 x2 x3 x4 => Sys2Proof.Machine.execVsub x0 x1 x2 x3 x4 s
  | .vmul x0 x1 x2 x3 x4 => Sys2Proof.Machine.execVmul x0 x1 x2 x3 x4 s
  | .vmad x0 x1 x2 x3 x4 => Sys2Proof.Machine.execVmad x0 x1 x2 x3 x4 s
  | .vmin x0 x1 x2 x3 x4 => Sys2Proof.Machine.execVmin x0 x1 x2 x3 x4 s
  | .vmax x0 x1 x2 x3 x4 => Sys2Proof.Machine.execVmax x0 x1 x2 x3 x4 s
  | .vabs x0 x1 x2 x3 => Sys2Proof.Machine.execVabs x0 x1 x2 x3 s
  | .vneg x0 x1 x2 x3 => Sys2Proof.Machine.execVneg x0 x1 x2 x3 s
  | .vand x0 x1 x2 x3 => Sys2Proof.Machine.execVand x0 x1 x2 x3 s
  | .vor x0 x1 x2 x3 => Sys2Proof.Machine.execVor x0 x1 x2 x3 s
  | .vxor x0 x1 x2 x3 => Sys2Proof.Machine.execVxor x0 x1 x2 x3 s
  | .vshl x0 x1 x2 x3 x4 => Sys2Proof.Machine.execVshl x0 x1 x2 x3 x4 s
  | .vshr x0 x1 x2 x3 x4 => Sys2Proof.Machine.execVshr x0 x1 x2 x3 x4 s
  | .vsra x0 x1 x2 x3 x4 => Sys2Proof.Machine.execVsra x0 x1 x2 x3 x4 s
  | .vcmp x0 x1 x2 x3 x4 => Sys2Proof.Machine.execVcmp x0 x1 x2 x3 x4 s
  | .vsel x0 x1 x2 x3 => Sys2Proof.Machine.execVsel x0 x1 x2 x3 s
  | .vperm x0 x1 x2 x3 x4 => Sys2Proof.Machine.execVperm x0 x1 x2 x3 x4 s
  | .vins x0 x1 x2 x3 x4 => Sys2Proof.Machine.execVins x0 x1 x2 x3 x4 s
  | .vred x0 x1 x2 x3 x4 => Sys2Proof.Machine.execVred x0 x1 x2 x3 x4 s
  | .vfadd x0 x1 x2 x3 x4 => Sys2Proof.Machine.execVfadd x0 x1 x2 x3 x4 s
  | .vfsub x0 x1 x2 x3 x4 => Sys2Proof.Machine.execVfsub x0 x1 x2 x3 x4 s
  | .vfmul x0 x1 x2 x3 x4 => Sys2Proof.Machine.execVfmul x0 x1 x2 x3 x4 s
  | .vfma x0 x1 x2 x3 x4 => Sys2Proof.Machine.execVfma x0 x1 x2 x3 x4 s
  | .vfmin x0 x1 x2 x3 x4 => Sys2Proof.Machine.execVfmin x0 x1 x2 x3 x4 s
  | .vfmax x0 x1 x2 x3 x4 => Sys2Proof.Machine.execVfmax x0 x1 x2 x3 x4 s
  | .vrcp x0 x1 x2 x3 => Sys2Proof.Machine.execVrcp x0 x1 x2 x3 s
  | .vrsq x0 x1 x2 x3 => Sys2Proof.Machine.execVrsq x0 x1 x2 x3 s
  | .vcvt x0 x1 x2 x3 x4 => Sys2Proof.Machine.execVcvt x0 x1 x2 x3 x4 s
  | .vpack x0 x1 x2 x3 x4 => Sys2Proof.Machine.execVpack x0 x1 x2 x3 x4 s
  | .vunpk x0 x1 x2 x3 x4 => Sys2Proof.Machine.execVunpk x0 x1 x2 x3 x4 s
  | .vscl x0 x1 x2 x3 x4 => Sys2Proof.Machine.execVscl x0 x1 x2 x3 x4 s
  | .mma x0 x1 x2 x3 x4 x5 => Sys2Proof.Machine.execMma x0 x1 x2 x3 x4 x5 s
  | .mmar x0 x1 x2 x3 x4 x5 => Sys2Proof.Machine.execMmar x0 x1 x2 x3 x4 x5 s
  | .mzero x0 x1 x2 => Sys2Proof.Machine.execMzero x0 x1 x2 s
  | .mwait x0 x1 => Sys2Proof.Machine.execMwait x0 x1 s
  | .mwm x0 x1 x2 => Sys2Proof.Machine.execMwm x0 x1 x2 s
  | .mpln x0 x1 x2 x3 => Sys2Proof.Machine.execMpln x0 x1 x2 x3 s
  | .mscl x0 x1 x2 x3 x4 => Sys2Proof.Machine.execMscl x0 x1 x2 x3 x4 s
  | .scalemc x0 x1 x2 x3 x4 => Sys2Proof.Machine.execScalemc x0 x1 x2 x3 x4 s
  | .acvt x0 x1 x2 x3 x4 => Sys2Proof.Machine.execAcvt x0 x1 x2 x3 x4 s
  | .msave x0 x1 x2 => Sys2Proof.Machine.execMsave x0 x1 x2 s
  | .mrest x0 x1 x2 => Sys2Proof.Machine.execMrest x0 x1 x2 s
  | .capmint x0 x1 x2 => Sys2Proof.Machine.execCapmint x0 x1 x2 s
  | .aadd x0 x1 x2 x3 x4 x5 x6 => Sys2Proof.Machine.execAadd x0 x1 x2 x3 x4 x5 x6 s
  | .aand x0 x1 x2 x3 x4 x5 x6 => Sys2Proof.Machine.execAand x0 x1 x2 x3 x4 x5 x6 s
  | .aor x0 x1 x2 x3 x4 x5 x6 => Sys2Proof.Machine.execAor x0 x1 x2 x3 x4 x5 x6 s
  | .axor x0 x1 x2 x3 x4 x5 x6 => Sys2Proof.Machine.execAxor x0 x1 x2 x3 x4 x5 x6 s
  | .aswp x0 x1 x2 x3 x4 x5 x6 => Sys2Proof.Machine.execAswp x0 x1 x2 x3 x4 x5 x6 s
  | .amin x0 x1 x2 x3 x4 x5 x6 x7 => Sys2Proof.Machine.execAmin x0 x1 x2 x3 x4 x5 x6 x7 s
  | .amax x0 x1 x2 x3 x4 x5 x6 x7 => Sys2Proof.Machine.execAmax x0 x1 x2 x3 x4 x5 x6 x7 s
  | .acas x0 x1 x2 x3 x4 x5 x6 => Sys2Proof.Machine.execAcas x0 x1 x2 x3 x4 x5 x6 s
  | .afadd x0 x1 x2 x3 x4 x5 => Sys2Proof.Machine.execAfadd x0 x1 x2 x3 x4 x5 s
  | .fst x0 x1 x2 x3 x4 => Sys2Proof.Machine.execFst x0 x1 x2 x3 x4 s
  | .fblk x0 x1 x2 x3 => Sys2Proof.Machine.execFblk x0 x1 x2 x3 s
  | .fence x0 x1 x2 => Sys2Proof.Machine.execFence x0 x1 x2 s
  | .lbfence x0 => Sys2Proof.Machine.execLbfence x0 s
  | .sync x0 x1 x2 x3 => Sys2Proof.Machine.execSync x0 x1 x2 x3 s
  | .gbar x0 => Sys2Proof.Machine.execGbar x0 s
  | .waita x0 x1 x2 x3 => Sys2Proof.Machine.execWaita x0 x1 x2 x3 s
  | .wake x0 x1 => Sys2Proof.Machine.execWake x0 x1 s
  | .send x0 x1 x2 => Sys2Proof.Machine.execSend x0 x1 x2 s
  | .sende x0 x1 x2 x3 => Sys2Proof.Machine.execSende x0 x1 x2 x3 s
  | .recv x0 x1 x2 x3 => Sys2Proof.Machine.execRecv x0 x1 x2 x3 s
  | .exch x0 => Sys2Proof.Machine.execExch x0 s
  | .sign x0 x1 => Sys2Proof.Machine.execSign x0 x1 s
  | .dissolve x0 => Sys2Proof.Machine.execDissolve x0 s
  | .gset x0 x1 x2 => Sys2Proof.Machine.execGset x0 x1 x2 s
  | .gwait x0 x1 => Sys2Proof.Machine.execGwait x0 x1 s
  | .seal x0 => Sys2Proof.Machine.execSeal x0 s
  | .sealw x0 x1 => Sys2Proof.Machine.execSealw x0 x1 s
  | .job x0 x1 x2 x3 => Sys2Proof.Machine.execJob x0 x1 x2 x3 s
  | .jobw x0 x1 => Sys2Proof.Machine.execJobw x0 x1 s
  | .jobq x0 x1 x2 => Sys2Proof.Machine.execJobq x0 x1 x2 s
  | .jobx x0 x1 => Sys2Proof.Machine.execJobx x0 x1 s
  | .wbind x0 x1 x2 => Sys2Proof.Machine.execWbind x0 x1 x2 s
  | .wdrop x0 x1 => Sys2Proof.Machine.execWdrop x0 x1 s
  | .wstat x0 x1 x2 => Sys2Proof.Machine.execWstat x0 x1 x2 s
  | .coll x0 x1 x2 x3 => Sys2Proof.Machine.execColl x0 x1 x2 x3 s
  | .task x0 x1 x2 => Sys2Proof.Machine.execTask x0 x1 x2 s
  | .tdone x0 => Sys2Proof.Machine.execTdone x0 s
  | .discard x0 x1 x2 => Sys2Proof.Machine.execDiscard x0 x1 x2 s
  | .cwb x0 x1 x2 => Sys2Proof.Machine.execCwb x0 x1 x2 s
  | .cinv x0 x1 x2 => Sys2Proof.Machine.execCinv x0 x1 x2 s
  | .trap x0 x1 => Sys2Proof.Machine.execTrap x0 x1 s
  | .svc x0 x1 => Sys2Proof.Machine.execSvc x0 x1 s
  | .eret x0 => Sys2Proof.Machine.execEret x0 s
  | .gate x0 x1 => Sys2Proof.Machine.execGate x0 x1 s
  | .gret x0 => Sys2Proof.Machine.execGret x0 s
  | .ctxsv x0 x1 x2 => Sys2Proof.Machine.execCtxsv x0 x1 x2 s
  | .ctxld x0 x1 x2 => Sys2Proof.Machine.execCtxld x0 x1 x2 s
  | .tlbiPage x0 x1 => Sys2Proof.Machine.execTlbiPage x0 x1 s
  | .tlbiPart x0 x1 => Sys2Proof.Machine.execTlbiPart x0 x1 s
  | .tlbiAll x0 => Sys2Proof.Machine.execTlbiAll x0 s
  | .halt x0 => Sys2Proof.Machine.execHalt x0 s
  | .wdog x0 x1 x2 => Sys2Proof.Machine.execWdog x0 x1 x2 s
  | .kill x0 x1 => Sys2Proof.Machine.execKill x0 x1 s
  | .killDom x0 x1 => Sys2Proof.Machine.execKillDom x0 x1 s
  | .pcfgSplit x0 x1 x2 x3 => Sys2Proof.Machine.execPcfgSplit x0 x1 x2 x3 s
  | .pcfgMerge x0 x1 x2 x3 => Sys2Proof.Machine.execPcfgMerge x0 x1 x2 x3 s
  | .pcfgCreate x0 x1 x2 x3 => Sys2Proof.Machine.execPcfgCreate x0 x1 x2 x3 s
  | .pcfgDestroy x0 x1 x2 x3 => Sys2Proof.Machine.execPcfgDestroy x0 x1 x2 x3 s
  | .pcfgBind x0 x1 x2 x3 => Sys2Proof.Machine.execPcfgBind x0 x1 x2 x3 s
  | .pcfgUnbind x0 x1 x2 x3 => Sys2Proof.Machine.execPcfgUnbind x0 x1 x2 x3 s
  | .vfcfg x0 x1 x2 x3 => Sys2Proof.Machine.execVfcfg x0 x1 x2 x3 s
  | .domcfgWrite x0 x1 x2 x3 => Sys2Proof.Machine.execDomcfgWrite x0 x1 x2 x3 s
  | .domcfgAdjust x0 x1 x2 x3 => Sys2Proof.Machine.execDomcfgAdjust x0 x1 x2 x3 s
  | .domcfgClear x0 x1 x2 x3 => Sys2Proof.Machine.execDomcfgClear x0 x1 x2 x3 s
  | .l2msk x0 x1 x2 => Sys2Proof.Machine.execL2msk x0 x1 x2 s
  | .clkj x0 x1 x2 => Sys2Proof.Machine.execClkj x0 x1 x2 s
  | .clkl x0 x1 => Sys2Proof.Machine.execClkl x0 x1 s
  | .memblkOffer x0 x1 x2 x3 => Sys2Proof.Machine.execMemblkOffer x0 x1 x2 x3 s
  | .memblkQuery x0 x1 x2 x3 => Sys2Proof.Machine.execMemblkQuery x0 x1 x2 x3 s
  | .memblkCancel x0 x1 x2 x3 => Sys2Proof.Machine.execMemblkCancel x0 x1 x2 x3 s
  | .mfs x0 x1 x2 => Sys2Proof.Machine.execMfs x0 x1 x2 s
  | .mts x0 x1 x2 => Sys2Proof.Machine.execMts x0 x1 x2 s
  | .himm x0 x1 => Sys2Proof.Machine.execHimm x0 x1 s
  | .hmod x0 x1 x2 x3 x4 => Sys2Proof.Machine.execHmod x0 x1 x2 x3 x4 s
  | .hsched x0 x1 x2 => Sys2Proof.Machine.execHsched x0 x1 x2 s
  | .bownWrite x0 x1 => Sys2Proof.Machine.execBownWrite x0 x1 s
  | .mbackAck x0 x1 => Sys2Proof.Machine.execMbackAck x0 x1 s
  | .bfEnable => Sys2Proof.Machine.execBfEnable s
  | .bfLeave => Sys2Proof.Machine.execBfLeave s
  | .eptWrite x0 x1 x2 x3 => Sys2Proof.Machine.execEptWrite x0 x1 x2 x3 s
  | .hceilWrite x0 => Sys2Proof.Machine.execHceilWrite x0 s
  | .ckEvict x0 => Sys2Proof.Machine.execCkEvict x0 s
  | .pwRun => Sys2Proof.Machine.execPwRun s
  | .pwHold => Sys2Proof.Machine.execPwHold s
  | .pwLow => Sys2Proof.Machine.execPwLow s
  | .spTret x0 => Sys2Proof.Machine.execSpTret x0 s
  | .registerWrite x0 x1 x2 => Sys2Proof.Machine.execRegisterWrite x0 x1 x2 s
  | .illegalEncoding x0 => Sys2Proof.Machine.execIllegalEncoding x0 s
  | .instructionFetchFault x0 => Sys2Proof.Machine.execInstructionFetchFault x0 s
  | .recordClaim x0 => Sys2Proof.Machine.execRecordClaim x0 s
  | .leaveSlot x0 => Sys2Proof.Machine.execLeaveSlot x0 s
  | .preemption x0 => Sys2Proof.Machine.execPreemption x0 s
  | .slotWatchdogExpiry x0 => Sys2Proof.Machine.execSlotWatchdogExpiry x0 s
  | .packetAbort x0 => Sys2Proof.Machine.execPacketAbort x0 s
  | .parkComplete x0 => Sys2Proof.Machine.execParkComplete x0 s
  | .asyncCause x0 => Sys2Proof.Machine.execAsyncCause x0 s
  | .storeAck x0 x1 => Sys2Proof.Machine.execStoreAck x0 x1 s
  | .remoteRequest x0 x1 x2 x3 x4 x5 => Sys2Proof.Machine.execRemoteRequest x0 x1 x2 x3 x4 x5 s
  | .directoryRequest x0 x1 x2 x3 => Sys2Proof.Machine.execDirectoryRequest x0 x1 x2 x3 s
  | .larderRoom x0 => Sys2Proof.Machine.execLarderRoom x0 s
  | .waitaSuspend x0 => Sys2Proof.Machine.execWaitaSuspend x0 s
  | .pageWalk x0 x1 x2 => Sys2Proof.Machine.execPageWalk x0 x1 x2 s
  | .compactBoundary x0 x1 => Sys2Proof.Machine.execCompactBoundary x0 x1 s
  | .compactResume x0 => Sys2Proof.Machine.execCompactResume x0 s
  | .dissolveAllArrived x0 => Sys2Proof.Machine.execDissolveAllArrived x0 s
  | .exchangeWrite x0 x1 x2 x3 x4 => Sys2Proof.Machine.execExchangeWrite x0 x1 x2 x3 x4 s
  | .xtimeout x0 => Sys2Proof.Machine.execXtimeout x0 s
  | .matrixAccept x0 => Sys2Proof.Machine.execMatrixAccept x0 s
  | .prepare x0 => Sys2Proof.Machine.execPrepare x0 s
  | .commit x0 => Sys2Proof.Machine.execCommit x0 s
  | .commitAck x0 x1 => Sys2Proof.Machine.execCommitAck x0 x1 s
  | .sealed x0 => Sys2Proof.Machine.execSealed x0 s
  | .sealTimeout x0 => Sys2Proof.Machine.execSealTimeout x0 s
  | .rollback x0 x1 x2 x3 => Sys2Proof.Machine.execRollback x0 x1 x2 x3 s
  | .replay x0 => Sys2Proof.Machine.execReplay x0 s
  | .hang x0 x1 => Sys2Proof.Machine.execHang x0 x1 s
  | .vcpNotify x0 x1 => Sys2Proof.Machine.execVcpNotify x0 x1 s
  | .queuePass x0 x1 => Sys2Proof.Machine.execQueuePass x0 x1 s
  | .nop x0 x1 => Sys2Proof.Machine.execNop x0 x1 s
  | .launch x0 x1 => Sys2Proof.Machine.execLaunch x0 x1 s
  | .claunch x0 x1 => Sys2Proof.Machine.execClaunch x0 x1 s
  | .qfence x0 x1 => Sys2Proof.Machine.execQfence x0 x1 s
  | .signal x0 x1 => Sys2Proof.Machine.execSignal x0 x1 s
  | .wait x0 x1 => Sys2Proof.Machine.execWait x0 x1 s
  | .launchComplete x0 x1 => Sys2Proof.Machine.execLaunchComplete x0 x1 s
  | .budgetPeriod => Sys2Proof.Machine.execBudgetPeriod s
  | .sliceChange x0 => Sys2Proof.Machine.execSliceChange x0 s
  | .moveDeadline x0 => Sys2Proof.Machine.execMoveDeadline x0 s
  | .scrubDone x0 => Sys2Proof.Machine.execScrubDone x0 s
  | .flr x0 => Sys2Proof.Machine.execFlr x0 s
  | .flitReceive x0 x1 x2 x3 x4 x5 => Sys2Proof.Machine.execFlitReceive x0 x1 x2 x3 x4 x5 s
  | .flitLost x0 => Sys2Proof.Machine.execFlitLost x0 s
  | .heartbeat => Sys2Proof.Machine.execHeartbeat s
  | .packageDead x0 => Sys2Proof.Machine.execPackageDead x0 s
  | .linkTraining x0 x1 => Sys2Proof.Machine.execLinkTraining x0 x1 s
  | .uetConnectionFailed x0 => Sys2Proof.Machine.execUetConnectionFailed x0 s
  | .clockTick => Sys2Proof.Machine.execClockTick s
  | .clockAnnouncement x0 x1 => Sys2Proof.Machine.execClockAnnouncement x0 x1 s
  | .clockHeartbeat => Sys2Proof.Machine.execClockHeartbeat s
  | .clockSilent x0 => Sys2Proof.Machine.execClockSilent x0 s
  | .silentRemoval x0 => Sys2Proof.Machine.execSilentRemoval x0 s
  | .clockJoinTimeout x0 => Sys2Proof.Machine.execClockJoinTimeout x0 s
  | .thermalTrip => Sys2Proof.Machine.execThermalTrip s
  | .overheat x0 => Sys2Proof.Machine.execOverheat x0 s
  | .coldReset => Sys2Proof.Machine.execColdReset s
  | .firmwareUpdate x0 x1 x2 => Sys2Proof.Machine.execFirmwareUpdate x0 x1 x2 s
  | .getMeasurements x0 => Sys2Proof.Machine.execGetMeasurements x0 s
  | .powerStateReached => Sys2Proof.Machine.execPowerStateReached s
  | .rowSpare x0 => Sys2Proof.Machine.execRowSpare x0 s
  | .unsupportedRequest x0 => Sys2Proof.Machine.execUnsupportedRequest x0 s
  | .gangBarrierComplete x0 x1 => Sys2Proof.Machine.execGangBarrierComplete x0 x1 s
  | .globalTileSpaceRequest x0 x1 x2 x3 x4 => Sys2Proof.Machine.execGlobalTileSpaceRequest x0 x1 x2 x3 x4 s
  | .sendeAcknowledgement x0 => Sys2Proof.Machine.execSendeAcknowledgement x0 s
  | .scalemcAcknowledgement x0 => Sys2Proof.Machine.execScalemcAcknowledgement x0 s
  | .laneTest x0 x1 x2 => Sys2Proof.Machine.execLaneTest x0 x1 x2 s
  | .laneSparingComplete x0 => Sys2Proof.Machine.execLaneSparingComplete x0 s
  | .tdispRequest x0 x1 => Sys2Proof.Machine.execTdispRequest x0 x1 s
  | .ideKmRequest x0 x1 => Sys2Proof.Machine.execIdeKmRequest x0 x1 s
  | .configurationRequest x0 x1 x2 x3 => Sys2Proof.Machine.execConfigurationRequest x0 x1 x2 x3 s
  | .takeScale x0 => Sys2Proof.Machine.execTakeScale x0 s
  | .matrixCommandComplete x0 => Sys2Proof.Machine.execMatrixCommandComplete x0 s
  | .mmarReceive x0 => Sys2Proof.Machine.execMmarReceive x0 s
  | .mmarStatus x0 => Sys2Proof.Machine.execMmarStatus x0 s
  | .scaleMessage x0 => Sys2Proof.Machine.execScaleMessage x0 s
  | .acvtRemote x0 => Sys2Proof.Machine.execAcvtRemote x0 s
  | .acvtReply x0 => Sys2Proof.Machine.execAcvtReply x0 s
  | .packetAccept x0 x1 => Sys2Proof.Machine.execPacketAccept x0 x1 s
  | .copyEngineAccept x0 => Sys2Proof.Machine.execCopyEngineAccept x0 s
  | .jobStart x0 => Sys2Proof.Machine.execJobStart x0 s
  | .completionAction x0 => Sys2Proof.Machine.execCompletionAction x0 s
  | .taskDispatch x0 => Sys2Proof.Machine.execTaskDispatch x0 s
  | .windowFillEnd x0 x1 => Sys2Proof.Machine.execWindowFillEnd x0 x1 s
  | .prepared x0 x1 => Sys2Proof.Machine.execPrepared x0 x1 s

end Sys2Proof.Machine
end

