-- ==== Sys2Proof/Machine/Units.lean ====
section
/-! DEFINITION. The device's units at work: which of their steps can happen now (01:R13-R15, 03:R42-R48, 11:R151-R165, 13:R177-R198,
21:R268, 23:R280-R288, 31:R340-R343; log 1). -/

namespace Sys2Proof.Machine
open Sys2Proof

/-- The first of some steps that can happen. -/
def firstStep (s : State) (ops : List (State → Option State)) : Option State := ops.findSome? (fun f => f s)

/-- The matrix unit of a tile and the fills of its windows (11:R151-R155, 13:R193). -/
def State.tileStep (s : State) (i : Nat) : Option State :=
  match firstStep s [(·.takeScale i), (·.matrixComplete i), (·.matrixAccept i)] with
  | some s => some s
  | none => (s.tile i).wins.findSome? (fun p => s.fillEnd i p.1)
/-- The delivery of a message of the router (01:R15, 11:R159-R165, 13:R180). -/
def State.messageStep (s : State) (m : RouterMsg) : Option State := match m with
  | .mmar tile _ _ _ _ _ _ _ _ => s.mmarReceive tile
  | .scale tile _ _ _ _ _ => s.scaleMessage tile
  | .acvt tile _ _ _ _ _ _ => s.acvtRemote tile
  | .status src _ _ _ => s.mmarStatus src
  | .scaleAck src _ _ => s.scaleAcks src
  | .rows src _ _ _ _ => s.acvtReply src
  | .packetAck src _ _ => s.packetAcked src
  | .packetWait _ _ _ _ => none
/-- What a resident thread has under way besides its instructions: packets, a gang barrier (13:R177, R182). -/
def State.threadStep (s : State) (t : Thread) : Option State :=
  match s.packetAccept t.tid none with
  | some s => some s
  | none => if t.flow.gba then s.gangBarrier t.tile t.info.gang else none
/-- An engine accepts, starts or ends a job (01:R13, 13:R186). -/
def State.engineStep (s : State) (e : Nat) : Option State := firstStep s [(·.completeJob e), (·.jobStart e), (·.acceptSub e)]
/-- A queue of a virtual command processor: a pass, a command, a completion (23:R280-R284). -/
def State.queueStep (s : State) (f q : Nat) : Option State :=
  firstStep s [(·.launchDone f q), (·.cmdNop f q), (·.cmdFence f q), (·.cmdSignal f q), (·.cmdWait f q), (·.cmdLaunch f q),
    (·.cmdClaunch f q), (·.queuePass f q)]
/-- A compact: an exchange in flight, its boundary, its dissolution, its resumption (03:R43-R47). -/
def State.compactStep (s : State) (bar : Nat) : Option State :=
  firstStep s [(·.exchangeWrite bar 0 0 [] none none), (·.boundary bar []), (·.dissolveAll bar false), (·.compactResume bar)]
/-- A partition's group: its rollback goes on, the package's parts of its seal are done, or every package has acknowledged (21:R268,
R273). -/
def State.sealStep (s : State) (n : Nat) : Option State :=
  firstStep s [(·.rollStops n), (·.finishRoll n), (·.prepare n), (fun s => if s.coordinator n = s.me && (s.rgs n).roll.isNone then s.sealed n else none)]
/-- RANKS at a home directory (01:R14): of a tile's threads, of unit `u` of a die, of the steward complex. The ports, the PCI Express endpoint
and other packages act by the agenda, each in a step of its own. -/
def threadRank (tile : Nat) : Nat := tile
def unitRank (die u : Nat) : Nat := 1536 + 1088 * die + u
def stewardRank : Nat := 5888
/-- A requester's steps enter those of the others by their keys: 16 times the rank, plus the slot of a thread. -/
def byRank (x : Nat × (State → Option State)) : List (Nat × (State → Option State)) → List (Nat × (State → Option State))
  | [] => [x]
  | y :: l => if x.1 ≤ y.1 then x :: y :: l else y :: byRank x l
/-- The engine that is unit `u` of a die: 48 copy engines, then the collective engine (01:R14). -/
def engineAt (die u : Nat) : Nat := if u < 48 then 48 * die + u else 192 + die
/-- The units of a die at work: its engines, and its task unit (01:R14). -/
def State.dieUnits (s : State) (d : Nat) : List (Nat × (State → Option State)) :=
  ((List.range 49).filter (fun u => s.eng.engines.any (·.1 == engineAt d u))).map (fun u => (16 * unitRank d u, fun (s : State) => s.engineStep (engineAt d u))) ++
    (if s.eng.pantry.isEmpty then [] else [(16 * unitRank d 49, fun (s : State) => s.taskDispatch d)])
/-- A free thread slot claims a record (23:R287). -/
def State.claimStep (s : State) : Option State :=
  if s.st.runq.isEmpty then none
  else s.tiles.findSome? (fun p => (List.range 16).findSome? (fun k => s.recordClaim (16 * p.1 + k)))
/-- Tiles, with the threads in their slots, and the units of the dies, in the order of their ranks (01:R14). -/
def State.requesters (s : State) : List (Nat × (State → Option State)) :=
  let tiles := ((s.threads.map (·.tile) ++ s.tiles.map (·.1)).dedup).map (fun i => (16 * threadRank i, fun (s : State) => s.tileStep i))
  let threads := s.threads.map (fun t => (16 * threadRank t.tile + t.tid % 16, fun (s : State) => s.threadStep t))
  (tiles ++ threads ++ (List.range 4).flatMap s.dieUnits).foldr byRank []
/-- The steps of the steward complex (01:R12, 19:R260, 21:R268, 23:R280-R287, 31:R343). -/
def State.stewardStep (s : State) : Option State :=
  firstStep s [
    State.releaseStep,
    fun s => s.eng.compacts.findSome? (fun c => s.compactStep c.1),
    fun s => s.st.parts.findSome? s.sealStep,
    fun s => s.st.vcps.findSome? (fun v => v.2.served.findSome? (s.queueStep v.1)),
    State.claimStep,
    State.powerReached]
/-- Some step of a unit that can happen now. No two steps are made in one cycle; those that could be meet in the order of their ranks
(01:R14). -/
def State.progress (s : State) : Option State :=
  firstStep s ((fun s => s.eng.router.findSome? s.messageStep) :: (s.requesters ++ [(16 * stewardRank, State.stewardStep)]).map (·.2))
/-- The issuing thread can do nothing by itself now: none has a turn, or it holds its slot or waits. -/
def State.stuck (s : State) : Bool := match s.turn with
  | none => true
  | some s => s.th.flow.hold != 0 || s.th.status == .waiting

/-- A step of the issuing thread, found by `turn` and `act`; a state without one lets its clock run. -/
def State.issueNext (s : State) : Act := match s.turn with
  | none => .idle s.clock
  | some s => s.act
/-- What happens next with nothing on the agenda (log 1): clocks that stand still wait; a unit's step where one can happen and the
issuing thread is stuck or the free choice says so; else the issuing thread. -/
def State.next (s : State) : Act :=
  if !s.clocked then .idle ((s.powerReached.getD s).tick)
  else match s.progress with
    | some s' => if s.stuck || Config.unitFirst s.fresh then .idle s'.tick else s.issueNext
    | none => s.issueNext

end Sys2Proof.Machine
end

