-- ==== Sys2Proof/Machine/Step.lean ====
section
/-! DEFINITION. One step: the head of the agenda, else the issuing thread. -/

namespace Sys2Proof.Machine
open Sys2Proof

/-- A step without an encoding that happens whatever firmware does (31:R340). -/
def bootStep (i : Instr) : Bool := match i with
  | .coldReset => true
  | .configurationRequest .. => true
  | _ => false

/-- A turn of the agenda. -/
def State.take (s : State) : Turn → Host.Outcome State Fault Refusal
  | .event i => exec i s
  | .thread tid => .next (s.turnTo tid)
  | .stores key => .next (s.storeRest key)
  | .flag tag => .next (s.flagTag tag true)
  | .sealReq n => .next (s.postSealReq n)
  | .forced n => .next (s.tellGroup n 9)
  | .told k n p => .next (s.hear k n p)
  | .group n ps rin rolls => .next (s.toldGroup n ps rin rolls)
  | .stopped n p rin cmt => .next (s.toldStopped n p rin cmt)
  | .route r j st => .next (s.routeTold r j st)
  | .hostRead f bar off n stream => .next (s.hostRead f bar off n stream)
  | .ethernetUp => .next s.ethernetUp
  | .dead p => unitStep s (s.declareDead p)
/-- What a turn plans is done before the rest of the agenda. -/
def before (rest : List Turn) : Host.Outcome State Fault Refusal → Host.Outcome State Fault Refusal
  | .next s => .next { s with inbox := s.inbox ++ rest }
  | o => o
def Turn.boots (t : Turn) : Bool := match t with
  | .event i => bootStep i
  | _ => false

/-- One step of the package: the head of the agenda, else what `next` says; a package in boot finishes it before anything but a
configuration request, and one without valid firmware has stopped (31:R340). -/
def step (s : State) : Host.Outcome State Fault Refusal :=
  match s.inbox with
  | t :: rest =>
    if t.boots then before rest (State.take { s with inbox := [] } t)
    else if s.pl.fwSt = 0 then .next s.boot
    else if s.pl.fwSt = 3 then .next { s with inbox := rest }
    else before rest (State.take { s with inbox := [] } t)
  | [] =>
    if s.pl.fwSt = 0 then .next s.boot
    else if s.pl.fwSt = 3 then .fault .bootHalted
    else match s.next with
      | .run i s => exec i s
      | .idle s => .next s
      | .refuse r => .refused r

/-- Where State.withFetchWord places its word: a virtual and physical address in DRAM. -/
def fetchHome : Nat := 0x30000
/-- `s` with the word `w` as the next one to issue: an H-mode thread in the slot of the issuing thread, at an address that its
tile's TLB maps, holding the word (log 6). -/
def State.withFetchWord (s : State) (_nbits w : Nat) : State :=
  let t := s.th
  let t := { t with
    live := true, dom := 0, priv := .h, pc := BitVec.ofNat 64 fetchHome, status := .ready, caller := none
    lp0 := .none, lp1 := .none
    flow := { Flow.fresh with mq := t.flow.mq, egress := t.flow.egress } }
  { s with
    th := t
    others := s.others.filter (fun u => !sameSlot u.tid t.tid)
    ms := { s.ms with
      mem := writeBytes s.ms.mem fetchHome (leBytes 4 w)
      pins := s.ms.pins.filter (fun p => p.line != fetchHome)
      tlb := ⟨t.tile, 0, fetchHome / 65536, 16, fetchHome + 0xEF, 0⟩ :: s.ms.tlb }
    pl := { s.pl with stopped := false, pwCur := 0, leaving := false, fwSt := 1 }
    inbox := [] }

end Sys2Proof.Machine
end

