-- ==== Sys2Proof/Safety.lean ====
section
/-! DEFINITION. What a safe run of the machine is, the invariants, when an instruction completes, and results written from the
rules' own words for the statements to compare the meanings with. -/

namespace Sys2Proof.Machine
open Sys2Proof

/-- A step that neither stops the machine nor is refused. -/
def Goes (s : State) : Prop := ∃ t, step s = .next t
/-- A number of steps that all go on. -/
def GoesFor : Nat → State → Prop
  | 0, _ => True
  | n + 1, s => ∃ t, step s = .next t ∧ GoesFor n t

/-- The bytes the machine lists are in canonical form (log 5). -/
def Canonical (s : State) : Prop := cellsWf s.ms.mem = true

/-- The instruction gets past the checks of R79, the registers it reads hold no uncorrectable error (R273), and, where it is a suspension
point, the results of its run are written (R35). -/
def Issues (i : Instr) (s : State) : Prop :=
  s.th.precheck i = none ∧ s.regFault i = none ∧ ((formOf i).flush = true → s.th.flow.outs = [])
/-- The state `t` after its effect does not step back from inside a transient chain (R87). -/
def NoStepBack (i : Instr) (s t : State) : Prop :=
  (s.th.flow.chain = none ∧ transientMark (instrMark i) = false) ∨ t.th.loopStep.pc = t.th.pc + 4
/-- The issuing thread does its slot's turn alone: it is resident, and no other thread has its number. -/
def Sole (s : State) : Prop := s.th.live = true ∧ ∀ u ∈ s.others, u.tid ≠ s.th.tid

/-- An instruction that holds its slot issues again (R30, R349): the kind of hold, and the state it leaves. -/
def State.holding (t : State) (k : Nat) : State := State.clock { t with th := { t.th with flow := { t.th.flow with hold := k } } }
/-- A suspension point that waits (R30-R31). -/
def State.waits (t : State) (st : Status) : State :=
  State.suspend (State.clock { t with th := t.th.inWait st })
/-- A suspension point that completes (R30). -/
def State.passes (t : State) (pre : Thread) (i : Instr) : State :=
  State.suspend (State.clockAs { t with th := (t.th.loopStep.afterIssue pre i false).counted pre i } pre)

/-- The instruction completes with the effect `e` (03:R34, 07:R86, 09:R118). -/
def Completes (i : Instr) (s e : State) : Prop := NoStepBack i s e → exec i s = .next (e.retire s.th i)
/-- The instruction takes a precise trap (15:R207). -/
def Traps (i : Instr) (s : State) (x : Trap) : Prop := exec i s = .next (s.trapping i x)
/-- A wait that is over completes with the effect `e`, as a suspension point unless it has waited (03:R30). -/
def Passes (i : Instr) (s e : State) : Prop :=
  (e.th.status = .waiting → Completes i s e) ∧ (e.th.status ≠ .waiting → exec i s = .next (e.passes s.th i))
/-- A unit's step without an encoding does this. -/
def Does (i : Instr) (s t : State) : Prop := exec i s = .next t

/-- A queue's next entry is the valid command `e` with operation `op`, its function is not rolling back or sealing, and no pending queue goes
before it (23:R280-R282, 21:R273). -/
def Entry (s : State) (f q op : Nat) (e : List Nat) : Prop :=
  s.atRest f = false ∧ (s.vcp f).outranked q = false ∧ s.nextEntry f q = some e ∧ bits (e.getD 0 0) 63 56 = op

/-- The first row of the table with an instruction's word: PCFG, DOMCFG and MEMBLK have one word each for their operations
(15:R217, R219, R222). -/
def firstRow (i : Instr) : Instr := match i with
  | .pcfgMerge m d a b => .pcfgSplit m d a b
  | .pcfgCreate m d a b => .pcfgSplit m d a b
  | .pcfgDestroy m d a b => .pcfgSplit m d a b
  | .pcfgBind m d a b => .pcfgSplit m d a b
  | .pcfgUnbind m d a b => .pcfgSplit m d a b
  | .domcfgAdjust m d a b => .domcfgWrite m d a b
  | .domcfgClear m d a b => .domcfgWrite m d a b
  | .memblkQuery m d a b => .memblkOffer m d a b
  | .memblkCancel m d a b => .memblkOffer m d a b
  | i => i

-- Results in the words of 09:R105-R109 --------------------------------------------------------------------------------

/-- `satint` of an exact signed result (05:R59). -/
def satSigned (e : Int) : Word × Flags :=
  if e < -9223372036854775808 then (0x8000000000000000, fSAT)
  else if 9223372036854775807 < e then (0x7FFFFFFFFFFFFFFF, fSAT) else (BitVec.ofInt 64 e, 0)
/-- `satint` of an exact unsigned result (05:R59). -/
def satUnsigned (f : Int) : Word × Flags :=
  if f < 0 then (0, fSAT) else if 18446744073709551615 < f then (0xFFFFFFFFFFFFFFFF, fSAT) else (BitVec.ofInt 64 f, 0)
/-- A 64-bit or a 32-bit result, the latter zero-extended (09:R105, R107). -/
def byWidth (w : BitVec 1) (x : Word) (f : Word → Word) (g : BitVec 32 → BitVec 32) : Word :=
  if w = 1 then (g (x.setWidth 32)).setWidth 64 else f x

/-- Arithmetic of major opcode 0x00: mark, destination, result and flags (09:R106). -/
def arithRule (i : Instr) (t : Thread) : Option (Mark × Reg × Word × Flags) :=
  match i with
  | .add m d a b q => some (m, d,
      if q = 0 then (t.gr a + t.gr b, 0) else if q = 1 then satSigned ((t.gr a).toInt + (t.gr b).toInt)
      else satUnsigned (((t.gr a).toNat : Int) + (t.gr b).toNat))
  | .sub m d a b q => some (m, d,
      if q = 0 then (t.gr a - t.gr b, 0) else if q = 1 then satSigned ((t.gr a).toInt - (t.gr b).toInt)
      else satUnsigned (((t.gr a).toNat : Int) - (t.gr b).toNat))
  | .mul m d a b q => some (m, d,
      if q = 0 then (t.gr a * t.gr b, 0) else if q = 1 then satSigned ((t.gr a).toInt * (t.gr b).toInt)
      else satUnsigned (((t.gr a).toNat : Int) * (t.gr b).toNat))
  | .mulh m d a b => some (m, d, BitVec.ofInt 64 (((t.gr a).toInt * (t.gr b).toInt) >>> 64), 0)
  | .mulhn m d a b => some (m, d, BitVec.ofNat 64 (((t.gr a).toNat * (t.gr b).toNat) >>> 64), 0)
  | .div m d a b => some (m, d,
      if t.gr b = 0 then (BitVec.allOnes 64, 0)
      else if t.gr a = 0x8000000000000000 ∧ t.gr b = BitVec.allOnes 64 then (0x7FFFFFFFFFFFFFFF, fSAT)
      else ((t.gr a).sdiv (t.gr b), 0))
  | .divn m d a b => some (m, d, if t.gr b = 0 then BitVec.allOnes 64 else t.gr a / t.gr b, 0)
  | .rem m d a b => some (m, d,
      if t.gr b = 0 then (t.gr a, 0)
      else if t.gr a = 0x8000000000000000 ∧ t.gr b = BitVec.allOnes 64 then (0, fSAT)
      else ((t.gr a).srem (t.gr b), 0))
  | .remn m d a b => some (m, d, if t.gr b = 0 then t.gr a else t.gr a % t.gr b, 0)
  | .min m d a b => some (m, d, if (t.gr b).slt (t.gr a) then t.gr b else t.gr a, 0)
  | .max m d a b => some (m, d, if (t.gr b).slt (t.gr a) then t.gr a else t.gr b, 0)
  | .minn m d a b => some (m, d, if (t.gr b).ult (t.gr a) then t.gr b else t.gr a, 0)
  | .maxn m d a b => some (m, d, if (t.gr b).ult (t.gr a) then t.gr a else t.gr b, 0)
  | _ => none
/-- Logic, shifts, counting, selection and fields (09:R107-R108). -/
def logicRule (i : Instr) (t : Thread) : Option (Mark × Reg × Word) :=
  match i with
  | .and m d a b => some (m, d, t.gr a &&& t.gr b)
  | .or m d a b => some (m, d, t.gr a ||| t.gr b)
  | .xor m d a b => some (m, d, t.gr a ^^^ t.gr b)
  | .andn m d a b => some (m, d, t.gr a &&& ~~~ t.gr b)
  | .shl m d a b w => some (m, d, byWidth w (t.gr a) (· <<< ((t.gr b).toNat % 64)) (· <<< ((t.gr b).toNat % 32)))
  | .shr m d a b w => some (m, d, byWidth w (t.gr a) (· >>> ((t.gr b).toNat % 64)) (· >>> ((t.gr b).toNat % 32)))
  | .sra m d a b w => some (m, d, if w = 1 then (((t.gr a).setWidth 32).sshiftRight ((t.gr b).toNat % 32)).signExtend 64
      else (t.gr a).sshiftRight ((t.gr b).toNat % 64))
  | .rol m d a b w => some (m, d, byWidth w (t.gr a) (·.rotateLeft ((t.gr b).toNat % 64)) (·.rotateLeft ((t.gr b).toNat % 32)))
  | .clz m d a w => some (m, d, byWidth w (t.gr a) BitVec.clz BitVec.clz)
  | .ctz m d a w => some (m, d, byWidth w (t.gr a) BitVec.ctz BitVec.ctz)
  | .popc m d a w => some (m, d, byWidth w (t.gr a) BitVec.cpop BitVec.cpop)
  | .sel m d a b => some (m, d, if t.gr d ≠ 0 then t.gr a else t.gr b)
  | .cmp m d a b c => some (m, d, if (if c = 0 then t.gr a == t.gr b else if c = 1 then t.gr a != t.gr b
      else if c = 2 then (t.gr a).slt (t.gr b) else (t.gr a).ult (t.gr b)) then 1 else 0)
  | .sext m d a w => some (m, d, if w = 0 then ((t.gr a).setWidth 8).signExtend 64
      else if w = 1 then ((t.gr a).setWidth 16).signExtend 64 else ((t.gr a).setWidth 32).signExtend 64)
  | .zext m d a w => some (m, d, t.gr a &&& (if w = 0 then 0xFF else if w = 1 then 0xFFFF else 0xFFFFFFFF))
  | .bfx m d a b x =>
      let p := (t.gr b).toNat % 64
      let k := Nat.min ((t.gr b).toNat / 64 % 128) 64
      let f := (t.gr a >>> p) <<< (64 - k)
      some (m, d, if k = 0 then 0 else if x = 1 then f.sshiftRight (64 - k) else f >>> (64 - k))
  | .bfi m d a b =>
      let p := (t.gr b).toNat % 64
      let k := Nat.min ((t.gr b).toNat / 64 % 128) (64 - p)
      let msk := BitVec.ofNat 64 ((2 ^ k - 1) * 2 ^ p)
      some (m, d, (t.gr d &&& ~~~ msk) ||| ((t.gr a <<< p) &&& msk))
  | _ => none
/-- Immediate forms (09:R109); `t.simm` is the widened immediate of R81. -/
def immediateRule (i : Instr) (t : Thread) : Option (Mark × Reg × Word) :=
  match i with
  | .addi m d a x => some (m, d, t.gr a + t.simm x.toNat 11)
  | .andi m d a x => some (m, d, t.gr a &&& t.simm x.toNat 11)
  | .ori m d a x => some (m, d, t.gr a ||| t.simm x.toNat 11)
  | .xori m d a x => some (m, d, t.gr a ^^^ t.simm x.toNat 11)
  | .cmpi m d a x => some (m, d, if (t.gr a).slt (t.simm x.toNat 11) then 1 else 0)
  | .shli m d a w n => some (m, d, byWidth w (t.gr a) (· <<< n.toNat) (· <<< n.toNat))
  | .shri m d a w n => some (m, d, byWidth w (t.gr a) (· >>> n.toNat) (· >>> n.toNat))
  | .srai m d a w n => some (m, d, if w = 1 then (((t.gr a).setWidth 32).sshiftRight n.toNat).signExtend 64
      else (t.gr a).sshiftRight n.toNat)
  | .li m d x => some (m, d, t.simm x.toNat 16)
  | .lih m d x => some (m, d, (x ++ (t.gr d).setWidth 48 : BitVec 64))
  | _ => none

-- Vector forms ----------------------------------------------------------------------------------------------------------

/-- The register vector forms with v operands only: mark, destination, whether it is also read, operands (11:R139-R147). -/
def vecShape (i : Instr) : Option (Mark × Reg × Bool × Reg × Option Reg) :=
  match i with
  | .vadd m d a b _ => some (m, d, false, a, some b)
  | .vsub m d a b _ => some (m, d, false, a, some b)
  | .vmul m d a b _ => some (m, d, false, a, some b)
  | .vmin m d a b _ => some (m, d, false, a, some b)
  | .vmax m d a b _ => some (m, d, false, a, some b)
  | .vshl m d a b _ => some (m, d, false, a, some b)
  | .vshr m d a b _ => some (m, d, false, a, some b)
  | .vsra m d a b _ => some (m, d, false, a, some b)
  | .vperm m d a b _ => some (m, d, false, a, some b)
  | .vfadd m d a b _ => some (m, d, false, a, some b)
  | .vfsub m d a b _ => some (m, d, false, a, some b)
  | .vfmul m d a b _ => some (m, d, false, a, some b)
  | .vfmin m d a b _ => some (m, d, false, a, some b)
  | .vfmax m d a b _ => some (m, d, false, a, some b)
  | .vpack m d a b _ => some (m, d, false, a, some b)
  | .vand m d a b => some (m, d, false, a, some b)
  | .vor m d a b => some (m, d, false, a, some b)
  | .vxor m d a b => some (m, d, false, a, some b)
  | .vmad m d a b _ => some (m, d, true, a, some b)
  | .vfma m d a b _ => some (m, d, true, a, some b)
  | .vsel m d a b => some (m, d, true, a, some b)
  | .vabs m d a _ => some (m, d, false, a, none)
  | .vneg m d a _ => some (m, d, false, a, none)
  | .vrcp m d a _ => some (m, d, false, a, none)
  | .vrsq m d a _ => some (m, d, false, a, none)
  | .vred m d a _ _ => some (m, d, false, a, none)
  | .vcvt m d a _ _ => some (m, d, false, a, none)
  | .vunpk m d a _ _ => some (m, d, false, a, none)
  | .vscl m d a _ _ => some (m, d, false, a, none)
  | .vcmp m d a _ _ => some (m, d, true, a, none)
  | _ => none
/-- Integer lanes: et and the result of the lanes of vd, va and vb (11:R140). -/
def intLaneRule (i : Instr) : Option (BitVec 3 × ((n : Nat) → BitVec n → BitVec n → BitVec n → BitVec n)) :=
  match i with
  | .vadd _ _ _ _ e => some (e, fun _ _ x y => x + y)
  | .vsub _ _ _ _ e => some (e, fun _ _ x y => x - y)
  | .vmul _ _ _ _ e => some (e, fun _ _ x y => x * y)
  | .vmad _ _ _ _ e => some (e, fun _ d x y => d + x * y)
  | .vmin _ _ _ _ e => some (e, fun _ _ x y => if e.toNat < 4 then (if y.slt x then y else x) else if y.ult x then y else x)
  | .vmax _ _ _ _ e => some (e, fun _ _ x y => if e.toNat < 4 then (if y.slt x then x else y) else if y.ult x then x else y)
  | .vabs _ _ _ e => some (e, fun _ _ x _ => x.abs)
  | .vneg _ _ _ e => some (e, fun _ _ x _ => -x)
  | .vshl _ _ _ _ e => some (e, fun n _ x y => x <<< (y.toNat % n))
  | .vshr _ _ _ _ e => some (e, fun n _ x y => x >>> (y.toNat % n))
  | .vsra _ _ _ _ e => some (e, fun n _ x y => x.sshiftRight (y.toNat % n))
  | _ => none

end Sys2Proof.Machine
end

