-- ==== Sys2Proof/Certificates/Slice0/Obligations.lean ====
section
/-! DEFINITION. The statements for the provers. A state `e.retire s.th i` is `e` with the instruction `i` of the thread of `s` ended
(03:R34, 07:R86, 09:R118): what that end changes and leaves is the statement `RetireChanges`. -/

open Sys2Proof Sys2Proof.Machine

-- Steps, decoding ------------------------------------------------------------------------------------------------------

/-- 07:R72, R79, 09:R115: with nothing on the agenda, clocks running, no unit's step ahead and no event due, a step of a thread whose
word decodes is that instruction, and of one whose word does not, the illegal-encoding trap. `u` is the state with the slot's turn given
(log 1); `u.noteGuards` has its resolved guards noted; `c` is the one after the slot's credits (23:R288), and its pc is fetched. -/
def Obligations.StepRunsDecodedWord : Prop :=
  ∀ (s u c s' : State) (bs : List Byte),
    s.inbox = [] → s.pl.fwSt = 1 → s.clocked = true → s.progress = none → s.turn = some u →
    (u.noteGuards).th.due = none → (u.noteGuards).th.heldHere = none → (u.noteGuards).stopDue (u.noteGuards).th = false →
    (u.noteGuards).th.status = .ready → (u.noteGuards).credit = (c, true) → c.fetchAt c.th.pc = .ok bs s' →
    (c.th.flow.jumped = false ∨ s'.afterHint c.th.pc = .ok false) →
    (∀ i, decodeWord (leNat bs) = .ok i → step s = exec i s') ∧
    (∀ e, decodeWord (leNat bs) = .error e → step s = exec (.illegalEncoding (BitVec.ofNat 32 (leNat bs))) s')

/-- 07:R72-R78: words written out bit by bit from the encoding tables: `add g3, g4, g5`; `addi g3, g4, -1`; BR with h 0 and offset 0;
`ld.w64 g5, 0(g4)`; VADD on bytes; `mfs g5, TS.FX`; `halt`; `lexit`; and a word of a version the machine does not have. -/
def Obligations.WordsDecode : Prop :=
  decodeWord 0b01000000000000110010000101000000 = .ok (.add ⟨true, false, false⟩ 3 4 5 0) ∧
  decodeWord 0b01000010000000110010011111111111 = .ok (.addi ⟨true, false, false⟩ 3 4 0x7FF) ∧
  decodeWord 0b01000100000000000000000000000000 = .ok (.br ⟨true, false, false⟩ 0 0) ∧
  decodeWord 0b01100110000001010010001100000000 = .ok (.ld ⟨true, true, false⟩ 5 4 3 0) ∧
  decodeWord 0b01001000001000110010000101000000 = .ok (.vadd ⟨true, false, false⟩ 3 4 5 0) ∧
  decodeWord 0b01001101010001010000000000000011 = .ok (.mfs ⟨true, false, false⟩ 5 3) ∧
  decodeWord 0b01001101000000000000000000100000 = .ok (.halt ⟨true, false, false⟩) ∧
  decodeWord 0b01000101011000000000000000000000 = .ok (.lexit ⟨true, false, false⟩) ∧
  decodeWord 0b10000000000000000000000000000000 = .error .version

-- The end of an instruction ---------------------------------------------------------------------------------------------

/-- 03:R34, 07:R86, 09:R118: the end of a completed instruction changes no memory, engine, steward or platform state, no byte of the
register window and no guard, view, accumulator, trap or selector register of its thread; its registers and loops move on as
`loopStep` says. -/
def Obligations.RetireChanges : Prop :=
  ∀ (s e : State) (i : Instr), Sole e →
    (e.retire s.th i).ms = e.ms ∧ (e.retire s.th i).eng = e.eng ∧ (e.retire s.th i).st = e.st ∧ (e.retire s.th i).pl = e.pl ∧
    (e.retire s.th i).inbox = e.inbox ∧
    ∃ u, (e.retire s.th i).thread? e.th.tid = some u ∧
      u.pc = e.th.loopStep.pc ∧ u.regs = e.th.loopStep.regs ∧ u.lp0 = e.th.loopStep.lp0 ∧ u.lp1 = e.th.loopStep.lp1 ∧
      u.win = e.th.win ∧ u.fx = e.th.fx ∧ u.oob = e.th.oob ∧ u.guards = e.th.guards ∧ u.vv = e.th.vv ∧ u.va = e.th.va ∧
      u.vx = e.th.vx ∧ u.sb = e.th.sb ∧ u.hb = e.th.hb ∧ u.mu = e.th.mu ∧ u.sel = e.th.sel ∧ u.lps = e.th.lps ∧
      u.priv = e.th.priv ∧ u.dom = e.th.dom ∧ u.info = e.th.info ∧ u.caller = e.th.caller

/-- 07:R86, R90: a delivered result is read back by its name, every other register reads as before, and g0 reads zero and discards;
a transient result leaves the register space as it was. -/
def Obligations.DeliveryOfResults : Prop :=
  ∀ (t : Thread) (m : Mark) (d g : Reg) (x : Word),
    (t.deliver m d x).gr 0 = 0 ∧ (d ≠ 0 → (t.deliver m d x).gr d = x) ∧ (g ≠ d → (t.deliver m d x).gr g = t.gr g) ∧
    t.deliver m 0 x = t ∧ (transientMark m = true → (t.deliver m d x).regs = t.regs) ∧
    (transientMark m = false → d ≠ 0 → (t.deliver m d x).raw d = x) ∧ (g ≠ d → (t.deliver m d x).raw g = t.raw g)

-- Register forms ----------------------------------------------------------------------------------------------------------

/-- 09:R106: ADD, SUB, MUL, MULH, MULHN, DIV, DIVN, REM, REMN, MIN, MAX, MINN and MAXN complete with the result and flags of
`arithRule`. -/
def Obligations.ArithmeticResults : Prop :=
  ∀ (i : Instr) (s : State) (m : Mark) (d : Reg) (x : Word) (f : Flags),
    i.wellFormed = true → arithRule i s.th = some (m, d, x, f) → Issues i s →
    NoStepBack i s ((s.deliver m d x).setfx f) → exec i s = .next (((s.deliver m d x).setfx f).retire s.th i)

/-- 09:R107-R108: AND, OR, XOR, ANDN, SHL, SHR, SRA, ROL, CLZ, CTZ, POPC, SEL, CMP, SEXT, ZEXT, BFX and BFI complete with the result
of `logicRule`, and no flag. -/
def Obligations.LogicResults : Prop :=
  ∀ (i : Instr) (s : State) (m : Mark) (d : Reg) (x : Word),
    i.wellFormed = true → logicRule i s.th = some (m, d, x) → Issues i s →
    NoStepBack i s (s.deliver m d x) → exec i s = .next ((s.deliver m d x).retire s.th i)

/-- 09:R109: ADDI, ANDI, ORI, XORI, CMPI, SHLI, SHRI, SRAI, LI and LIH complete with the result of `immediateRule`, and no flag. -/
def Obligations.ImmediateResults : Prop :=
  ∀ (i : Instr) (s : State) (m : Mark) (d : Reg) (x : Word),
    i.wellFormed = true → immediateRule i s.th = some (m, d, x) → Issues i s →
    NoStepBack i s (s.deliver m d x) → exec i s = .next ((s.deliver m d x).retire s.th i)

/-- 09:R110-R111: GADR gives the address of a byte of a tile's slot on the package its index names, LADR the offset of an address in the
thread's own slot, all ones outside it; a coordinate that names no tile, and an index that names no package, trap GADR. -/
def Obligations.TileAddresses : Prop :=
  (∀ (m : Mark) (d a : Reg) (x : BitVec 11) (s : State) (g p : Nat), Issues (.gadr m d a x) s →
    coordIdx ((s.th.gr a).toNat % 32768 % 2048) = some g → s.eptPackage s.th.fn ((s.th.gr a).toNat % 32768 / 2048) = some p →
    let r := BitVec.ofNat 64 (s.gtb s.th.fn p + g * 0x200000) + s.th.simm x.toNat 11
    NoStepBack (.gadr m d a x) s (s.deliver m d r) →
    exec (.gadr m d a x) s = .next ((s.deliver m d r).retire s.th (.gadr m d a x))) ∧
  (∀ (m : Mark) (d a : Reg) (x : BitVec 11) (s : State), Issues (.gadr m d a x) s →
    (coordIdx ((s.th.gr a).toNat % 32768 % 2048) = none ∨ s.eptPackage s.th.fn ((s.th.gr a).toNat % 32768 / 2048) = none) →
    Traps (.gadr m d a x) s ⟨.illstate, 0, s.th.gr a⟩) ∧
  (∀ (m : Mark) (d a : Reg) (x : BitVec 11) (s : State), Issues (.ladr m d a x) s →
    let e := s.th.gr a + s.th.simm x.toNat 11
    let base := BitVec.ofNat 64 (s.gtb s.th.fn s.me + s.th.tile * 0x200000)
    let r := if base.toNat ≤ e.toNat ∧ e.toNat < base.toNat + 0x200000 then e - base else BitVec.allOnes 64
    NoStepBack (.ladr m d a x) s (s.deliver m d r) →
    exec (.ladr m d a x) s = .next ((s.deliver m d r).retire s.th (.ladr m d a x)))

/-- 07:R80-R83: a hint word that its group admits joins the group at the next word, and changes nothing but counters, clock and pc,
and HSCHED PREFW the window whose fill it may start early; a third hint takes the illegal-encoding trap.
07:R81: one HIMM before a form with an 11-bit immediate widens it to 32 bits, two to 53, sign-extended: the nearest HIMM holds
the lower bits. -/
def Obligations.Hints : Prop :=
  ((∀ (v : Bool) (x : BitVec 21) (s : State), s.th.hints.length < 2 → s.th.lp0.act = false → s.th.lp1.act = false →
    exec (.himm v x) s = .next (State.clock { s with th := ({ s.th with pc := s.th.pc + 4, flow := { s.th.flow with
      group := some ⟨s.th.groupStart, s.th.hints ++ [Instr.himm v x]⟩, jumped := false } }).countEv 2 1 })) ∧
  (∀ (v : Bool) (r e : BitVec 1) (f : BitVec 4) (c : BitVec 2) (s : State), s.th.hints = [] → s.th.lp0.act = false →
    s.th.lp1.act = false →
    exec (.hmod v r e f c) s = .next (State.clock { s with th := ({ s.th with pc := s.th.pc + 4, flow := { s.th.flow with
      group := some ⟨s.th.groupStart, [Instr.hmod v r e f c]⟩, jumped := false } }).countEv 2 1 })) ∧
  (∀ (v : Bool) (a : Reg) (k : BitVec 3) (s : State), s.th.hints = [] → s.th.lp0.act = false → s.th.lp1.act = false →
    let t := State.clock { s with th := ({ s.th with pc := s.th.pc + 4, flow := { s.th.flow with
      group := some ⟨s.th.groupStart, [Instr.hsched v a k]⟩, jumped := false } }).countEv 2 1 }
    exec (.hsched v a k) s = .next (if k = 4 then t.prefetch a.toNat else t)) ∧
  (∀ (i : Instr) (s : State), (formOf i).major = 0x70 ∨ (formOf i).major = 0x71 ∨ (formOf i).major = 0x72 → 2 ≤ s.th.hints.length →
    Traps i s ⟨.illenc, 0, illencTval (wordOf i) s.th.hints.length⟩)) ∧
  (∀ (t : Thread) (v w : Bool) (x y : BitVec 21) (k : BitVec 11) (a : Word),
    ({ t with flow := { t.flow with group := some ⟨a, [Instr.himm v x]⟩ } } : Thread).simm k.toNat 11 = (x ++ k : BitVec 32).signExtend 64 ∧
    ({ t with flow := { t.flow with group := some ⟨a, [Instr.himm v y, Instr.himm w x]⟩ } } : Thread).simm k.toNat 11 =
      (y ++ (x ++ k : BitVec 32) : BitVec 53).signExtend 64 ∧
    ({ t with flow := { t.flow with group := none } } : Thread).simm k.toNat 11 = k.signExtend 64)

-- Control flow --------------------------------------------------------------------------------------------------------------

/-- 09:R112-R113: BR, BC, BC.z, BG and BG.f go to pc + 4 * off when their condition holds, else on; a pending guard holds the slot. -/
def Obligations.Branches : Prop :=
  (∀ (m : Mark) (h : BitVec 2) (o : BitVec 16) (s : State), Issues (.br m h o) s →
    exec (.br m h o) s = .next (s.retireJump s.th (.br m h o) .branch (s.th.pc + 4 * s.th.simm o.toNat 16))) ∧
  (∀ (m : Mark) (h : BitVec 2) (c : BitVec 3) (o : BitVec 16) (s : State), Issues (.bc m h c o) s → s.th.gr (c.setWidth 5) ≠ 0 →
    exec (.bc m h c o) s = .next (s.retireJump s.th (.bc m h c o) .branch (s.th.pc + 4 * s.th.simm o.toNat 16))) ∧
  (∀ (m : Mark) (h : BitVec 2) (c : BitVec 3) (o : BitVec 16) (s : State), Issues (.bc m h c o) s → s.th.gr (c.setWidth 5) = 0 →
    NoStepBack (.bc m h c o) s s → exec (.bc m h c o) s = .next (s.retire s.th (.bc m h c o))) ∧
  (∀ (m : Mark) (h : BitVec 2) (c : BitVec 3) (o : BitVec 16) (s : State), Issues (.bcZ m h c o) s → s.th.gr (c.setWidth 5) = 0 →
    exec (.bcZ m h c o) s = .next (s.retireJump s.th (.bcZ m h c o) .branch (s.th.pc + 4 * s.th.simm o.toNat 16))) ∧
  (∀ (m : Mark) (h : BitVec 2) (c : BitVec 3) (o : BitVec 16) (s : State), Issues (.bcZ m h c o) s → s.th.gr (c.setWidth 5) ≠ 0 →
    NoStepBack (.bcZ m h c o) s s → exec (.bcZ m h c o) s = .next (s.retire s.th (.bcZ m h c o))) ∧
  (∀ (m : Mark) (h : BitVec 2) (c : BitVec 3) (o : BitVec 16) (s : State), Issues (.bg m h c o) s → s.th.gst c.toNat = .tru →
    exec (.bg m h c o) s = .next (s.retireJump s.th (.bg m h c o) .branch (s.th.pc + 4 * s.th.simm o.toNat 16))) ∧
  (∀ (m : Mark) (h : BitVec 2) (c : BitVec 3) (o : BitVec 16) (s : State), Issues (.bgF m h c o) s → s.th.gst c.toNat = .fls →
    exec (.bgF m h c o) s = .next (s.retireJump s.th (.bgF m h c o) .branch (s.th.pc + 4 * s.th.simm o.toNat 16))) ∧
  (∀ (m : Mark) (h : BitVec 2) (c : BitVec 3) (o : BitVec 16) (s : State), Issues (.bg m h c o) s → s.th.gst c.toNat = .fls →
    NoStepBack (.bg m h c o) s s → exec (.bg m h c o) s = .next (s.retire s.th (.bg m h c o))) ∧
  (∀ (m : Mark) (h : BitVec 2) (c : BitVec 3) (o : BitVec 16) (s : State), Issues (.bgF m h c o) s → s.th.gst c.toNat = .tru →
    NoStepBack (.bgF m h c o) s s → exec (.bgF m h c o) s = .next (s.retire s.th (.bgF m h c o))) ∧
  (∀ (m : Mark) (h : BitVec 2) (c : BitVec 3) (o : BitVec 16) (s : State), Issues (.bg m h c o) s → s.th.gst c.toNat = .pend →
    exec (.bg m h c o) s = .next (s.holding 1)) ∧
  (∀ (m : Mark) (h : BitVec 2) (c : BitVec 3) (o : BitVec 16) (s : State), Issues (.bgF m h c o) s → s.th.gst c.toNat = .pend →
    exec (.bgF m h c o) s = .next (s.holding 1))

/-- 09:R112, R114-R115: CALL, CALLR, RET and JMPR; CALLR reads its target before it writes the link; a target that is no multiple of 4
takes the alignment trap on the jump.
09:R116: JTAB falls through past the table's length; else it jumps by the table's word; a misaligned entry traps. -/
def Obligations.CallsJumpsTables : Prop :=
  ((∀ (m : Mark) (h : BitVec 2) (o : BitVec 16) (s : State), Issues (.call m h o) s →
    exec (.call m h o) s =
      .next ((s.gw 31 (s.th.pc + 4)).retireJump s.th (.call m h o) .call (s.th.pc + 4 * s.th.simm o.toNat 16))) ∧
  (∀ (m : Mark) (d a : Reg) (s : State), Issues (.callr m d a) s → (s.th.gr a).toNat % 4 = 0 →
    exec (.callr m d a) s = .next ((s.gw d (s.th.pc + 4)).retireJump s.th (.callr m d a) .call (s.th.gr a))) ∧
  (∀ (m : Mark) (a : Reg) (s : State), Issues (.ret m a) s → (s.th.gr a).toNat % 4 = 0 →
    exec (.ret m a) s = .next (s.retireJump s.th (.ret m a) .call (s.th.gr a))) ∧
  (∀ (m : Mark) (a : Reg) (s : State), Issues (.jmpr m a) s → (s.th.gr a).toNat % 4 = 0 →
    exec (.jmpr m a) s = .next (s.retireJump s.th (.jmpr m a) .branch (s.th.gr a))) ∧
  (∀ (m : Mark) (d a : Reg) (s : State), (s.th.gr a).toNat % 4 ≠ 0 →
    (Issues (.callr m d a) s → Traps (.callr m d a) s ⟨.align, 0, s.th.gr a⟩) ∧
    (Issues (.ret m a) s → Traps (.ret m a) s ⟨.align, 0, s.th.gr a⟩) ∧
    (Issues (.jmpr m a) s → Traps (.jmpr m a) s ⟨.align, 0, s.th.gr a⟩))) ∧
  ((∀ (m : Mark) (d a : Reg) (n : BitVec 11) (s : State), Issues (.jtab m d a n) s → s.th.uimm n.toNat 11 ≤ (s.th.gr d).toNat →
    NoStepBack (.jtab m d a n) s s → exec (.jtab m d a n) s = .next (s.retire s.th (.jtab m d a n))) ∧
  (∀ (m : Mark) (d a : Reg) (n : BitVec 11) (s s' : State) (bs : List Byte), Issues (.jtab m d a n) s →
    (s.th.gr d).toNat < s.th.uimm n.toNat 11 → (s.th.gr a + 4 * s.th.gr d).toNat % 4 = 0 →
    s.ldHeld s.th.acc .read (s.th.gr a + 4 * s.th.gr d) 4 = .ok bs s' →
    exec (.jtab m d a n) s = .next (s'.retireJump s.th (.jtab m d a n) .branch
      (s.th.pc + 4 * BitVec.ofNat 64 (sextN 32 64 (leNat bs))))) ∧
  (∀ (m : Mark) (d a : Reg) (n : BitVec 11) (s : State), Issues (.jtab m d a n) s →
    (s.th.gr d).toNat < s.th.uimm n.toNat 11 → (s.th.gr a + 4 * s.th.gr d).toNat % 4 ≠ 0 →
    Traps (.jtab m d a n) s ⟨.align, 0, s.th.gr a + 4 * s.th.gr d⟩))

/-- 09:R117, R120: LOOP skips its body on a zero count, inside LP0's body too, opens LP0, or LP1 inside LP0's body, and traps with two loops open or a body
that passes the outer one; LEXIT closes the innermost loop and leaves the count.
09:R119: a taken branch out of a loop's body closes it and every loop inside it, and leaves the counts; one inside keeps them.
09:R118: after the end word of the innermost active loop the count is decremented and the body runs again, or the count is
cleared, the loop closes and the outer loop is tested; elsewhere the pc advances by 4. -/
def Obligations.LoopsAndBranches : Prop :=
  (((∀ (m : Mark) (d : Reg) (l : BitVec 16) (s : State), Issues (.loop m d l) s → s.th.lp0.act = false → s.th.gr d = 0 →
    exec (.loop m d l) s = .next (s.retireJump s.th (.loop m d l) .skip (s.th.pc + BitVec.ofNat 64 (4 * l.toNat) + 4))) ∧
  (∀ (m : Mark) (d : Reg) (l : BitVec 16) (s : State), Issues (.loop m d l) s → s.th.lp0.act = false → s.th.gr d ≠ 0 →
    let e : State := { s with th := { s.th with lp0 := ⟨true, d, 0, l.toNat - 1⟩, lps := s.th.pc + 4 } }
    NoStepBack (.loop m d l) s e → exec (.loop m d l) s = .next (e.retire s.th (.loop m d l))) ∧
  (∀ (m : Mark) (d : Reg) (l : BitVec 16) (s : State), Issues (.loop m d l) s → s.th.lp0.act = true → s.th.lp1.act = false →
    s.th.loop0.1 ≤ (s.th.pc + 4).toNat → s.th.pc.toNat + 4 * l.toNat ≤ s.th.loop0.2 → s.th.gr d ≠ 0 →
    let e : State := { s with th := { s.th with lp1 := ⟨true, d, (s.th.pc + 4 - s.th.lps).toNat / 4, l.toNat - 1⟩ } }
    NoStepBack (.loop m d l) s e → exec (.loop m d l) s = .next (e.retire s.th (.loop m d l))) ∧
  (∀ (m : Mark) (d : Reg) (l : BitVec 16) (s : State), Issues (.loop m d l) s → s.th.lp0.act = true →
    (s.th.lp1.act = true ∨ ¬ (s.th.loop0.1 ≤ (s.th.pc + 4).toNat ∧ s.th.pc.toNat + 4 * l.toNat ≤ s.th.loop0.2)) →
    Traps (.loop m d l) s ⟨.illstate, 0, s.th.pc⟩) ∧
  (∀ (m : Mark) (d : Reg) (l : BitVec 16) (s : State), Issues (.loop m d l) s → s.th.lp0.act = true → s.th.lp1.act = false →
    s.th.loop0.1 ≤ (s.th.pc + 4).toNat → s.th.pc.toNat + 4 * l.toNat ≤ s.th.loop0.2 → s.th.gr d = 0 →
    exec (.loop m d l) s = .next (s.retireJump s.th (.loop m d l) .skip (s.th.pc + BitVec.ofNat 64 (4 * l.toNat) + 4))) ∧
  (∀ (m : Mark) (s : State), Issues (.lexit m) s →
    let e : State := if s.th.lp1.act then { s with th := { s.th with lp1 := .none } }
      else if s.th.lp0.act then { s with th := { s.th with lp0 := .none } } else s
    NoStepBack (.lexit m) s e → exec (.lexit m) s = .next (e.retire s.th (.lexit m))) ∧
  (∀ (s : State) (g : Reg), ({ s with th := { s.th with lp1 := .none } } : State).th.gr g = s.th.gr g ∧
    ({ s with th := { s.th with lp0 := .none } } : State).th.gr g = s.th.gr g) ∧
  decodeWord 0x45600000 = .ok (.lexit ⟨true, false, false⟩)) ∧
  (∀ (t : Thread) (a : Word),
    (t.closeLoops a).regs = t.regs ∧
    (t.lp0.act = true → ¬ (t.loop0.1 ≤ a.toNat ∧ a.toNat ≤ t.loop0.2) →
      (t.closeLoops a).lp0.act = false ∧ (t.closeLoops a).lp1.act = false) ∧
    ((t.lp0.act = true → t.loop0.1 ≤ a.toNat ∧ a.toNat ≤ t.loop0.2) →
      (t.closeLoops a).lp0 = t.lp0 ∧
      ((t.lp1.act = true → t.loop1.1 ≤ a.toNat ∧ a.toNat ≤ t.loop1.2) → (t.closeLoops a).lp1 = t.lp1) ∧
      (t.lp1.act = true → ¬ (t.loop1.1 ≤ a.toNat ∧ a.toNat ≤ t.loop1.2) → (t.closeLoops a).lp1.act = false)))) ∧
  ((∀ t : Thread, t.lp1.act = false → t.lp0.act = false → t.loopStep = { t with pc := t.pc + 4 }) ∧
  (∀ t : Thread, t.lp1.act = true → t.pc.toNat = t.loop1.2 → 1 < (t.gr t.lp1.creg).toNat →
    t.loopStep = { (t.gw t.lp1.creg (t.gr t.lp1.creg - 1)) with pc := BitVec.ofNat 64 t.loop1.1 }) ∧
  (∀ t : Thread, t.lp1.act = true → t.pc.toNat = t.loop1.2 → (t.gr t.lp1.creg).toNat ≤ 1 → t.lp0.act = true →
    t.pc.toNat ≠ t.loop0.2 → t.loopStep = { (t.gw t.lp1.creg 0) with lp1 := .none, pc := t.pc + 4 }) ∧
  (∀ t : Thread, t.lp1.act = false → t.lp0.act = true → t.pc.toNat = t.loop0.2 → 1 < (t.gr t.lp0.creg).toNat →
    t.loopStep = { (t.gw t.lp0.creg (t.gr t.lp0.creg - 1)) with pc := BitVec.ofNat 64 t.loop0.1 }) ∧
  (∀ t : Thread, t.lp1.act = false → t.lp0.act = true → t.pc.toNat = t.loop0.2 → (t.gr t.lp0.creg).toNat ≤ 1 →
    t.loopStep = { (t.gw t.lp0.creg 0) with lp0 := .none, lp1 := .none, pc := t.pc + 4 }) ∧
  (∀ t : Thread, t.lp1.act = false → t.lp0.act = true → t.pc.toNat ≠ t.loop0.2 → t.loopStep = { t with pc := t.pc + 4 }) ∧
  (∀ t : Thread, t.lp1.act = true → t.lp0.act = true → t.pc.toNat ≠ t.loop1.2 → t.pc.toNat ≠ t.loop0.2 →
    t.loopStep = { t with pc := t.pc + 4 }) ∧
  (∀ t : Thread, t.lp1.act = true → t.pc.toNat = t.loop1.2 → (t.gr t.lp1.creg).toNat ≤ 1 → t.lp0.act = true →
    t.pc.toNat = t.loop0.2 → t.lp0.creg ≠ t.lp1.creg → 1 < (t.gr t.lp0.creg).toNat →
    t.loopStep = { ((t.gw t.lp1.creg 0).gw t.lp0.creg (t.gr t.lp0.creg - 1)) with
      lp1 := .none, pc := BitVec.ofNat 64 t.loop0.1 }))

/-- 09:R121-R123: YIELD is a suspension point and nothing else; SPAWN stores the record and queues it, one homed on another package once
that has answered, one that the larder holds once it is made (log 84), and traps on a misaligned record, save area or pc and on a record whose page or target refuses it; EXIT ends the
thread, in a gate call as its caller, and traps in a member of a compact. -/
def Obligations.ThreadInstructions : Prop :=
  (∀ (m : Mark) (s : State), Issues (.yield m) s → exec (.yield m) s = .next (s.passes s.th (.yield m))) ∧
  (∀ (m : Mark) (d a b : Reg) (p : BitVec 2) (s s' : State) (ps : List Piece), Issues (.spawn m d a b p) s →
    (s.th.gr a).toNat % 64 = 0 → (s.th.gr d).toNat % 1024 = 0 → (s.th.gr b).toNat % 4 = 0 →
    s.pieces s.th.acc .write (s.th.gr a) 64 = .ok (ps, s') → ps.findSome? (s'.refusal s.th.acc) = none →
    (s.mayRelease s.th = false → exec (.spawn m d a b p) s = .next (s.holding 2)) ∧
    (∀ q, ps.find? (s'.held s.th.acc) = some q → s.mayRelease s.th = true → s'.accessWaits s.th.acc ps = false →
      let mine := fun (x : (Nat × Word) × Word × Option Trap) => x.1 == s'.th.who && x.2.1 == s.th.gr a
      (∀ x, s'.st.pendSpawn.find? mine = some x →
        let v : State := { s' with st := { s'.st with pendSpawn := s'.st.pendSpawn.erase x } }
        (∀ y, x.2.2 = some y → exec (.spawn m d a b p) s = .next (v.clock.raise y s.th.faultPc)) ∧
        (x.2.2 = none →
          let e := v.enqueue ⟨dieOf s.th.tile, s.th.dom, p.toNat, s.th.gr a⟩
          NoStepBack (.spawn m d a b p) s e → exec (.spawn m d a b p) s = .next (e.retire s.th (.spawn m d a b p)))) ∧
      (s'.st.pendSpawn.find? mine = none →
        (s'.ms.larder.any (fun l => l.spawn && l.who == some s'.th.who && l.va == s.th.gr a) = true ∨ s'.larderFits s'.th.acc [q] = false →
          exec (.spawn m d a b p) s = .next (s'.holding 3)) ∧
        (s'.ms.larder.any (fun l => l.spawn && l.who == some s'.th.who && l.va == s.th.gr a) = false → s'.larderFits s'.th.acc [q] = true →
          ∃ (u : State) (x : LarderEntry), exec (.spawn m d a b p) s = .next (u.holding 3) ∧ u.ms.larder.getLast? = some x ∧ x.spawn = true ∧ x.va = q.va ∧
            x.pa = q.pa ∧ x.data = spawnRecord s.th (s.th.gr b) (s.th.gr d) p.toNat))) ∧
    (ps.find? (s'.held s.th.acc) = none → s.mayRelease s.th = true → s'.accessWaits s.th.acc ps = false → s'.storeBlock s.th.acc ps = none →
      (ps.find? (s'.postedPiece s.th.acc) = none →
        let e := (storePieces s.th.acc ps (spawnRecord s.th (s.th.gr b) (s.th.gr d) p.toNat) s').enqueue
          ⟨dieOf s.th.tile, s.th.dom, p.toNat, s.th.gr a⟩
        NoStepBack (.spawn m d a b p) s e → exec (.spawn m d a b p) s = .next (e.retire s.th (.spawn m d a b p))) ∧
      (∀ q h x, ps.find? (s'.postedPiece s.th.acc) = some q → s.pkgLive q.pkg = true →
        s.th.flow.heldReads.find? (fun h => h.pa == q.pa && h.n == 64) = some h → h.reply = some (.done, x) →
        let e := s'.enqueue ⟨dieOf s.th.tile, s.th.dom, p.toNat, s.th.gr a⟩
        NoStepBack (.spawn m d a b p) s e → exec (.spawn m d a b p) s = .next (e.retire s.th (.spawn m d a b p))))) ∧
  (∀ (m : Mark) (d a b : Reg) (p : BitVec 2) (s : State), Issues (.spawn m d a b p) s →
    ((s.th.gr a).toNat % 64 ≠ 0 → Traps (.spawn m d a b p) s ⟨.align, 0, s.th.gr a⟩) ∧
    ((s.th.gr a).toNat % 64 = 0 → (s.th.gr d).toNat % 1024 ≠ 0 →
      Traps (.spawn m d a b p) s ⟨.align, 0, s.th.gr d⟩) ∧
    ((s.th.gr a).toNat % 64 = 0 → (s.th.gr d).toNat % 1024 = 0 → (s.th.gr b).toNat % 4 ≠ 0 →
      Traps (.spawn m d a b p) s ⟨.align, 0, s.th.gr b⟩) ∧
    ((s.th.gr a).toNat % 64 = 0 → (s.th.gr d).toNat % 1024 = 0 → (s.th.gr b).toNat % 4 = 0 →
      (∀ x, s.pieces s.th.acc .write (s.th.gr a) 64 = .error x →
        Traps (.spawn m d a b p) s { x with tval := s.th.gr a }) ∧
      (∀ ps u x, s.pieces s.th.acc .write (s.th.gr a) 64 = .ok (ps, u) → ps.findSome? (u.refusal s.th.acc) = some x →
        Traps (.spawn m d a b p) s { x with tval := s.th.gr a }))) ∧
  (∀ (m : Mark) (s : State), Issues (.exit m) s → (∀ r, s.memberOf s.th.tid = some r → r.2.2.tid ≠ s.th.tid) →
    let t := s.th.callerBack.countEv 2 1
    exec (.exit m) s = .next (State.leaveNow (State.clock { s.freeGate s.th with th := { t with
      pc := t.pc + 4, lp0 := .none, lp1 := .none, flow := { t.flow with leave := 1, group := none, hold := 0 } } }))) ∧
  (∀ (m : Mark) (s : State) (b : Nat) (c : Compact) (x : Member), Issues (.exit m) s → s.memberOf s.th.tid = some (b, c, x) →
    x.tid = s.th.tid → Traps (.exit m) s ⟨.illstate, 0, s.th.pc⟩)

-- Loads and stores ------------------------------------------------------------------------------------------------------------

/-- 09:R125-R128, 03:R34: LD, LDX and LDA complete with their result outstanding, formed from the bytes of `loadPieces`, decoded by the
element format in force; a translation, protection or domain fault is taken precisely; a misaligned LDA takes the alignment trap, a
load into the count of a loop it ends the illegal-state trap; one whose budget is spent, or that an earlier access orders, holds, and
one whose bytes are read in turn holds for each. -/
def Obligations.LoadsComplete : Prop :=
  ∀ (i : Instr) (s : State) (ord : Bool) (d : Reg) (z : BitVec 3) (ea : Word), Issues i s →
    ((∃ m b o, i = .ld m d b z o ∧ ord = false ∧ ea = s.th.gr b + BitVec.ofNat 64 (szBytes z) * s.th.simm o.toNat 8) ∨
     (∃ m b x, i = .ldx m d b z x ∧ ord = false ∧ ea = s.th.gr b + BitVec.ofNat 64 (szBytes z) * s.th.gr x) ∨
     (∃ m b c o, i = .lda m d b z c o ∧ ord = true ∧ ea = s.th.gr b + BitVec.ofNat 64 (szBytes z) * s.th.simm o.toNat 5)) →
    (ord = true → ea.toNat % szBytes z ≠ 0 → Traps i s ⟨.align, 0, ea⟩) ∧
    ((ord = true → ea.toNat % szBytes z = 0) →
      (∀ x, s.pieces s.th.acc .read ea (szBytes z) ord = .error x → Traps i s x) ∧
      (∀ ps s', s.pieces s.th.acc .read ea (szBytes z) ord = .ok (ps, s') →
        (s.th.countsBy d = true → Traps i s ⟨.illstate, 0, s.th.pc⟩) ∧
        (s.th.countsBy d = false → s'.accessWaits s.th.acc ps = true → exec i s = .next (s'.holding 2))) ∧
      (∀ ps s' parts ft e, s.pieces s.th.acc .read ea (szBytes z) ord = .ok (ps, s') → s.th.countsBy d = false →
        s'.accessWaits s.th.acc ps = false →
        let res := fun (x : List Part) (y : Option Trap) =>
          (⟨d, [], .parts x (.scalar z.toNat (s.th.loadEf ((ps.head?.map (fun p => leafEf p.leaf)).getD 0))), y, loadOrd ord ps⟩ : Outst)
        (s'.inTurn ps = false → loadPieces s.th.acc ps s' = (parts, ft, none, e) →
          NoStepBack i s (e.await (res parts ft)) → exec i s = .next ((e.await (res parts ft)).retire s.th i)) ∧
        (s'.inTurn ps = true →
          (∀ bs u, s'.heldInTurn s.th.acc ps = .ok bs u → NoStepBack i s (u.await (res [.have bs] none)) →
            exec i s = .next ((u.await (res [.have bs] none)).retire s.th i)) ∧
          (∀ x, s'.heldInTurn s.th.acc ps = .trap x → NoStepBack i s (s'.await (res [.have []] (some x))) →
            exec i s = .next ((s'.await (res [.have []] (some x))).retire s.th i)) ∧
          (∀ u, s'.heldInTurn s.th.acc ps = .hold u → exec i s = .next (u.holding 2)))))

/-- 09:R125-R128: ST, STX and STREL complete with their bytes stored by `storePieces`, the low bytes of the register; STREL waits for
the thread's earlier loads and acknowledgements; a fault of a check is taken precisely and stores nothing; a store that one of its
targets refuses stores nothing and has its fault at the end of its run; one that a full larder or a forced seal stops holds. -/
def Obligations.StoresComplete : Prop :=
  ∀ (i : Instr) (s : State) (ord : Bool) (d : Reg) (z : BitVec 3) (ea : Word), Issues i s →
    ((∃ m b o, i = .st m d b z o ∧ ord = false ∧ ea = s.th.gr b + BitVec.ofNat 64 (szBytes z) * s.th.simm o.toNat 8) ∨
     (∃ m b x, i = .stx m d b z x ∧ ord = false ∧ ea = s.th.gr b + BitVec.ofNat 64 (szBytes z) * s.th.gr x) ∨
     (∃ m b c o, i = .strel m d b z c o ∧ ord = true ∧ ea = s.th.gr b + BitVec.ofNat 64 (szBytes z) * s.th.simm o.toNat 5)) →
    (ord = true → ea.toNat % szBytes z ≠ 0 → Traps i s ⟨.align, 0, ea⟩) ∧
    ((ord = true → ea.toNat % szBytes z = 0) →
      (∀ x, s.pieces s.th.acc .write ea (szBytes z) ord = .error x → Traps i s x) ∧
      (∀ ps s', s.pieces s.th.acc .write ea (szBytes z) ord = .ok (ps, s') → ord = true → s.mayRelease s.th = false →
        exec i s = .next (s.holding 2)) ∧
      (∀ ps s', s.pieces s.th.acc .write ea (szBytes z) ord = .ok (ps, s') → (ord = true → s.mayRelease s.th = true) →
        (∀ r, s'.irrFirst = some r → exec i s = s.finish i r) ∧
        (s'.irrFirst = none →
          (s'.accessWaits s.th.acc ps = true → exec i s = .next (s'.holding 2)) ∧
          (s'.accessWaits s.th.acc ps = false →
            (∀ u, s'.storeBlock s.th.acc ps = some u → exec i s = .next (u.holding 3)) ∧
            (s'.storeBlock s.th.acc ps = none →
              let e := match ps.findSome? (s'.refusal s.th.acc) with
                | some x => s'.refuseD s.th.tid x
                | none => (storePieces s.th.acc ps (leBytes (szBytes z) (s.th.gr d).toNat) s').asOne s.th.tid s'.fresh
              NoStepBack i s e → exec i s = .next (e.retire s.th i))))))

/-- 17:R237-R239, 09:R126, R129, 21:R265: a store of a piece to plain memory of the package that the larder does not hold (DRAM with no pin
on its line, whose tag, where the function is bound to a partition, nothing stops; or host memory; with no record waiting there), and a
store to a tile's SRAM with no record waiting there, change exactly their bytes: they read back as stored and every other address reads
as before; nothing of the thread but its counters changes. -/
def Obligations.StoreFrame : Prop :=
  (∀ (s : State) (a : Acc) (p : Piece) (bs : List Byte) (l : Nat), Canonical s → Sole s → s.th.tid = a.tid →
    p.pkg = s.me → s.held a p = false →
    ((regionOf p.off = .dram ∧ lineOf p.off = some l ∧ s.pinOfHome l = none ∧
      ∃ v, s.tagged a.dom l (s.storeRin a p) p.off (s.memberOf a.tid).isSome = .ok v) ∨
     (regionOf p.off = .host ∧ l = p.off / 192 * 192)) →
    (∀ w ∈ s.ms.waits, w.line ≠ l) →
    (s.storePiece a p bs).read p.off bs.length = bs ∧
    (∀ x, x < p.off ∨ p.off + bs.length ≤ x → (s.storePiece a p bs).read x 1 = s.read x 1) ∧
    (s.storePiece a p bs).th.regs = s.th.regs ∧ (s.storePiece a p bs).th.win = s.th.win ∧
    (s.storePiece a p bs).th.pc = s.th.pc ∧ (s.storePiece a p bs).th.fx = s.th.fx ∧
    (s.storePiece a p bs).th.guards = s.th.guards ∧ (s.storePiece a p bs).th.sb = s.th.sb ∧
    (s.storePiece a p bs).th.hb = s.th.hb ∧ (s.storePiece a p bs).th.mu = s.th.mu) ∧
  (∀ (s : State) (tile e : Nat) (bs : List Byte), Canonical s → bs ≠ [] →
    (∀ w ∈ s.ms.waits, w.line ≠ waitLine (sramAddr tile e) ∧ w.line ≠ waitLine (sramAddr tile (e + bs.length - 1))) →
    let u := s.tileStore tile e bs
    u.read (sramAddr tile e) bs.length = bs ∧
    (∀ x, x < sramAddr tile e ∨ sramAddr tile e + bs.length ≤ x → u.read x 1 = s.read x 1) ∧ u.th = s.th ∧ u.tiles = s.tiles)

/-- 09:R129-R130: LDL of scratch in range delivers its bytes at once and STL stores its; out of range LDL delivers zero, STL stores
nothing, and TS.OOB records the first such address; a bank of another domain takes the domain trap.
09:R129-R130: the domain fault of a local access, and the address TS.OOB keeps. -/
def Obligations.LocalAccesses : Prop :=
  ((∀ (m : Mark) (d b : Reg) (z : BitVec 3) (o : BitVec 8) (s : State), Issues (.ldl m d b z o) s →
    let ea := (s.th.gr b + BitVec.ofNat 64 (szBytes z) * s.th.simm o.toNat 8).toNat
    (s.localCheck s.th ea (szBytes z) ea = .ok → s.th.ordered 2 = false →
      let r := s.gw d (scalarValue z.toNat (s.th.loadEf 0) (s.localBytes s.th ea (szBytes z)))
      NoStepBack (.ldl m d b z o) s r → exec (.ldl m d b z o) s = .next (r.retire s.th (.ldl m d b z o))) ∧
    (Config.sramSize < ea + szBytes z →
      let r : State := { s with th := (s.th.gw d 0).outOfRange ea }
      NoStepBack (.ldl m d b z o) s r → exec (.ldl m d b z o) s = .next (r.retire s.th (.ldl m d b z o))) ∧
    (∀ x, s.localCheck s.th ea (szBytes z) ea = .trap x →
      Traps (.ldl m d b z o) s x)) ∧
  (∀ (m : Mark) (d b : Reg) (z : BitVec 3) (o : BitVec 8) (s : State), Issues (.stl m d b z o) s →
    let ea := (s.th.gr b + BitVec.ofNat 64 (szBytes z) * s.th.simm o.toNat 8).toNat
    (s.localCheck s.th ea (szBytes z) ea = .ok → s.matrixReads s.th ea (szBytes z) = true → exec (.stl m d b z o) s = .next (s.holding 1)) ∧
    (s.localCheck s.th ea (szBytes z) ea = .ok → s.matrixReads s.th ea (szBytes z) = false → s.th.ordered 2 = false →
      let r := s.tileStore s.th.tile ea (leBytes (szBytes z) (s.th.gr d).toNat)
      NoStepBack (.stl m d b z o) s r → exec (.stl m d b z o) s = .next (r.retire s.th (.stl m d b z o))) ∧
    (Config.sramSize < ea + szBytes z →
      let r : State := { s with th := s.th.outOfRange ea }
      NoStepBack (.stl m d b z o) s r → exec (.stl m d b z o) s = .next (r.retire s.th (.stl m d b z o))) ∧
    (∀ x, s.localCheck s.th ea (szBytes z) ea = .trap x →
      Traps (.stl m d b z o) s x))) ∧
  ((∀ (s : State) (t : Thread) (e n k : Nat), e + n ≤ Config.sramSize → k < 16 → e / Config.bankSize ≤ k → k ≤ (e + n - 1) / Config.bankSize →
    s.bankGranted t.tile t.dom k = false → s.localCheck t e n e = .trap ⟨.domain, 0, BitVec.ofNat 64 e⟩) ∧
  (∀ (s : State) (t : Thread) (e n : Nat), Config.sramSize < e + n → s.localCheck t e n e = .out) ∧
  (∀ (t : Thread) (e : Nat), t.oob = 0 → e < 2 ^ 63 → (t.outOfRange e).oob = BitVec.ofNat 64 (2 ^ 63 + e)) ∧
  (∀ (t : Thread) (e : Nat), t.oob.toNat / 2 ^ 63 % 2 = 1 → t.outOfRange e = t))

/-- 09:R131-R132: BMOV and BFILL complete when their count is zero and change nothing; else an issue makes one byte: BMOV's byte at gr(a), or
BFILL's low byte of gr(a), is stored at gr(d), the addresses go up and the count down by one, and the word issues again. A fault of the
byte's read, of its store, and of its target is precise, with the registers at that byte. -/
def Obligations.BlockMoves : Prop :=
  (∀ (m : Mark) (d a b : Reg) (s : State), s.th.gr b = 0 →
    (Issues (.bmov m d a b) s → NoStepBack (.bmov m d a b) s s → exec (.bmov m d a b) s = .next (s.retire s.th (.bmov m d a b))) ∧
    (Issues (.bfill m d a b) s → NoStepBack (.bfill m d a b) s s → exec (.bfill m d a b) s = .next (s.retire s.th (.bfill m d a b)))) ∧
  (∀ (m : Mark) (d a b : Reg) (s u v : State) (bs : List Byte) (ps : List Piece), Issues (.bmov m d a b) s → s.th.gr b ≠ 0 →
    s.ldHeld s.th.acc .read (s.th.gr a) 1 = .ok bs u → u.pieces u.th.acc .write (s.th.gr d) 1 = .ok (ps, v) →
    ps.findSome? (v.refusal u.th.acc) = none → v.irrFirst = none → v.accessWaits u.th.acc ps = false →
    v.storeBlock u.th.acc ps = none →
    let e := (storePieces u.th.acc ps [bs.headD 0] v).asOne u.th.tid v.fresh
    let t := ((e.th.gw a (s.th.gr a + 1)).gw d (s.th.gr d + 1)).gw b (s.th.gr b - 1)
    exec (.bmov m d a b) s = .next (State.clock { e with th := { t with flow := { t.flow with hold := 0, heldReads := [] } } })) ∧
  (∀ (m : Mark) (d a b : Reg) (s v : State) (ps : List Piece), Issues (.bfill m d a b) s → s.th.gr b ≠ 0 →
    s.pieces s.th.acc .write (s.th.gr d) 1 = .ok (ps, v) →
    ps.findSome? (v.refusal s.th.acc) = none → v.irrFirst = none → v.accessWaits s.th.acc ps = false →
    v.storeBlock s.th.acc ps = none →
    let e := (storePieces s.th.acc ps [(s.th.gr a).setWidth 8] v).asOne s.th.tid v.fresh
    let t := (e.th.gw d (s.th.gr d + 1)).gw b (s.th.gr b - 1)
    exec (.bfill m d a b) s = .next (State.clock { e with th := { t with flow := { t.flow with hold := 0, heldReads := [] } } })) ∧
  (∀ (m : Mark) (d a b : Reg) (s : State) (x : Trap), s.th.gr b ≠ 0 →
    (Issues (.bmov m d a b) s → s.ldHeld s.th.acc .read (s.th.gr a) 1 = .trap x →
      Traps (.bmov m d a b) s x) ∧
    (Issues (.bmov m d a b) s → ∀ bs u, s.ldHeld s.th.acc .read (s.th.gr a) 1 = .ok bs u →
      (u.pieces u.th.acc .write (s.th.gr d) 1 = .error x ∨
        ∃ ps v, u.pieces u.th.acc .write (s.th.gr d) 1 = .ok (ps, v) ∧ ps.findSome? (v.refusal u.th.acc) = some x) →
      Traps (.bmov m d a b) s x) ∧
    (Issues (.bfill m d a b) s →
      (s.pieces s.th.acc .write (s.th.gr d) 1 = .error x ∨
        ∃ ps v, s.pieces s.th.acc .write (s.th.gr d) 1 = .ok (ps, v) ∧ ps.findSome? (v.refusal s.th.acc) = some x) →
      Traps (.bfill m d a b) s x))

/-- 03:R34: at the park a scalar result goes to its register as the size code and element format say, with no other register
touched; a fixed-latency write later in the run keeps its value.
07:R75, 09:R127: of a raw page a scalar load zero-extends sizes 0 to 3 and sign-extends sizes 4 to 6. -/
def Obligations.ScalarLoadResults : Prop :=
  ((∀ (s : State) (d g : Reg) (sz ef o : Nat) (bs : List Byte),
    s.th.flow.outs = [⟨d, [], .parts [.have bs] (.scalar sz ef), none, o⟩] →
    (d ≠ 0 → s.settle.2.th.raw d = scalarValue sz ef bs) ∧ (g ≠ d → s.settle.2.th.raw g = s.th.raw g) ∧
    s.settle.2.th.flow.outs = [] ∧ s.settle.1 = [] ∧ s.settle.2.ms = s.ms) ∧
  (∀ (s : State) (d : Reg) (x : Word), d ≠ 0 → (State.settle { s with th := s.th.gw d x }).2.th.raw d = x)) ∧
  ((∀ x : Byte, scalarValue 0 0 [x] = x.setWidth 64) ∧ (∀ x : Byte, scalarValue 4 0 [x] = x.signExtend 64) ∧
  (∀ x y : Byte, scalarValue 1 0 [x, y] = (y ++ x : BitVec 16).setWidth 64) ∧
  (∀ x y : Byte, scalarValue 5 0 [x, y] = (y ++ x : BitVec 16).signExtend 64) ∧
  (∀ x y z w : Byte, scalarValue 2 0 [x, y, z, w] = (w ++ z ++ y ++ x : BitVec 32).setWidth 64) ∧
  (∀ x y z w : Byte, scalarValue 6 0 [x, y, z, w] = (w ++ z ++ y ++ x : BitVec 32).signExtend 64) ∧
  (∀ x : Word, scalarValue 3 0 (leBytes 8 x.toNat) = x))

-- Atomics -----------------------------------------------------------------------------------------------------------------------

/-- 13:R168-R169, 19:R253: AADD, AAND, AOR, AXOR, ASWP, AMIN, AMAX, ACAS and AFADD. An aligned atomic whose checks pass completes: on this
package's memory the value of `AOp.eval` is stored and the old one is an outstanding result when a register is named, for AFADD and
for an acquire always; one that its target refuses has its fault at the end of its run; one on another package's memory is sent there. A
misaligned one and one that a check refuses trap; a release waits. On a line of DRAM with no pin and no waiter, whose tag nothing stops,
the atomic reads the old bytes and writes the new ones, and no other byte. What is stored, on 8 and on 4 bytes. -/
def Obligations.AtomicsComplete : Prop :=
  (∀ (i : Instr) (s : State) (f : AOp) (n : Nat) (sg : Bool) (d a b : Reg) (o : BitVec 2), Issues i s →
    ((∃ m x w, i = .aadd m d a b o x w ∧ f = .add ∧ n = (if w = 1 then 4 else 8) ∧ sg = false) ∨
     (∃ m x w, i = .aand m d a b o x w ∧ f = .and ∧ n = (if w = 1 then 4 else 8) ∧ sg = false) ∨
     (∃ m x w, i = .aor m d a b o x w ∧ f = .or ∧ n = (if w = 1 then 4 else 8) ∧ sg = false) ∨
     (∃ m x w, i = .axor m d a b o x w ∧ f = .xor ∧ n = (if w = 1 then 4 else 8) ∧ sg = false) ∨
     (∃ m x w, i = .aswp m d a b o x w ∧ f = .swp ∧ n = (if w = 1 then 4 else 8) ∧ sg = false) ∨
     (∃ m x w u, i = .amin m d a b o x w u ∧ f = .min (u == 1) ∧ n = (if w = 1 then 4 else 8) ∧ sg = (u == 0)) ∨
     (∃ m x w u, i = .amax m d a b o x w u ∧ f = .max (u == 1) ∧ n = (if w = 1 then 4 else 8) ∧ sg = (u == 0)) ∨
     (∃ m x w, i = .acas m d a b o x w ∧ f = .cas ∧ n = (if w = 1 then 4 else 8) ∧ sg = false) ∨
     (∃ m x, i = .afadd m d a b o x ∧ f = .fadd ∧ n = 4 ∧ sg = false)) →
    ((s.th.gr a).toNat % n ≠ 0 → Traps i s ⟨.align, 0, s.th.gr a⟩) ∧
    ((s.th.gr a).toNat % n = 0 →
      (∀ x, s.atomicPieces s.th.acc (s.th.gr a) n false = .error x → Traps i s x) ∧
      (∀ ps u, s.atomicPieces s.th.acc (s.th.gr a) n false = .ok (ps, u) → s.th.countsBy d = false →
        bitOf o.toNat 1 = true → s.mayRelease s.th = false → exec i s = .next (s.holding 2)) ∧
      (∀ p u, s.atomicPieces s.th.acc (s.th.gr a) n false = .ok ([p], u) → s.th.countsBy d = false →
        (bitOf o.toNat 1 = true → s.mayRelease s.th = true) → u.accessWaits s.th.acc [p] = false → u.storeBlock s.th.acc [p] = none →
        let y := (s.th.gr b).toNat % 2 ^ (8 * n)
        let c := (s.th.gr d).toNat % 2 ^ (8 * n)
        let acq := bitOf o.toNat 0
        let fix : Fix := if f = .fadd then .afadd y else .old n sg
        (p.pkg = u.me → u.refusal s.th.acc p = none →
          ∃ old e, u.atomicPiece s.th.acc p (fun v => f.eval n v y c) = .ok (old, e) ∧
            let r := if d ≠ 0 ∨ f = .fadd ∨ acq = true then e.await ⟨d, [], .parts [.have old] fix, none, loadOrd acq [p]⟩ else e
            (NoStepBack i s r → exec i s = .next (r.retire s.th i))) ∧
        (∀ x, p.pkg = u.me → u.refusal s.th.acc p = some x → NoStepBack i s (u.refuseD s.th.tid x) →
          exec i s = .next ((u.refuseD s.th.tid x).retire s.th i)) ∧
        (p.pkg ≠ u.me → u.pinOfFar p.pa = none → u.pkgLive p.pkg = true → (d ≠ 0 ∨ f = .fadd ∨ acq = true) →
          let e := (u.request s.th.acc (.acc .atomic) p (f.payload n y c)).2
          let r := e.await ⟨d, [], .parts [.wait u.fresh 0 n (s.th.gr a) p.pa] fix, none, loadOrd acq [p]⟩
          NoStepBack i s r → exec i s = .next (r.retire s.th i)) ∧
        (p.pkg ≠ u.me → u.pinOfFar p.pa = none → u.pkgLive p.pkg = true → d = 0 → f ≠ .fadd → acq = false →
          let v := (u.request s.th.acc (.acc .atomic) p (f.payload n y c)).2
          let r := v.posts { Posted.of u.fresh s.th.tid (s.th.gr a) p.pa (p.oc == 1) ((v.nodeOf s.th.dom).getD 0) with atom := true }
          NoStepBack i s r → exec i s = .next (r.retire s.th i))))) ∧
  (∀ (s e : State) (a : Acc) (p : Piece) (f : Nat → Option Nat) (l : Nat) (old : List Byte), p.pkg = s.me → regionOf p.off = .dram →
    lineOf p.off = some l → s.pinOfHome l = none → (∀ w ∈ s.ms.waits, w.line ≠ l) →
    (∃ v, s.tagged a.dom l (s.storeRin a p) p.off ((s.memberOf a.tid).isSome || a.who.isNone) = .ok v) → s.atomicPiece a p f = .ok (old, e) →
    old = s.read p.off p.n ∧ e.ms.mem = match f (leNat old) with
      | some x => writeBytes s.ms.mem p.off (leBytes p.n x)
      | none => s.ms.mem) ∧
  ((∀ x y c : Word,
    AOp.eval .add 8 x.toNat y.toNat c.toNat = some (x + y).toNat ∧ AOp.eval .and 8 x.toNat y.toNat c.toNat = some (x &&& y).toNat ∧
    AOp.eval .or 8 x.toNat y.toNat c.toNat = some (x ||| y).toNat ∧ AOp.eval .xor 8 x.toNat y.toNat c.toNat = some (x ^^^ y).toNat ∧
    AOp.eval .swp 8 x.toNat y.toNat c.toNat = some y.toNat ∧
    AOp.eval (.min false) 8 x.toNat y.toNat c.toNat = some (if x.slt y then x else y).toNat ∧
    AOp.eval (.max false) 8 x.toNat y.toNat c.toNat = some (if x.slt y then y else x).toNat ∧
    AOp.eval (.min true) 8 x.toNat y.toNat c.toNat = some (if x.ult y then x else y).toNat ∧
    AOp.eval (.max true) 8 x.toNat y.toNat c.toNat = some (if x.ult y then y else x).toNat ∧
    AOp.eval .cas 8 x.toNat y.toNat c.toNat = if x = c then some y.toNat else none) ∧
  (∀ x y c : BitVec 32,
    AOp.eval .add 4 x.toNat y.toNat c.toNat = some (x + y).toNat ∧
    AOp.eval (.min false) 4 x.toNat y.toNat c.toNat = some (if x.slt y then x else y).toNat ∧
    AOp.eval (.max false) 4 x.toNat y.toNat c.toNat = some (if x.slt y then y else x).toNat))

/-- 13:R170-R171, 27:R313: FST and FBLK whose checks pass, and which nothing stops or holds, make their data stores and then their flag
increment, as `flagged` says, and complete; a check that fails is their trap; a misaligned datum of FST, and a misaligned flag of either,
takes the alignment trap, a count over 0x100000 the illegal-state trap, before every other check of FBLK. -/
def Obligations.FlaggedStores : Prop :=
  (∀ (m : Mark) (d a b : Reg) (z : BitVec 2) (s u : State) (ps qs : List Piece), Issues (.fst m d a b z) s →
    (s.th.gr a).toNat % 2 ^ z.toNat = 0 → (s.th.gr b).toNat % 8 = 0 →
    s.flagChecks (s.th.gr a) (2 ^ z.toNat) (s.th.gr b) = .ok (ps, qs, u) → u.irrFirst = none →
    (u.accessWaits u.th.acc (ps ++ qs) = true → exec (.fst m d a b z) s = .next (u.holding 2)) ∧
    (u.accessWaits u.th.acc (ps ++ qs) = false → u.storeBlock u.th.acc (ps ++ qs) = none →
      ∃ e, u.flagged ps qs (leBytes (2 ^ z.toNat) (s.th.gr d).toNat) = .ok e ∧
        (NoStepBack (.fst m d a b z) s e → exec (.fst m d a b z) s = .next (e.retire s.th (.fst m d a b z))))) ∧
  (∀ (m : Mark) (d a b : Reg) (z : BitVec 2) (s : State), Issues (.fst m d a b z) s →
    ((s.th.gr a).toNat % 2 ^ z.toNat ≠ 0 → Traps (.fst m d a b z) s ⟨.align, 0, s.th.gr a⟩) ∧
    ((s.th.gr a).toNat % 2 ^ z.toNat = 0 → (s.th.gr b).toNat % 8 ≠ 0 →
      Traps (.fst m d a b z) s ⟨.align, 0, s.th.gr b⟩)) ∧
  (∀ (m : Mark) (d a b : Reg) (z : BitVec 2) (s : State) (x : Trap), Issues (.fst m d a b z) s →
    (s.th.gr a).toNat % 2 ^ z.toNat = 0 → (s.th.gr b).toNat % 8 = 0 →
    s.flagChecks (s.th.gr a) (2 ^ z.toNat) (s.th.gr b) = .error x → Traps (.fst m d a b z) s x) ∧
  (∀ (m : Mark) (d a b : Reg) (s s' u : State) (ps qs : List Piece) (bs : List Byte), Issues (.fblk m d a b) s →
    (s.th.gr (b + 1)).toNat ≤ 0x100000 → (s.th.gr b).toNat % 8 = 0 →
    s.flagChecks (s.th.gr d) (s.th.gr (b + 1)).toNat (s.th.gr b) (some (s.th.gr a)) = .ok (ps, qs, s') →
    s'.ldHeld s.th.acc .read (s.th.gr a) (s.th.gr (b + 1)).toNat = .ok bs u → u.irrFirst = none →
    (u.accessWaits u.th.acc (ps ++ qs) = true → exec (.fblk m d a b) s = .next (u.holding 2)) ∧
    (u.accessWaits u.th.acc (ps ++ qs) = false → u.storeBlock u.th.acc (ps ++ qs) = none →
      ∃ e, u.flagged ps qs bs true = .ok e ∧
        (NoStepBack (.fblk m d a b) s e → exec (.fblk m d a b) s = .next (e.retire s.th (.fblk m d a b))))) ∧
  (∀ (m : Mark) (d a b : Reg) (s : State), Issues (.fblk m d a b) s → 0x100000 < (s.th.gr (b + 1)).toNat →
    Traps (.fblk m d a b) s ⟨.illstate, 0, s.th.gr (b + 1)⟩) ∧
  (∀ (m : Mark) (d a b : Reg) (s : State), Issues (.fblk m d a b) s → (s.th.gr (b + 1)).toNat ≤ 0x100000 →
    ((s.th.gr b).toNat % 8 ≠ 0 → Traps (.fblk m d a b) s ⟨.align, 0, s.th.gr b⟩) ∧
    ((s.th.gr b).toNat % 8 = 0 → ∀ x,
      (s.flagChecks (s.th.gr d) (s.th.gr (b + 1)).toNat (s.th.gr b) (some (s.th.gr a)) = .error x → Traps (.fblk m d a b) s x) ∧
      (∀ ps qs s', s.flagChecks (s.th.gr d) (s.th.gr (b + 1)).toNat (s.th.gr b) (some (s.th.gr a)) = .ok (ps, qs, s') →
        s'.ldHeld s.th.acc .read (s.th.gr a) (s.th.gr (b + 1)).toNat = .trap x → Traps (.fblk m d a b) s x)))

/-- 13:R172: FENCE and LBFENCE complete once what they order is there, with no effect; until then they hold the slot. An acquire waits
for the thread's loads and atomics, the other kinds also for its acknowledgements, LBFENCE for its deferred reads on its tile. -/
def Obligations.Fences : Prop :=
  (∀ (m : Mark) (k : BitVec 5) (c : BitVec 3) (s : State), Issues (.fence m k c) s → NoStepBack (.fence m k c) s s →
    (if k = 1 then s.th.loadsDone && !s.pl.posted.any (fun p => p.tid == s.th.tid && p.atom) else s.mayRelease s.th) = true →
    exec (.fence m k c) s = .next (s.retire s.th (.fence m k c))) ∧
  (∀ (m : Mark) (k : BitVec 5) (c : BitVec 3) (s : State), Issues (.fence m k c) s →
    (if k = 1 then s.th.loadsDone && !s.pl.posted.any (fun p => p.tid == s.th.tid && p.atom) else s.mayRelease s.th) = false → exec (.fence m k c) s = .next (s.holding 2)) ∧
  (∀ (m : Mark) (s : State), Issues (.lbfence m) s → NoStepBack (.lbfence m) s s → s.localReads s.th = false →
    exec (.lbfence m) s = .next (s.retire s.th (.lbfence m))) ∧
  (∀ (m : Mark) (s : State), Issues (.lbfence m) s → s.localReads s.th = true → exec (.lbfence m) s = .next (s.holding 2))

-- Exceptions ------------------------------------------------------------------------------------------------------------------------

/-- 15:R207: taking an exception. The bank of the handling mode saves the restart point, the mode, the open-packet bit, the cause and
its value; the mode is the handling mode, the pc its vector; the other bank and every general register stay.
03:R35, 07:R88: a synchronous fault of a thread with no outstanding results is taken at once with the chain, group and bypass
discarded. -/
def Obligations.TakingAnException : Prop :=
  (∀ (s : State) (x y : Trap) (m : Priv) (epc : Word), Sole s → s.redirect s.th x = .ok (y, m) →
    ∃ u, (s.enterTrap x epc).thread? s.th.tid = some u ∧ u.pc = s.tvec m s.th.dom ∧ u.priv = m ∧
      (u.bank m).epc = epc ∧ (u.bank m).tval = y.tval ∧
      (u.bank m).cause = pack [(y.sub, 8), (y.cause.code, 0)] ∧
      (u.bank m).estat = pack [(b2n s.th.flow.packet.isSome, 3), (1, 2), (s.th.priv.code, 0)] ∧
      (u.bank m).scr = (s.th.bank m).scr ∧ (m = .h → u.sb = s.th.sb) ∧ (m ≠ .h → u.hb = s.th.hb) ∧
      u.regs = s.th.regs ∧ u.win = s.th.win ∧ u.fx = s.th.fx ∧ u.lp0 = s.th.lp0 ∧ u.lp1 = s.th.lp1 ∧
      u.flow.packet = none ∧ u.flow.bypass = [] ∧ u.flow.chain = none ∧ u.flow.group = none ∧ (s.enterTrap x epc).ms = s.ms) ∧
  (∀ (s : State) (x : Trap) (epc : Word), s.th.flow.outs = [] →
    ∃ u : State, s.raise x epc = u.enterTrap x epc ∧ u.th.regs = s.th.regs ∧ u.th.priv = s.th.priv ∧ u.th.hb = s.th.hb ∧
      u.th.sb = s.th.sb ∧ u.th.flow.bypass = [] ∧ u.th.flow.chain = none ∧ u.th.flow.group = none ∧ u.ms = s.ms ∧ u.th.dom = s.th.dom)

/-- 15:R207, 27:R311: where a cause goes. With the bank free and a vector set, to its handling mode; a busy S bank or an absent S vector
sends a DOUBLE or a NOVEC to H with the cause or the value of the first. -/
def Obligations.TrapRedirection : Prop :=
  (∀ (s : State) (t : Thread) (x : Trap), t.busy (x.cause.target t.priv) = false → s.tvec (x.cause.target t.priv) t.dom ≠ 0 →
    s.redirect t x = .ok (x, x.cause.target t.priv)) ∧
  (∀ (s : State) (t : Thread) (x : Trap), x.cause.target t.priv = .s → t.busy .s = true → t.busy .h = false → s.tvec .h t.dom ≠ 0 →
    s.redirect t x = .ok (⟨.double, 0, BitVec.ofNat 64 x.cause.code⟩, .h)) ∧
  (∀ (s : State) (t : Thread) (x : Trap), x.cause.target t.priv = .s → t.busy .s = false → s.tvec .s t.dom = 0 → t.busy .h = false →
    s.tvec .h t.dom ≠ 0 → s.redirect t x = .ok (⟨.novec, 0, x.tval⟩, .h)) ∧
  (∀ (s : State) (t : Thread) (x : Trap), x.cause.target t.priv = .h → t.busy .h = true → s.redirect t x = .error 19)

/-- 07:R79, R88: every encoded instruction whose form needs a higher privilege than the thread has, and which its group and chain
admit, takes the privilege trap with TS.TVAL its word. -/
def Obligations.PrivilegeTraps : Prop :=
  ∀ (i : Instr) (s : State), i.isWord = true → (formOf i).major < 0x70 → groupError (formOf i) s.th.hints 0 = none →
    s.th.transientBad i = false → privRank s.th.priv < privRank (formOf i).priv →
    Traps i s ⟨.priv, 0, BitVec.ofNat 64 (wordOf i)⟩

/-- 15:R203, R208-R209: TRAP and SVC take their exceptions, SVC with its restart point after it, and in H mode the illegal-state trap; ERET returns to the pc and the mode of
its bank and traps on a saved mode above its own, on the reserved mode, and on a misaligned pc.
15:R203: HALT below H mode takes the privilege trap (`PrivilegeTraps`); in H mode the spec gives it no effect, and the machine
refuses it by name. -/
def Obligations.SystemCallsAndReturns : Prop :=
  ((Cause.target .swtrap .u = .s ∧ Cause.target .swtrap .s = .s ∧ Cause.target .swtrap .h = .h ∧ Cause.target .svc .u = .s ∧
    Cause.target .svc .s = .h) ∧
  (∀ t : Thread, t.flow.chain = none → t.faultPc = match t.flow.group with | some g => g.start | none => t.pc) ∧
  (∀ (m : Mark) (n : BitVec 15) (s : State), Issues (.trap m n) s →
    Traps (.trap m n) s ⟨.swtrap, 0, n.setWidth 64⟩) ∧
  (∀ (m : Mark) (n : BitVec 15) (s : State), Issues (.svc m n) s → s.th.priv ≠ .h →
    exec (.svc m n) s = .next ((State.clock { s with th := s.th.past.countEv 2 1 }).raise ⟨.svc, 0, n.setWidth 64⟩ (s.th.pc + 4))) ∧
  (∀ t : Thread, t.past.regs = t.regs ∧ t.past.pc = t.pc ∧ t.past.priv = t.priv ∧ t.past.sb = t.sb ∧ t.past.hb = t.hb) ∧
  (∀ (m : Mark) (n : BitVec 15) (s : State), Issues (.svc m n) s → s.th.priv = .h →
    Traps (.svc m n) s ⟨.illstate, 0, s.th.pc⟩) ∧
  (∀ (m : Mark) (s : State), Issues (.eret m) s → (s.th.bank s.th.priv).estat.toNat % 4 ≠ 3 →
    (s.th.bank s.th.priv).estat.toNat % 4 ≤ privRank s.th.priv → (s.th.bank s.th.priv).epc.toNat % 4 = 0 →
    let p := (s.th.bank s.th.priv).estat.toNat % 4
    let t := s.th.setBank s.th.priv { s.th.bank s.th.priv with
      estat := pack [((s.th.bank s.th.priv).estat.toNat / 8 % 2, 3), (p, 0)] }
    exec (.eret m) s = .next (State.retireJump { s with th := { t with priv := if p = 0 then .u else if p = 1 then .s else .h } } s.th
      (.eret m) .call (s.th.bank s.th.priv).epc)) ∧
  (∀ (m : Mark) (s : State), Issues (.eret m) s →
    ((s.th.bank s.th.priv).estat.toNat % 4 = 3 ∨ privRank s.th.priv < (s.th.bank s.th.priv).estat.toNat % 4) →
    Traps (.eret m) s ⟨.illstate, 0, (s.th.bank s.th.priv).estat⟩) ∧
  (∀ (m : Mark) (s : State), Issues (.eret m) s → (s.th.bank s.th.priv).estat.toNat % 4 ≠ 3 →
    (s.th.bank s.th.priv).estat.toNat % 4 ≤ privRank s.th.priv → (s.th.bank s.th.priv).epc.toNat % 4 ≠ 0 →
    Traps (.eret m) s ⟨.align, 0, (s.th.bank s.th.priv).epc⟩)) ∧
  (∀ (m : Mark) (s : State), Issues (.halt m) s → exec (.halt m) s = .refused .haltUnstated)

-- Compacts, waits, packets, guards ---------------------------------------------------------------------------------------------

/-- 03:R36-R46: SYNC of a member records its vote with its guard pending and waits; EXCH marks its exchange done and puts its plan's
entries in flight, and a second one of a superstep, or one before the first superstep, takes the illegal-state trap; DISSOLVE arrives and holds, and completes once all have; a thread that is no member, and a DISSOLVE that is not the first
after a SYNC, takes the illegal-state trap.
03:R36-R39, 27:R313: SIGN reads the record, finds its own member, reads its plan and tables, and, when `signChecks` admits it, asks for
the pins of the lines homed on other packages, and with those completes with the compact signed; a check that fails is its trap, the
illegal state that is left after the pins; a record address that is no multiple of 64 takes the alignment trap. -/
def Obligations.Compacts : Prop :=
  ((∀ (m : Mark) (q : BitVec 3) (a b : Reg) (s : State) (bar : Nat) (c : Compact) (mb : Member), Issues (.sync m q a b) s →
    s.memberThread s.th = some (bar, c, mb) →
    (s.th.gst q.toNat = .pend → mb.vote.map (·.2.2) ≠ some (s.th.resultTag q.toNat) →
      exec (.sync m q a b) s = .next (s.waits .waiting)) ∧
    ((s.th.gst q.toNat ≠ .pend ∨ mb.vote.map (·.2.2) = some (s.th.resultTag q.toNat)) →
      let kind := b.toNat + (if c.clk && (s.gangOf bar).any (·.flow.preempt != 0) then 4 else 0) +
        (if c.clk && (s.rgs c.node).sealing then 8 else 0)
      let c1 := c.setMember { mb with vote := some ((s.th.gr a).toNat % 4, kind, s.th.resultTag q.toNat), told := false }
      let u : State := { s with th := s.th.setGuard q.toNat .pend }
      exec (.sync m q a b) s =
        .next (State.waits (if c1.members.any (·.dissolving) then u.failCompact bar c1 2 else u.setCompact bar c1) .sync))) ∧
  (∀ (m : Mark) (s : State) (bar : Nat) (c : Compact) (mb : Member), Issues (.exch m) s →
    s.memberThread s.th = some (bar, c, mb) → mb.exchDone = false → c.superstep ≠ 0 →
    let c1 := c.setMember { mb with exchDone := true }
    let e := s.setCompact bar { c1 with fly := c1.fly ++ mb.plan.getD mb.variant [] }
    NoStepBack (.exch m) s e → exec (.exch m) s = .next (e.retire s.th (.exch m))) ∧
  (∀ (m : Mark) (s : State) (bar : Nat) (c : Compact) (mb : Member), Issues (.exch m) s →
    s.memberThread s.th = some (bar, c, mb) → (mb.exchDone = true ∨ c.superstep = 0) →
    Traps (.exch m) s ⟨.illstate, 0, s.th.pc⟩) ∧
  (∀ (m : Mark) (s : State) (bar : Nat) (c : Compact) (mb : Member), Issues (.dissolve m) s → s.th.flow.ddone = false →
    s.memberThread s.th = some (bar, c, mb) → mb.dissolving = false → s.th.flow.synced = true →
    let late := c.members.any (·.vote.isSome)
    let c1 := c.setMember { mb with dissolving := true }
    let u := s.tellMembers bar c1 0 16
    exec (.dissolve m) s = .next (State.holding (if late then u.failCompact bar c1 2 else u.setCompact bar c1) 4)) ∧
  (∀ (m : Mark) (s : State) (bar : Nat) (c : Compact) (mb : Member), Issues (.dissolve m) s → s.th.flow.ddone = false →
    s.memberThread s.th = some (bar, c, mb) →
    (mb.dissolving = true → exec (.dissolve m) s = .next (s.holding 4)) ∧
    (mb.dissolving = false → s.th.flow.synced = false →
      Traps (.dissolve m) s ⟨.illstate, 0, s.th.pc⟩)) ∧
  (∀ (m : Mark) (s : State), Issues (.dissolve m) s → s.th.flow.ddone = true →
    let e : State := { s with th := { s.th with flow := { s.th.flow with ddone := false } } }
    NoStepBack (.dissolve m) s e → exec (.dissolve m) s = .next (e.retire s.th (.dissolve m))) ∧
  (∀ (m : Mark) (q : BitVec 3) (a b : Reg) (s : State), s.memberThread s.th = none → s.th.flow.ddone = false →
    (Issues (.sync m q a b) s → Traps (.sync m q a b) s ⟨.illstate, 0, s.th.pc⟩) ∧
    (Issues (.exch m) s → Traps (.exch m) s ⟨.illstate, 0, s.th.pc⟩) ∧
    (Issues (.dissolve m) s → Traps (.dissolve m) s ⟨.illstate, 0, s.th.pc⟩))) ∧
  ((∀ (m : Mark) (a : Reg) (s s1 s2 s3 s4 s5 : State) (h bs ph tb : List Byte) (i : Nat) (g : Machine.Signing), Issues (.sign m a) s →
    (s.th.gr a).toNat % 64 = 0 → s.th.pinsPending = false →
    s.ldAll s.th.acc [(s.th.gr a, 64)] = .ok h s1 →
    s1.ldAll s.th.acc [(s.th.gr a, 64 + 288 * Nat.min (bits (wordAt h 0) 15 0) 24576)] = .ok bs s2 →
    (List.range (Nat.min (bits (wordAt h 0) 15 0) 24576)).find? (fun i =>
      match s2.coordOf (bits (wordAt bs 0) 25 16) (bits (wordAt (memberBytes bs i) 0) 14 0) with
      | some (k, p, x) => k ≤ 1 && p == s2.me && x == s.th.tile
      | none => false) = some i →
    let plan := BitVec.ofNat 64 (wordAt (memberBytes bs i) 1)
    s2.ldAll s.th.acc [(plan, 64)] = .ok ph s3 →
    s3.ldAll s.th.acc (match planCounts ph with
      | some ns => (List.range ns.length).map (fun v => (plan + BitVec.ofNat 64 (64 + 8192 * v), 32 * ns.getD v 0))
      | none => []) = .ok tb s4 →
    (∀ x, s4.signChecks s.th (s.th.gr a) bs (ph ++ tb) = .error x → s4.th.flow.heldReads.any (·.n == 0) = false →
      Traps (.sign m a) s x) ∧
    (s4.signChecks s.th (s.th.gr a) bs (ph ++ tb) = .ok (g, s5) →
    let far := g.lines.filter (fun l => l.piece.pkg != s5.me && regionOf l.piece.off == .dram && s5.pkgLive l.piece.pkg)
    (far.any (fun l => (s5.th.pinAsked l).isNone) = true → exec (.sign m a) s = .next ((s5.askPins g.bar far).holding 2)) ∧
    ((∀ l ∈ far, ∃ r x, s5.th.pinAsked l = some r ∧ r.reply = some (.done, x)) →
      (∀ x, g.ill = some x → s5.th.flow.heldReads.any (·.n == 0) = false → Traps (.sign m a) s x) ∧
      (g.ill = none →
        let fb := far.flatMap (fun l => ((((s5.th.pinAsked l).bind (·.reply)).map (·.2)).getD []).take 192)
        NoStepBack (.sign m a) s (s5.signed s5.th (s.th.gr a) g fb) →
        exec (.sign m a) s = .next ((s5.signed s5.th (s.th.gr a) g fb).retire s.th (.sign m a)))))) ∧
  (∀ (m : Mark) (a : Reg) (s : State), Issues (.sign m a) s → (s.th.gr a).toNat % 64 ≠ 0 →
    Traps (.sign m a) s ⟨.align, 0, s.th.gr a⟩))

/-- 13:R177-R179: GBAR of a gang member arrives and waits, of a lone thread, and of one whose barrier has completed, it is only a
suspension point; WAITA completes when its word meets the condition, as a suspension point unless it has waited, and else waits with its word
named; WAKE queues the records that wait on its line, or asks the line's package to; misaligned words trap.
13:R178: a line's wake queues every record of this package, of a bound function, that waits on it and leaves no waiter of the line; other
lines keep theirs. -/
def Obligations.WaitsAndWakes : Prop :=
  ((∀ (m : Mark) (s : State), Issues (.gbar m) s → s.th.flow.gdone = true →
    exec (.gbar m) s = .next (State.passes { s with th := { s.th with flow := { s.th.flow with gdone := false } } } s.th (.gbar m))) ∧
  (∀ (m : Mark) (s : State), Issues (.gbar m) s → s.th.flow.gdone = false → s.th.info.kind = 1 →
    exec (.gbar m) s = .next (State.waits { s with th := { s.th with flow := { s.th.flow with gba := true } } } .gbar)) ∧
  (∀ (m : Mark) (s : State), Issues (.gbar m) s → s.th.flow.gdone = false → s.th.info.kind ≠ 1 → exec (.gbar m) s = .next (s.passes s.th (.gbar m))) ∧
  (∀ (m : Mark) (a b : Reg) (c : BitVec 5) (s s' s'' : State) (ps : List Piece) (bs : List Byte), Issues (.waita m a b c) s →
    (s.th.gr a).toNat % 8 = 0 → s.pieces s.th.acc .read (s.th.gr a) 8 true = .ok (ps, s'') →
    s.ldHeld s.th.acc .read (s.th.gr a) 8 = .ok bs s' →
    (waitCond (c.toNat % 4) (BitVec.ofNat 64 (leNat bs)) (s.th.gr b) = true →
      let e : State := { s' with th := { s'.th with flow := { s'.th.flow with waitVa := none, waitAt := none, heldReads := [] } } }
      (s'.th.status = .waiting → NoStepBack (.waita m a b c) s e → exec (.waita m a b c) s = .next (e.retire s.th (.waita m a b c))) ∧
      (s'.th.status ≠ .waiting → exec (.waita m a b c) s = .next (e.passes s.th (.waita m a b c)))) ∧
    (waitCond (c.toNat % 4) (BitVec.ofNat 64 (leNat bs)) (s.th.gr b) = false →
      exec (.waita m a b c) s = .next (State.waits { s' with th := { s'.th with flow := { s'.th.flow with
        waitVa := some (s.th.gr a), waitAt := (ps.head?.map (·.pa)).map unitOf, heldReads := [] } } } .waiting))) ∧
  (∀ (m : Mark) (a : Reg) (s s' : State) (p : Piece), Issues (.wake m a) s → (s.th.gr a).toNat % 8 = 0 →
    s.pieces s.th.acc .read (s.th.gr a) 8 = .ok ([p], s') → 
    let e := if p.pkg = s'.me then s'.wakeLine (waitLine p.off) else (s'.request s.th.acc .wake p []).2
    NoStepBack (.wake m a) s e → exec (.wake m a) s = .next (e.retire s.th (.wake m a))) ∧
  (∀ (m : Mark) (a b : Reg) (c : BitVec 5) (s : State), (s.th.gr a).toNat % 8 ≠ 0 →
    (Issues (.waita m a b c) s → Traps (.waita m a b c) s ⟨.align, 0, s.th.gr a⟩) ∧
    (Issues (.wake m a) s → Traps (.wake m a) s ⟨.align, 0, s.th.gr a⟩))) ∧
  (∀ (s : State) (line : Nat),
    (∀ w ∈ (s.wakeLine line).ms.waits, w.line ≠ line) ∧ (∀ w ∈ s.ms.waits, w.line ≠ line → w ∈ (s.wakeLine line).ms.waits) ∧
    (∀ w ∈ s.ms.waits, w.line = line → w.far = none → (s.nodeOf w.dom).isSome = true → (⟨w.die, w.dom, w.pri, w.recA⟩ : RunEntry) ∈ (s.wakeLine line).st.runq))

/-- 13:R180-R182: SEND adds a beat to the open packet or opens one; SENDE closes it into the egress queue with its guard pending, and holds
while the queue is full or a release must wait; RECV takes the oldest beat of its queue, and of an empty one delivers zeros or holds. -/
def Obligations.Packets : Prop :=
  (∀ (m : Mark) (a b : Reg) (s : State) (p : Packet), Issues (.send m a b) s → s.th.addBeat a b 0 = some p →
    let e : State := { s with th := { s.th with flow := { s.th.flow with packet := some p } } }
    NoStepBack (.send m a b) s e → exec (.send m a b) s = .next (e.retire s.th (.send m a b))) ∧
  (∀ (m : Mark) (a b : Reg) (s : State), Issues (.send m a b) s → s.th.addBeat a b 0 = none →
    Traps (.send m a b) s ⟨.illstate, 0, s.th.pc⟩) ∧
  (∀ (m : Mark) (q : BitVec 3) (a b : Reg) (s : State) (p : Packet), Issues (.sende m q a b) s → s.th.addBeat a b (s.th.resultTag q.toNat) = some p →
    s.unaccepted s.th < 4 → s.mayRelease s.th = true →
    let t := s.th.setGuard q.toNat .pend
    let e : State := { s with th := { t with flow := { t.flow with packet := none, egress := t.flow.egress ++ [p] } } }
    NoStepBack (.sende m q a b) s e → exec (.sende m q a b) s = .next (e.retire s.th (.sende m q a b))) ∧
  (∀ (m : Mark) (q : BitVec 3) (a b : Reg) (s : State) (p : Packet), Issues (.sende m q a b) s → s.th.addBeat a b (s.th.resultTag q.toNat) = some p →
    (4 ≤ s.unaccepted s.th ∨ s.mayRelease s.th = false) → exec (.sende m q a b) s = .next (s.holding 2)) ∧
  (∀ (m : Mark) (q : BitVec 3) (a b : Reg) (s : State), Issues (.sende m q a b) s → s.th.addBeat a b (s.th.resultTag q.toNat) = none →
    Traps (.sende m q a b) s ⟨.illstate, 0, s.th.pc⟩) ∧
  (∀ (m : Mark) (a b : Reg) (c : BitVec 5) (s : State), Issues (.recv m a b c) s →
    let d := (((s.tile s.th.tile).dp? s.th.dom).map (·.1)).getD 4
    (∀ y rest, (s.tile s.th.tile).rxq.getD d [] = y :: rest →
      let e := ((s.setTile s.th.tile { s.tile s.th.tile with rxq := (s.tile s.th.tile).rxq.set d rest }).gw a y.data).gw b y.status
      NoStepBack (.recv m a b c) s e → exec (.recv m a b c) s = .next (e.retire s.th (.recv m a b c))) ∧
    ((s.tile s.th.tile).rxq.getD d [] = [] →
      (c = 0 → NoStepBack (.recv m a b c) s ((s.gw a 0).gw b 0) →
        exec (.recv m a b c) s = .next (((s.gw a 0).gw b 0).retire s.th (.recv m a b c))) ∧
      (c ≠ 0 → exec (.recv m a b c) s = .next (s.holding 1))))

/-- 07:R94, 13:R183: GSET sets its guard by its register, GWAIT completes on a resolved guard; a pending guard holds GSET and makes GWAIT
wait; q0 reads true. -/
def Obligations.Guards : Prop :=
  (∀ (m : Mark) (q : BitVec 3) (a : Reg) (s : State), Issues (.gset m q a) s → s.th.gst q.toNat ≠ .pend →
    let e : State := { s with th := s.th.setGuard q.toNat (if s.th.gr a = 0 then .fls else .tru) }
    NoStepBack (.gset m q a) s e → exec (.gset m q a) s = .next (e.retire s.th (.gset m q a))) ∧
  (∀ (m : Mark) (q : BitVec 3) (a : Reg) (s : State), Issues (.gset m q a) s → s.th.gst q.toNat = .pend →
    exec (.gset m q a) s = .next (s.holding 1)) ∧
  (∀ (m : Mark) (q : BitVec 3) (s : State), Issues (.gwait m q) s → s.th.gst q.toNat ≠ .pend →
    (s.th.status = .waiting → NoStepBack (.gwait m q) s s → exec (.gwait m q) s = .next (s.retire s.th (.gwait m q))) ∧
    (s.th.status ≠ .waiting → exec (.gwait m q) s = .next (s.passes s.th (.gwait m q)))) ∧
  (∀ (m : Mark) (q : BitVec 3) (s : State), Issues (.gwait m q) s → s.th.gst q.toNat = .pend →
    exec (.gwait m q) s = .next (s.waits .waiting)) ∧
  (∀ (t : Thread) (i j : Nat) (g : Guard), t.guards.length = 7 → 1 ≤ i → i ≤ 7 →
    (t.setGuard i g).gst i = g ∧ (j ≠ i → (t.setGuard i g).gst j = t.gst j) ∧ t.setGuard 0 g = t ∧ t.gst 0 = .tru)

-- Vectors ---------------------------------------------------------------------------------------------------------------------

/-- 11:R135-R138: a vector load completes as `vload` says, of the element addresses of its form; a register outside the views takes the
illegal-state trap; one that `vload` makes hold or wait does so. VLD, VLDS and VGTH.
11:R135-R138: a vector store completes as `vstore` says, of the element addresses of its form and the bytes of its register, which wait
for their accumulator's rows. VST, VSTS and VSCT. -/
def Obligations.VectorAccesses : Prop :=
  (∀ (i : Instr) (s e : State) (d : Reg) (l : BitVec 1) (late : Bool) (w : Nat) (es : List Word), Issues i s →
    ((∃ m a b, i = .vld m d a b l ∧ late = false ∧ w = 0 ∧ es = [s.th.gr a + s.th.gr b]) ∨
     (∃ m a b k, i = .vlds m d a b l k ∧ late = false ∧ w = 2 ^ k.toNat ∧
       es = (List.range (128 / w)).map (fun j => s.th.gr a + BitVec.ofNat 64 j * s.th.gr b)) ∨
     (∃ m a b k o, i = .vgth m d a b l k ∧ late = true ∧ w = 2 ^ k.toNat ∧ s.th.vo b.toNat = some o ∧ s.th.accPending o = false ∧
       es = (List.range (Nat.min 32 (128 / w))).map (fun j =>
         s.th.gr a + BitVec.ofNat 64 w * BitVec.ofNat 64 (sextN 32 64 (lane (s.th.vread b.toNat o) 4 j))))) →
    (∀ o, s.th.vo d.toNat = some o → s.vload o (l == 1) late w es = .ok e → NoStepBack i s e →
      exec i s = .next (e.retire s.th i)) ∧
    (∀ o x, s.th.vo d.toNat = some o → s.vload o (l == 1) late w es = .trap x → Traps i s x) ∧
    (∀ o k u, s.th.vo d.toNat = some o → s.vload o (l == 1) late w es = .hold k u → exec i s = .next (u.holding k)) ∧
    (∀ o st u, s.th.vo d.toNat = some o → s.vload o (l == 1) late w es = .wait st u → exec i s = .next (u.waits st)) ∧
    (s.th.vo d.toNat = none → Traps i s ⟨.illstate, 0, s.th.pc⟩)) ∧
  (∀ (i : Instr) (s e : State) (d : Reg) (l : BitVec 1) (whole : Bool) (n : Nat) (es : List Word), Issues i s →
    ((∃ m a b, i = .vst m d a b l ∧ whole = true ∧ n = 128 ∧ es = [s.th.gr a + s.th.gr b]) ∨
     (∃ m a b k, i = .vsts m d a b l k ∧ whole = false ∧ n = 2 ^ k.toNat ∧
       es = (List.range (128 / n)).map (fun j => s.th.gr a + BitVec.ofNat 64 j * s.th.gr b)) ∨
     (∃ m a b k o, i = .vsct m d a b l k ∧ whole = false ∧ n = 2 ^ k.toNat ∧ s.th.vo b.toNat = some o ∧ s.th.accPending o = false ∧
       es = (List.range (Nat.min 32 (128 / n))).map (fun j =>
         s.th.gr a + BitVec.ofNat 64 n * BitVec.ofNat 64 (sextN 32 64 (lane (s.th.vread b.toNat o) 4 j))))) →
    (∀ o, s.th.vo d.toNat = some o → s.th.accPending o = false →
      s.vstore (l == 1) whole n es (s.th.vread d.toNat o) = .ok e → NoStepBack i s e → exec i s = .next (e.retire s.th i)) ∧
    (∀ o x, s.th.vo d.toNat = some o → s.th.accPending o = false →
      s.vstore (l == 1) whole n es (s.th.vread d.toNat o) = .trap x → Traps i s x) ∧
    (∀ o k u, s.th.vo d.toNat = some o → s.th.accPending o = false →
      s.vstore (l == 1) whole n es (s.th.vread d.toNat o) = .hold k u → exec i s = .next (u.holding k)) ∧
    (∀ o st u, s.th.vo d.toNat = some o → s.th.accPending o = false →
      s.vstore (l == 1) whole n es (s.th.vread d.toNat o) = .wait st u → exec i s = .next (u.waits st)) ∧
    (∀ o, s.th.vo d.toNat = some o → s.th.accPending o = true → exec i s = .next (s.holding 2)) ∧
    (s.th.vo d.toNat = none → Traps i s ⟨.illstate, 0, s.th.pc⟩))

/-- 11:R133, R139-R147, 05:R63, 07:R93: a register vector form whose registers exist and that reads no accumulator byte through a view completes
with the bytes and flags of `vecEval`; one that reads accumulator bytes through a view is long-latency: it completes with its operands kept, each with the
rows that are still to come, and its result outstanding; one whose register a matrix command still writes holds; a register outside the
views takes the illegal-state trap. All forms of `vecShape`. -/
def Obligations.VectorFormsComplete : Prop :=
  ∀ (i : Instr) (s : State) (m : Mark) (d a : Reg) (rd : Bool) (b : Option Reg), vecShape i = some (m, d, rd, a, b) → Issues i s →
    (∀ od oa ob, s.th.vo d.toNat = some od → s.th.vo a.toNat = some oa → (match b with | some r => s.th.vo r.toNat | none => some 0) = some ob →
      let at_ := fun (r : Reg) (o : Nat) => if s.th.meetsAcc o 128 && (s.th.bypassed true r.toNat).isNone then o else 0
      let kb := match b with | some r => at_ r ob | none => 0
      let kd := if rd then at_ d od else 0
      (transientMark m = false → s.writeWaits s.th od 128 = true → exec i s = .next (s.holding 1)) ∧
      ((transientMark m = false → s.writeWaits s.th od 128 = false) → at_ a oa + kb + kd = 0 →
        let r := vecEval i (s.th.vread a.toNat oa) (match b with | some x => s.th.vread x.toNat ob | none => [])
          (if rd then s.th.vread d.toNat od else [])
        Completes i s (State.setfx { s with th := s.th.vdeliver m d.toNat od r.1 } r.2)) ∧
      ((transientMark m = false → s.writeWaits s.th od 128 = false) → at_ a oa + kb + kd ≠ 0 →
        Completes i s (s.await ⟨0, (List.range 128).map (od + ·), .late i (s.th.lateOp (at_ a oa) (s.th.vread a.toNat oa))
          (s.th.lateOp kb (match b with | some x => s.th.vread x.toNat ob | none => []))
          (s.th.lateOp kd (if rd then s.th.vread d.toNat od else [])), none, 0⟩))) ∧
    ((s.th.vo d.toNat = none ∨ s.th.vo a.toNat = none ∨ (∃ r, b = some r ∧ s.th.vo r.toNat = none)) →
      Traps i s ⟨.illstate, 0, s.th.pc⟩)

/-- 11:R139: VBCST puts the low bytes of its register into every lane; VEXT delivers the lane its index names, extended; VINS replaces
that lane. Of accumulator bytes VEXT and VINS are long-latency (07:R93, 11:R133); a vector register outside the views takes the
illegal-state trap. -/
def Obligations.LaneMovement : Prop :=
  (∀ (m : Mark) (d a : Reg) (e : BitVec 3) (s : State) (o : Nat), Issues (.vbcst m d a e) s → s.th.vo d.toNat = some o →
    s.writeWaits s.th o 128 = false →
    let bs := (List.range (128 / 2 ^ (e.toNat % 4))).flatMap (fun _ => leBytes (2 ^ (e.toNat % 4)) (s.th.gr a).toNat)
    let r : State := { s with th := s.th.winWrite o bs }
    NoStepBack (.vbcst m d a e) s r → exec (.vbcst m d a e) s = .next (r.retire s.th (.vbcst m d a e))) ∧
  (∀ (m : Mark) (d a b : Reg) (e : BitVec 3) (s : State) (o : Nat), Issues (.vext m d a b e) s → s.th.vo a.toNat = some o →
    s.th.meetsAcc o 128 = false →
    let w := 2 ^ (e.toNat % 4)
    let x := lane (s.th.vread a.toNat o) w ((s.th.gr b).toNat % (128 / w))
    let r := s.gw d (BitVec.ofNat 64 (if e.toNat < 4 then sextN (8 * w) 64 x else x))
    NoStepBack (.vext m d a b e) s r → exec (.vext m d a b e) s = .next (r.retire s.th (.vext m d a b e))) ∧
  (∀ (m : Mark) (d a b : Reg) (e : BitVec 3) (s : State) (o : Nat), Issues (.vins m d a b e) s → s.th.vo d.toNat = some o →
    s.th.meetsAcc o 128 = false → s.writeWaits s.th o 128 = false →
    let w := 2 ^ (e.toNat % 4)
    let bs := (List.range (128 / w)).flatMap (fun j => leBytes w
      (if j = (s.th.gr b).toNat % (128 / w) then (s.th.gr a).toNat else lane (s.th.vread d.toNat o) w j))
    let r : State := { s with th := s.th.vdeliver m d.toNat o bs }
    NoStepBack (.vins m d a b e) s r → exec (.vins m d a b e) s = .next (r.retire s.th (.vins m d a b e))) ∧
  (∀ (m : Mark) (d a b : Reg) (e : BitVec 3) (s : State),
    (s.th.vo d.toNat = none → Issues (.vbcst m d a e) s → Traps (.vbcst m d a e) s ⟨.illstate, 0, s.th.pc⟩) ∧
    (s.th.vo a.toNat = none → Issues (.vext m d a b e) s → Traps (.vext m d a b e) s ⟨.illstate, 0, s.th.pc⟩) ∧
    (s.th.vo d.toNat = none → Issues (.vins m d a b e) s → Traps (.vins m d a b e) s ⟨.illstate, 0, s.th.pc⟩)) ∧
  (∀ (m : Mark) (d a b : Reg) (e : BitVec 3) (s : State) (o : Nat), o ≠ 0 →
    (Issues (.vext m d a b e) s → s.th.vo a.toNat = some o → s.th.meetsAcc o 128 = true → s.th.bypassed true a.toNat = none →
      (s.th.countsBy d = true → Traps (.vext m d a b e) s ⟨.illstate, 0, s.th.pc⟩) ∧
      (s.th.countsBy d = false → Completes (.vext m d a b e) s (s.await ⟨d, [], .late (.vext m d a b e)
        (s.th.lateOp o (s.th.vread a.toNat o)) (s.th.lateOp 0 (leBytes 8 (s.th.gr b).toNat)) (s.th.lateOp 0 []), none, 0⟩))) ∧
    (Issues (.vins m d a b e) s → s.th.vo d.toNat = some o → s.th.meetsAcc o 128 = true → s.th.bypassed true d.toNat = none →
      s.writeWaits s.th o 128 = false →
      Completes (.vins m d a b e) s (s.await ⟨0, (List.range 128).map (o + ·), .late (.vins m d a b e)
        (s.th.lateOp 0 (leBytes 8 (s.th.gr a).toNat)) (s.th.lateOp 0 (leBytes 8 (s.th.gr b).toNat))
        (s.th.lateOp o (s.th.vread d.toNat o)), none, 0⟩)))

/-- 11:R140: the lanes of VADD, VSUB, VMUL, VMAD, VMIN, VMAX, VABS, VNEG, VSHL, VSHR and VSRA, and no flag.
11:R140-R141: VAND, VOR, VXOR and VSEL are bitwise over all 128 bytes. -/
def Obligations.Lanes : Prop :=
  (∀ (i : Instr) (e : BitVec 3) (f : (n : Nat) → BitVec n → BitVec n → BitVec n → BitVec n) (va vb vd : List Byte) (j : Nat),
    i.wellFormed = true → intLaneRule i = some (e, f) → va.length = 128 → vb.length = 128 → vd.length = 128 →
    j < 128 / 2 ^ (e.toNat % 4) →
    let w := 2 ^ (e.toNat % 4)
    lane (vecEval i va vb vd).1 w j =
      (f (8 * w) (BitVec.ofNat _ (lane vd w j)) (BitVec.ofNat _ (lane va w j)) (BitVec.ofNat _ (lane vb w j))).toNat ∧
    (vecEval i va vb vd).2 = 0) ∧
  (∀ (m : Mark) (d a b : Reg) (va vb vd : List Byte) (k : Nat), va.length = 128 → vb.length = 128 → vd.length = 128 → k < 128 →
    (vecEval (.vand m d a b) va vb vd).1.getD k 0 = va.getD k 0 &&& vb.getD k 0 ∧
    (vecEval (.vor m d a b) va vb vd).1.getD k 0 = va.getD k 0 ||| vb.getD k 0 ∧
    (vecEval (.vxor m d a b) va vb vd).1.getD k 0 = va.getD k 0 ^^^ vb.getD k 0 ∧
    (vecEval (.vsel m d a b) va vb vd).1.getD k 0 = (vd.getD k 0 &&& va.getD k 0) ||| (~~~ vd.getD k 0 &&& vb.getD k 0))

-- Matrix commands ---------------------------------------------------------------------------------------------------------------

/-- 11:R148-R155, R161, R163: MMA, MZERO and MSCL that pass their checks queue their command with its guard, in order after those queued, MMA and
MZERO claiming the accumulator; a full queue holds; an accumulator outside the views traps. -/
def Obligations.MatrixCommandsQueue : Prop :=
  (∀ (i : Instr) (s : State) (q : BitVec 3) (c : MCmd) (f : Thread → Thread), Issues i s →
    ((∃ m acc a b k oa wa ob wb, i = .mma m q acc a b k ∧ s.th.viewTrap acc.toNat = none ∧ (s.th.gr k).toNat ≤ 0xFFFFFF ∧
        s.windowTrap s.th [(s.th.gr a).toNat % 32, (s.th.gr b).toNat % 32] = none ∧ s.th.capTrap acc.toNat = none ∧
        (s.tile s.th.tile).operands (s.th.gr a) (s.th.gr b) (s.th.gr k) = .ok ((oa, wa), (ob, wb)) ∧ wa.state = 2 ∧ wb.state = 2 ∧
        c = .mma acc.toNat (s.th.bound ((s.th.ao acc.toNat).getD 0)) oa ob (s.th.gr k).toNat ∧ f = (·.claim acc.toNat)) ∨
     (∃ m a, i = .mzero m q a ∧ s.th.viewTrap a.toNat = none ∧ s.th.capTrap a.toNat = none ∧
        c = .mzero a.toNat (s.th.bound ((s.th.ao a.toNat).getD 0)) ∧ f = (·.claim a.toNat)) ∨
     (∃ m a b acc, i = .mscl m q a b acc ∧ s.th.viewTrap acc.toNat = none ∧ 1 ≤ (s.th.gr b).toNat ∧ (s.th.gr b).toNat ≤ 64 ∧
        (s.th.gr a).toNat % 64 = 0 ∧ s.entryCheck s.th (s.th.gr a).toNat (64 * (s.th.gr b).toNat) = .ok true ∧
        c = .mscl acc.toNat (s.th.gr a).toNat (s.th.gr b).toNat ∧ f = id)) →
    (s.th.flow.mq.length < 8 →
      let t := f s.th
      let e : State := { s with th := { t with flow := { t.flow with mq := t.flow.mq ++ [⟨c, t.condTag q.toNat, t.tid, t.tid⟩] } } }
      NoStepBack i s e → exec i s = .next (e.retire s.th i)) ∧
    (8 ≤ s.th.flow.mq.length → exec i s = .next (s.holding 1))) ∧
  (∀ (m : Mark) (q : BitVec 3) (acc : BitVec 2) (a b c r : Reg) (k : BitVec 5) (s : State) (x : Trap),
    (s.th.viewTrap acc.toNat = some x → Issues (.mma m q acc a b k) s → Traps (.mma m q acc a b k) s x) ∧
    (s.th.viewTrap r.toNat = some x → Issues (.mzero m q r) s → Traps (.mzero m q r) s x) ∧
    (s.th.viewTrap c.toNat = some x → Issues (.mscl m q a b c) s → Traps (.mscl m q a b c) s x) ∧
    (s.th.viewTrap acc.toNat = some x → x = ⟨.illstate, 0, s.th.pc⟩))

/-- 11:R148, R151, R161: MWAIT completes once its accumulators are idle and final, as a suspension point, and waits before; MWM delivers the watermark at the
park, and of an accumulator outside the views takes the illegal-state trap.
11:R166: MSAVE stores the accumulator's image, owner and flags and frees it; MREST takes them back; a misaligned image traps. -/
def Obligations.MatrixWaitsAndImages : Prop :=
  ((∀ (m : Mark) (k : BitVec 5) (s : State), Issues (.mwait m k) s →
    let busy := ((List.range 4).filter (fun a => k = 0 || bitOf k.toNat a)).any (fun a => s.accBusy s.th false a || s.th.mu.wm.getD a 32 != 32)
    (busy = false → s.th.status = .waiting → NoStepBack (.mwait m k) s s → exec (.mwait m k) s = .next (s.retire s.th (.mwait m k))) ∧
    (busy = false → s.th.status ≠ .waiting → exec (.mwait m k) s = .next (s.passes s.th (.mwait m k))) ∧
    (busy = true → exec (.mwait m k) s = .next (s.waits .waiting))) ∧
  (∀ (m : Mark) (a b : Reg) (s : State) (o : Nat), Issues (.mwm m a b) s → s.th.ao b.toNat = some o → s.th.countsBy a = false →
    let e := s.await ⟨a, [], .watermark b.toNat, none, 0⟩
    NoStepBack (.mwm m a b) s e → exec (.mwm m a b) s = .next (e.retire s.th (.mwm m a b))) ∧
  (∀ (m : Mark) (a b : Reg) (s : State), Issues (.mwm m a b) s → (s.th.ao b.toNat = none ∨ s.th.countsBy a = true) →
    Traps (.mwm m a b) s ⟨.illstate, 0, s.th.pc⟩)) ∧
  ((∀ (m : Mark) (a b : Reg) (s s' : State) (o : Nat) (ps : List Piece), Issues (.msave m a b) s → s.th.ao b.toNat = some o →
    (s.th.gr a).toNat % 64 = 0 → s.pieces s.th.acc .write (s.th.gr a) 4160 = .ok (ps, s') →
    ps.findSome? (s'.refusal s.th.acc) = none →
    s.th.mu.own.getD b.toNat 0 ≤ s.th.priv.code + 1 → s.accDrained s.th b.toNat = true → s'.accessWaits s.th.acc ps = false → s'.storeBlock s.th.acc ps = none →
    let own := s.th.mu.own.getD b.toNat 0
    let u := (storePieces s.th.acc ps (s.th.winRead o 4096 ++
      leBytes 8 (own * 256 + (s.th.mu.fx.getD b.toNat 0).toNat) ++ List.replicate 56 0) s').asOne s.th.tid s'.fresh
    let e : State := { u with th := { u.th with mu := u.th.mu.setOwn b.toNat 0 } }
    NoStepBack (.msave m a b) s e → exec (.msave m a b) s = .next (e.retire s.th (.msave m a b))) ∧
  (∀ (m : Mark) (a b : Reg) (s s' : State) (o : Nat) (ps : List Piece) (x : Trap), Issues (.msave m a b) s → s.th.ao b.toNat = some o →
    (s.th.gr a).toNat % 64 = 0 → s.pieces s.th.acc .write (s.th.gr a) 4160 = .ok (ps, s') → ps.findSome? (s'.refusal s.th.acc) = some x →
    Traps (.msave m a b) s x) ∧
  (∀ (m : Mark) (a b : Reg) (s s' s'' : State) (o : Nat) (ps : List Piece) (bs : List Byte), Issues (.mrest m a b) s →
    s.th.ao b.toNat = some o → (s.th.gr a).toNat % 64 = 0 → s.pieces s.th.acc .read (s.th.gr a) 4160 = .ok (ps, s'') →
    s.th.capTrap b.toNat = none → s.ldHeld s.th.acc .read (s.th.gr a) 4160 = .ok bs s' →
    let w := leNat ((bs.drop 4096).take 8)
    bits w 63 10 = 0 → bits w 7 6 = 0 → (bs.drop 4104).any (· != 0) = false → bits w 9 8 ≤ s.th.priv.code + 1 →
    s'.accDrained s.th b.toNat = true →
    let th := s'.th.winWrite o (bs.take 4096)
    let mu := (th.mu.setOwn b.toNat (bits w 9 8)).setWm b.toNat 32
    let e : State := { s' with th := { th with mu := { mu with fx := th.mu.fx.set b.toNat (BitVec.ofNat 6 (bits w 5 0)) } } }
    NoStepBack (.mrest m a b) s e → exec (.mrest m a b) s = .next (e.retire s.th (.mrest m a b))) ∧
  (∀ (m : Mark) (a b : Reg) (s : State) (o : Nat), s.th.ao b.toNat = some o → (s.th.gr a).toNat % 64 ≠ 0 →
    (Issues (.msave m a b) s → Traps (.msave m a b) s ⟨.align, 0, s.th.gr a⟩) ∧
    (Issues (.mrest m a b) s → Traps (.mrest m a b) s ⟨.align, 0, s.th.gr a⟩)))

/-- 11:R162, R164-R165: MPLN stores the plane group of its vector, ACVT the converted rows of its accumulator and resolves its guard, both
to scratch in range; ACVT with a capability sends its request with the guard pending. -/
def Obligations.MatrixConversions : Prop :=
  (∀ (m : Mark) (a b : Reg) (c : BitVec 5) (s : State) (o : Nat) (f : Mfc), Issues (.mpln m a b c) s → s.th.vo b.toNat = some o →
    (s.th.gr c).toNat < 64 → mfcUpTo 0x2F (s.th.gr c).toNat = some f → (s.th.gr a).toNat % 4 = 0 → s.th.accPending o = false →
    let bs := planeGroup f ((List.range 32).map (lane (s.th.vread b.toNat o) f.bytes))
    s.localCheck s.th (s.th.gr a).toNat bs.length (s.th.gr a).toNat = .ok → s.matrixReads s.th (s.th.gr a).toNat bs.length = false →
    s.th.ordered 2 = false →
    let e := s.tileStore s.th.tile (s.th.gr a).toNat bs
    NoStepBack (.mpln m a b c) s e → exec (.mpln m a b c) s = .next (e.retire s.th (.mpln m a b c))) ∧
  (∀ (m : Mark) (q : BitVec 3) (a b : Reg) (s : State) (k : AcvtCtl), Issues (.acvt m q a b 0) s → acvtCtl (s.th.gr b) = some k →
    s.localCheck s.th (s.th.gr a).toNat k.size (s.th.gr a).toNat = .ok → s.th.accTrap k.acc = none → s.accBusy s.th false k.acc = false →
    s.th.rowsDone k = true →
    let r := s.th.acvtRows ((s.th.ao k.acc).getD 0) k
    s.localCheck s.th (s.th.gr a).toNat r.1.length (s.th.gr a).toNat = .ok → s.matrixReads s.th (s.th.gr a).toNat r.1.length = false →
    s.th.ordered 2 = false →
    let u := s.tileStore s.th.tile (s.th.gr a).toNat r.1
    let e := State.setfx { u with th := (u.th.claim k.acc).setGuard q.toNat .tru } r.2
    NoStepBack (.acvt m q a b 0) s e → exec (.acvt m q a b 0) s = .next (e.retire s.th (.acvt m q a b 0))) ∧
  (∀ (m : Mark) (q : BitVec 3) (a b : Reg) (c : BitVec 5) (s : State) (k : AcvtCtl), Issues (.acvt m q a b c) s → c ≠ 0 →
    acvtCtl (s.th.gr b) = some k → s.localCheck s.th (s.th.gr a).toNat k.size (s.th.gr a).toNat = .ok →
    let e := State.toRouter { s with th := s.th.setGuard q.toNat .pend }
      (.acvt ((coordIdx (bits (s.th.gr c).toNat 53 43)).getD noTile) s.th.tid (s.th.resultTag q.toNat) (s.th.gr a) (s.th.gr b) (s.th.gr c) s.th.dom)
    NoStepBack (.acvt m q a b c) s e → exec (.acvt m q a b c) s = .next (e.retire s.th (.acvt m q a b c)))

/-- 11:R157-R159, R164: MMAR sends its command with its capability and leaves its guard pending; SCALEMC sends its entries to every
tile of its mask with the guard pending, and with an empty mask resolves it true; CAPMINT counts the epoch up and delivers a
capability for the tile, with the register of its domain there, or register 0 where it has none (the model's choice, log 68). -/
def Obligations.RemoteMatrix : Prop :=
  (∀ (m : Mark) (q : BitVec 3) (c : BitVec 2) (a b : Reg) (k : BitVec 5) (s : State), Issues (.mmar m q c a b k) s →
    let cap := s.th.gr (k + 1)
    let e := State.toRouter { s with th := s.th.setGuard q.toNat .pend }
      (.mmar ((coordIdx (bits cap.toNat 53 43)).getD noTile) s.th.tid (s.th.resultTag q.toNat) c.toNat (s.th.gr a) (s.th.gr b) (s.th.gr k) cap s.th.dom)
    NoStepBack (.mmar m q c a b k) s e → exec (.mmar m q c a b k) s = .next (e.retire s.th (.mmar m q c a b k))) ∧
  (∀ (m : Mark) (q : BitVec 3) (a b : Reg) (c : BitVec 5) (s : State), Issues (.scalemc m q a b c) s →
    let o := (s.th.gr a).toNat
    let n := (s.th.gr b).toNat
    let x := (s.th.gr c).toNat
    let loft := (s.tile s.th.tile).loft.toNat
    s.ofLoftLaunch s.th = true → 1 ≤ n → n ≤ 64 → o % 64 = 0 → o + 64 * n ≤ bits loft 44 24 → bits x 63 32 = 0 →
    s.entryCheck s.th (bits loft 23 0 + o) (64 * n) = .ok true → s.th.ordered 2 = false →
    let bs := s.read (sramAddr s.th.tile (bits loft 23 0 + o)) (64 * n)
    let es := (List.range n).map (fun i => (bs.drop (64 * i)).take 64)
    let ts := (List.range 24).filter (bitOf (bits x 23 0))
    let e : State := if ts.isEmpty then { s with th := s.th.setGuard q.toNat .tru }
      else ts.foldl (fun s i => s.toRouter (.scale ((bits x 29 28 * 16 + bits x 27 24) * 24 + i) s.th.tid (s.th.resultTag q.toNat) (bits x 31 30) s.th.dom es))
        { s with th := s.th.setGuard q.toNat .pend }
    NoStepBack (.scalemc m q a b c) s e → exec (.scalemc m q a b c) s = .next (e.retire s.th (.scalemc m q a b c))) ∧
  (∀ (m : Mark) (a b : Reg) (s : State), Issues (.capmint m a b) s → bits (s.th.gr b).toNat 63 11 = 0 →
    let x := s.tile s.th.tile
    let k := ((x.dp? s.th.dom).map (·.1)).getD 0
    let cep := (x.cep.getD k 0 + 1) % 2 ^ 32
    let uses := (s.th.gr b).toNat % 256
    let hi := s.th.dom * 2 ^ 22 + idxCoord s.th.tile * 2 ^ 11 + bits (s.th.gr b).toNat 10 8 * 2 ^ 8 + uses
    let host := x.host.set k (if uses = 0 then (false, (x.host.getD k (false, 0)).2) else (true, s.th.slot))
    let e := (s.setTile s.th.tile { x with cep := x.cep.set k cep, cuse := x.cuse.set k uses, host := host }).gw a
      (BitVec.ofNat 64 (hi * 2 ^ 32 + (Config.mac s.pl.key s.th.tile hi cep).toNat))
    NoStepBack (.capmint m a b) s e → exec (.capmint m a b) s = .next (e.retire s.th (.capmint m a b)))

/-- 05:R53, R59, R61: sx8 and n8p4e codes; `satint` gives the nearest value of its range and SAT when that differs; conversions of
integers narrow by it or encode the exact value; minimum and maximum of NaNs, of zeros of both signs, and of ordered values. -/
def Obligations.NumberRules : Prop :=
  (∀ c : Nat, c < 255 → Fmt.sx8.val c = .fin false 1 ((c : Int) - 127)) ∧ Fmt.sx8.val 255 = .nan false ∧
  ((Fmt.n8 4 true).val 0).isZero = true ∧ (Fmt.n8 4 true).val 0xFF = .nan false ∧
  ((Fmt.n8 4 true).val 0xFE).eqv (.fin false 57344 0) = true ∧
  (∀ c : Fin 255, ((Fmt.n8 4 true).val 0xFE).lt ((Fmt.n8 4 true).val c) = false ∧ ((Fmt.n8 4 true).val c).neg? = false) ∧
  (∀ (x : Int) (w : Nat) (sg : Bool), 1 ≤ w →
    let lo : Int := if sg then -(2 ^ (w - 1) : Nat) else 0
    let hi : Int := if sg then (2 ^ (w - 1) : Nat) - 1 else (2 ^ w : Nat) - 1
    ∃ v : Int, lo ≤ v ∧ v ≤ hi ∧ (∀ u : Int, lo ≤ u → u ≤ hi → (x - v).natAbs ≤ (x - u).natAbs) ∧
      readInt w sg (satint x w sg).1 = v ∧ (satint x w sg).1 < 2 ^ w ∧ (satint x w sg).2 = if v = x then 0 else fSAT) ∧
  (∀ (ts td x w wd : Nat) (sg sd : Bool) (f : Fmt), tcOf ts = .inl (w, sg) →
    (tcOf td = .inl (wd, sd) → convert ts td x = satint (readInt w sg x) wd sd) ∧
    (tcOf td = .inr f → convert ts td x = enc f (Machine.Num.ofInt (readInt w sg x)))) ∧
  (∀ (mx : Bool) (x y : Machine.Num),
    ((x.isNan = true ∨ y.isNan = true) → fminmax mx x y = (.nan false, if x.isSnan || y.isSnan then fNV else 0)) ∧
    (x.isNan = false → y.isNan = false → (fminmax mx x y).2 = 0 ∧
      (x.lt y = true → (fminmax mx x y).1 = if mx then y else x) ∧ (y.lt x = true → (fminmax mx x y).1 = if mx then x else y) ∧
      (x.eqv y = true → x.neg? = true → y.neg? = false → (fminmax mx x y).1 = if mx then y else x) ∧
      (x.eqv y = true → x.neg? = false → y.neg? = true → (fminmax mx x y).1 = if mx then x else y) ∧
      (x.eqv y = true → (fminmax mx x y).1 = x ∨ (fminmax mx x y).1 = y)))

-- Jobs, windows, tasks, caches, seals ---------------------------------------------------------------------------------------------

/-- 13:R189, R195, 19:R256: JOB and COLL give their card to an engine and deliver its handle, once the thread's earlier accesses are
performed; a full engine, and a fill of the bay that comes first, hold the slot; a misaligned card and one that cannot be read trap.
13:R191: JOBW waits for its job, adds its flags and retires it, and takes the engine trap of a failed one, retired; JOBQ delivers
its state at the park; JOBX retires an ended job and cancels another, once its stores have landed and its status can be written; no handle of an engine traps, no job of the thread does nothing. -/
def Obligations.Jobs : Prop :=
  (∀ (i : Instr) (s : State) (eng cls : Nat) (q : BitVec 3) (a b : Reg), Issues i s →
    ((∃ m, i = .job m q a b ∧ cls = 0 ∧ eng = copyEngine s.th.tile) ∨ (∃ m, i = .coll m q a b ∧ cls = 2 ∧ eng = 192 + dieOf s.th.tile)) →
    ((s.th.gr b).toNat % 256 ≠ 0 → Traps i s ⟨.align, 0, s.th.gr b⟩) ∧
    ((s.th.gr b).toNat % 256 = 0 →
      (∀ x, s.pieces s.th.acc .read (s.th.gr b) 256 = .error x → Traps i s x) ∧
      (∀ ps u, s.pieces s.th.acc .read (s.th.gr b) 256 = .ok (ps, u) →
        (u.mayRelease s.th = false → exec i s = .next (u.holding 2)) ∧
        (u.mayRelease s.th = true → u.engineFull eng = true ∨ u.outranked eng s.th.tile = true → exec i s = .next (u.holding 1)) ∧
        (u.mayRelease s.th = true → u.engineFull eng = false → u.outranked eng s.th.tile = false →
          let v := if eng < 192 then u.setEngine eng { u.engine eng with last := s.th.tile } else u
          let j : JobEntry := {
            cls := cls, jid := 0, card := s.th.gr b, tid := s.th.tid, tile := s.th.tile, who := s.th.who, dom := s.th.dom
            priv := s.th.priv, guard := s.th.noted (s.th.condTag q.toNat), win := none, graph := 0, reads := [], writes := [], preds := []
            acts := [], orphan := false, early := false, stage := 0, todo := [], esz := 1, st := 0, code := 0, fx := 0, faddr := 0
            rin := v.rinOf s.th.dom }
          let e := v.accept eng j
          let r : State := { e.2 with th := (e.2.th.gw a (handleOf eng e.1)).countEv 12 1 }
          Completes i s r)))) ∧
  ((∀ (m : Mark) (a b : Reg) (s : State),
    (handleEngine (s.th.gr a) = none →
      (Issues (.jobw m a) s → Traps (.jobw m a) s ⟨.illstate, 0, s.th.pc⟩) ∧
      (Issues (.jobx m a) s → Traps (.jobx m a) s ⟨.illstate, 0, s.th.pc⟩)) ∧
    (handleEngine (s.th.gr b) = none ∨ s.th.countsBy a = true → Issues (.jobq m a b) s → Traps (.jobq m a b) s ⟨.illstate, 0, s.th.pc⟩) ∧
    (handleEngine (s.th.gr b) ≠ none → s.th.countsBy a = false → Issues (.jobq m a b) s →
      Completes (.jobq m a b) s (s.await ⟨a, [], .jobState (s.th.gr b), none, 0⟩))) ∧
  (∀ (m : Mark) (a : Reg) (s : State), handleEngine (s.th.gr a) ≠ none → s.job? (s.th.gr a) s.th.who = none →
    (Issues (.jobw m a) s → Passes (.jobw m a) s s) ∧ (Issues (.jobx m a) s → Completes (.jobx m a) s s)) ∧
  (∀ (m : Mark) (a : Reg) (s : State) (e : Nat) (j : JobEntry), handleEngine (s.th.gr a) ≠ none →
    s.job? (s.th.gr a) s.th.who = some (e, j) →
    (Issues (.jobw m a) s →
      (j.stage ≠ 2 → exec (.jobw m a) s = .next (s.waits .waiting)) ∧
      (j.stage = 2 → j.st = 4 → exec (.jobw m a) s =
        .next ((s.dropJob e j.jid).clock.raise ⟨.engine, j.code, j.card⟩ s.th.faultPc)) ∧
      (j.stage = 2 → j.st ≠ 4 → Passes (.jobw m a) s ((s.dropJob e j.jid).setfx j.fx))) ∧
    (Issues (.jobx m a) s →
      (j.stage = 2 → Completes (.jobx m a) s (s.dropJob e j.jid)) ∧
      (j.stage ≠ 2 → s.jobPosted (jobTid e j.jid) = true → exec (.jobx m a) s = .next (s.holding 2)) ∧
      (j.stage ≠ 2 → s.jobPosted (jobTid e j.jid) = false →
        let r := s.writeStatus j.acc (jobTid e j.jid) j.card 6 0 0 j.jid 0
        (r.2.1 = none → r.2.2 ≠ [] → exec (.jobx m a) s = .next (s.holding 3)) ∧
        ((r.2.1 ≠ none ∨ r.2.2 = []) →
          Completes (.jobx m a) s (((r.1.dropJob e j.jid).completeKey (e, j.jid)).count (128 + e) j.dom 0 1))))))

/-- 13:R193-R194: WBIND binds the window its card and layout describe, absent, or with PREFETCH starts its fill; WDROP unbinds, and waits
for a fill under way; WSTAT delivers the state at the park, and traps where its destination counts an active loop; a misaligned card, a bank of another domain,
a window that is filling or does not fit, and a window number over 31 trap, and the first field of the card or of the layout that breaks
its map, with TS.TVAL that field's address. -/
def Obligations.Windows : Prop :=
  (∀ (m : Mark) (a b : Reg) (s s1 s2 : State) (c l : List Byte), Issues (.wbind m a b) s → (s.th.gr b).toNat % 256 = 0 →
    s.ldHeld s.th.acc .read (s.th.gr b) 256 = .ok c s1 → cardBreaches 2 c = [] → windowBreaches c = [] →
    s1.ldHeld s.th.acc .read (BitVec.ofNat 64 (cardWord c 192)) 128 = .ok l s2 → s1.th = s.th →
    let x := windowOf (s.th.gr b) l (bits (cardWord c 200) 28 16) (bits (cardWord c 200) 13 0) s.th.fn s.th.priv
    let w := (s.th.gr a).toNat
    (∀ o, s2.windowBank s.th.tile s.th.dom x = some o → Traps (.wbind m a b) s ⟨.domain, 0, BitVec.ofNat 64 o⟩) ∧
    (∀ o r, s2.windowBank s.th.tile s.th.dom x = none → layoutBreaches l = o :: r →
      Traps (.wbind m a b) s ⟨.illstate, 0, if 32 ≤ w then s.th.pc else BitVec.ofNat 64 (cardWord c 192) + BitVec.ofNat 64 o⟩) ∧
    (s2.windowBank s.th.tile s.th.dom x = none → layoutBreaches l = [] → 32 ≤ w → Traps (.wbind m a b) s ⟨.illstate, 0, s.th.pc⟩) ∧
    (s2.windowBank s.th.tile s.th.dom x = none → layoutBreaches l = [] → w < 32 → (s2.tile s.th.tile).windowBad w x = true →
      Traps (.wbind m a b) s ⟨.illstate, 0, s.th.gr b + 200⟩) ∧
    (s2.windowBank s.th.tile s.th.dom x = none → layoutBreaches l = [] → w < 32 → (s2.tile s.th.tile).windowBad w x = false →
      ((s2.tile s.th.tile).win? w).any (·.state == 1) = true → Traps (.wbind m a b) s ⟨.illstate, 0, s.th.pc⟩) ∧
    (s2.windowBank s.th.tile s.th.dom x = none → layoutBreaches l = [] → w < 32 → (s2.tile s.th.tile).windowBad w x = false →
      ((s2.tile s.th.tile).win? w).any (·.state == 1) = false →
      (bitOf (cardWord c 208) 0 = false → Completes (.wbind m a b) s (s2.setTile s.th.tile ((s2.tile s.th.tile).setWin w x))) ∧
      (bitOf (cardWord c 208) 0 = true → s2.mayRelease s.th = true → s2.engineFull (copyEngine s.th.tile) = false →
        Completes (.wbind m a b) s (s2.startFill s.th.tile w x s.th false)) ∧
      (bitOf (cardWord c 208) 0 = true → (s2.mayRelease s.th = false ∨ s2.engineFull (copyEngine s.th.tile) = true) →
        exec (.wbind m a b) s = .next (s2.holding 2)))) ∧
  (∀ (m : Mark) (a b : Reg) (s : State), Issues (.wbind m a b) s →
    ((s.th.gr b).toNat % 256 ≠ 0 → Traps (.wbind m a b) s ⟨.align, 0, s.th.gr b⟩) ∧
    (∀ c s1 o r, (s.th.gr b).toNat % 256 = 0 → s.ldHeld s.th.acc .read (s.th.gr b) 256 = .ok c s1 →
      cardBreaches 2 c ++ windowBreaches c = o :: r →
      Traps (.wbind m a b) s ⟨.illstate, 0, if 32 ≤ (s.th.gr a).toNat then s.th.pc else s.th.gr b + BitVec.ofNat 64 o⟩)) ∧
  (∀ (m : Mark) (a : Reg) (s : State), Issues (.wdrop m a) s →
    (32 ≤ (s.th.gr a).toNat → Traps (.wdrop m a) s ⟨.illstate, 0, s.th.pc⟩) ∧
    ((s.th.gr a).toNat < 32 → (s.tile s.th.tile).win? (s.th.gr a).toNat = none → Completes (.wdrop m a) s s) ∧
    (∀ x, (s.th.gr a).toNat < 32 → (s.tile s.th.tile).win? (s.th.gr a).toNat = some x →
      (x.state ≠ 1 → Completes (.wdrop m a) s (s.dropWindow s.th.tile (s.th.gr a).toNat)) ∧
      (x.state = 1 → exec (.wdrop m a) s = .next (State.holding
        (s.setTile s.th.tile ((s.tile s.th.tile).setWin (s.th.gr a).toNat { x with drop := true })) 2)))) ∧
  (∀ (m : Mark) (a b : Reg) (s : State), Issues (.wstat m a b) s →
    (s.th.countsBy a = false → Completes (.wstat m a b) s (s.await ⟨a, [], .winState (bits (s.th.gr b).toNat 4 0), none, 0⟩)) ∧
    (s.th.countsBy a = true → Traps (.wstat m a b) s ⟨.illstate, 0, s.th.pc⟩))

/-- 13:R196-R198, 19:R256: TASK, once the thread's earlier accesses are performed, admits the node its checked card and kernel header
describe and delivers its identifier, the least free one (the model's choice, log 25); with none free it holds the slot. TDONE of the
node's thread with no fault waits for the thread's accesses and the node's stores, makes its actions, writes its status and completes it;
a thread that runs no node, or has done this, traps. -/
def Obligations.Tasks : Prop :=
  (∀ (m : Mark) (a b : Reg) (s s1 s2 : State) (c h : List Byte), Issues (.task m a b) s → (s.th.gr b).toNat % 256 = 0 →
    s.ldHeld s.th.acc .read (s.th.gr b) 256 = .ok c s1 → cardBreaches 4 c = [] → taskBreaches c = [] →
    let kh := BitVec.ofNat 64 (cardWord c 192)
    s1.ldHeld s.th.acc .read kh 64 = .ok h s2 → headerErrors h = [] → privRank (kernOf kh h).priv ≤ privRank s.th.priv →
    let live := (s2.eng.tasks.filter (fun n => n.die == dieOf s.th.tile)).map (·.id)
    let free := (List.range (live.length + 1)).find? (fun i => i < 65536 && !live.contains i)
    ((s2.mayRelease s.th = false ∨ free = none) → exec (.task m a b) s = .next (s2.holding 2)) ∧
    (∀ id, s2.mayRelease s.th = true → free = some id →
      let n := s2.nodeFor s.th id (s.th.gr b) c (kernOf kh h)
      let u := State.feedPantry { s2 with eng := { s2.eng with tasks := s2.eng.tasks ++ [n] } }
      let e : State := { u with th := (u.th.gw a (BitVec.ofNat 64 id)).countEv 12 1 }
      Completes (.task m a b) s e)) ∧
  (∀ (m : Mark) (a b : Reg) (s : State), Issues (.task m a b) s → (s.th.gr b).toNat % 256 ≠ 0 →
    Traps (.task m a b) s ⟨.align, 0, s.th.gr b⟩) ∧
  (∀ (m : Mark) (s : State) (n : TaskNode), Issues (.tdone m) s → s.nodeOfThread s.th = some n → s.th.info.kind = 2 → s.th.flow.tdone = false →
    let job := nodeTid n.die n.id
    let done (z : State) : State :=
      let tasks := z.eng.tasks.filter (fun (x : TaskNode) => !(x.die == n.die && x.id == n.id))
      let u := State.completeKey { z with eng := { z.eng with tasks := tasks } } (1000 + n.die, n.id)
      { u with th := { u.th with flow := { u.th.flow with tdone := true } } }
    (n.stage = 0 → s.mayRelease s.th = false → exec (.tdone m) s = .next (s.holding 2)) ∧
    ((n.stage ≠ 0 ∨ s.mayRelease s.th = true) → s.jobPosted job = true → exec (.tdone m) s = .next (s.holding 2)) ∧
    ((n.stage ≠ 0 ∨ s.mayRelease s.th = true) → s.jobPosted job = false →
      (n.stage = 2 → Completes (.tdone m) s (done s)) ∧
      (∀ u v c, n.stage ≠ 2 → n.fail = none → s.runActs (n.acc s.th) job n.acts n.code = (u, [], c, none) → u.jobPosted job = false →
        u.writeStatus (n.acc u.th) job n.card 3 c 0 n.id 0 = (v, none, []) →
        (v.jobPosted job = false → Completes (.tdone m) s (done v)) ∧
        (v.jobPosted job = true → exec (.tdone m) s = .next (State.holding (v.setNode { n with acts := [], code := c, stage := 2 }) 2))))) ∧
  (∀ (m : Mark) (s : State), Issues (.tdone m) s → (s.nodeOfThread s.th = none ∨ s.th.flow.tdone = true) →
    Traps (.tdone m) s ⟨.illstate, 0, s.th.pc⟩)

/-- 13:R199: DISCARD, CWB and CINV of a range of this package's lines, whose checks pass and which nothing makes wait, complete. DISCARD
with no line pinned gives every line up at its home, which, where the cellar takes nothing, drops the copies without write-back and wakes
the waiters; CWB writes the copies back, skips the lines that are pinned for others, and a member's own pinned line goes home and stays pinned; CINV drops the copies of the lines that
are not pinned. A range that wraps, a failing check and, for DISCARD, a pinned line trap; an access that must wait holds the slot. -/
def Obligations.CacheMaintenance : Prop :=
  (∀ (m : Mark) (a b : Reg) (s : State), wraps (s.th.gr a) (s.th.gr b) = true →
    (Issues (.discard m a b) s → Traps (.discard m a b) s ⟨.illstate, 0, s.th.pc⟩) ∧
    (Issues (.cwb m a b) s → Traps (.cwb m a b) s ⟨.illstate, 0, s.th.pc⟩) ∧
    (Issues (.cinv m a b) s → Traps (.cinv m a b) s ⟨.illstate, 0, s.th.pc⟩)) ∧
  (∀ (m : Mark) (a b : Reg) (s : State) (x : Trap), wraps (s.th.gr a) (s.th.gr b) = false →
    (s.pieces s.th.acc .write (s.th.gr a) (s.th.gr b).toNat = .error x → Issues (.discard m a b) s → Traps (.discard m a b) s x) ∧
    (s.pieces s.th.acc .read (s.th.gr a) (s.th.gr b).toNat = .error x →
      (Issues (.cwb m a b) s → Traps (.cwb m a b) s x) ∧ (Issues (.cinv m a b) s → Traps (.cinv m a b) s x))) ∧
  (∀ (m : Mark) (a b : Reg) (s u : State) (ps ls : List Piece), wraps (s.th.gr a) (s.th.gr b) = false → Issues (.discard m a b) s →
    s.rangeLines .write (s.th.gr a) (s.th.gr b).toNat = .ok (ps, ls, u) →
    (u.accessWaits s.th.acc ps = true → exec (.discard m a b) s = .next (u.holding 2)) ∧
    (∀ l, u.accessWaits s.th.acc ps = false → ls.find? (fun l => (u.pinOf l).isSome) = some l →
      Traps (.discard m a b) s ⟨.cprot, 0, l.va⟩) ∧
    (u.accessWaits s.th.acc ps = false → (∀ l ∈ ls, l.pkg = u.me ∧ u.pinOf l = none) → u.storeBlock s.th.acc ls = none →
      Completes (.discard m a b) s
        (ls.foldl (fun z l => z.discardLine s.th.dom (u.rinOf s.th.dom) l.off (u.memberOf s.th.tid).isSome) u))) ∧
  (∀ (s : State) (dom rin line : Nat) (x : Bool), s.cellarNode dom line = none →
    (s.discardLine dom rin line x).ms = ((s.dropLines (· == line) true).wakeLine line).ms) ∧
  (∀ (m : Mark) (a b : Reg) (s u : State) (ps ls : List Piece), wraps (s.th.gr a) (s.th.gr b) = false → Issues (.cwb m a b) s →
    s.rangeLines .read (s.th.gr a) (s.th.gr b).toNat = .ok (ps, ls, u) →
    (u.accessWaits s.th.acc ps = true → exec (.cwb m a b) s = .next (u.holding 2)) ∧
    (u.accessWaits s.th.acc ps = false → (∀ l ∈ ls, l.pkg = u.me ∧ u.pinOf l = none) →
      Completes (.cwb m a b) s (ls.foldl (fun z l => z.cleanLines (· == l.off)) u)) ∧
    (∀ l p, u.accessWaits s.th.acc ps = false → ls = [l] → l.pkg = u.me → u.pinOf l = some p → u.ownsPin s.th.tid p = true →
      let v := u.writeBackPin s.th.dom ((u.nodeOf s.th.dom).getD 0) p false
      let e : State := { v with ms := { v.ms with
        pins := v.ms.pins.map (fun (q : Pin) => if q.line = p.line && q.far.isNone then { q with dirty := 0 } else q) } }
      v.pl.posted.any (·.tid == 2 ^ 60 + p.bar) = false → Completes (.cwb m a b) s e) ∧
    (u.accessWaits s.th.acc ps = false → (∀ l ∈ ls, l.pkg = u.me ∧ ∀ p, u.pinOf l = some p → u.ownsPin s.th.tid p = false) →
      Completes (.cwb m a b) s (ls.foldl (fun z l => if (u.pinOf l).isSome then z else z.cleanLines (· == l.off)) u))) ∧
  (∀ (m : Mark) (a b : Reg) (s u : State) (ps ls : List Piece), wraps (s.th.gr a) (s.th.gr b) = false → Issues (.cinv m a b) s →
    s.rangeLines .read (s.th.gr a) (s.th.gr b).toNat = .ok (ps, ls, u) →
    (u.accessWaits s.th.acc ps = true → exec (.cinv m a b) s = .next (u.holding 2)) ∧
    (u.accessWaits s.th.acc ps = false → (∀ l ∈ ls, l.pkg = u.me) →
      Completes (.cinv m a b) s
        ((ls.filter (fun l => (u.pinOf l).isNone)).foldl (fun z l => z.dropLines (· == l.off) false) u)))

/-- 13:R200-R202, 19:R253: SEAL of a thread with nothing outstanding begins a seal, or joins the one in progress, makes the checkpoint of
the thread as it goes on after the SEAL, and waits for the seal; in a gate call it waits for the call to end first (the model's
choice, log 76); before, it holds the slot; outside a partition and in a compact it traps.
SEALW completes once its interval is sealed. -/
def Obligations.Seals : Prop :=
  (∀ (m : Mark) (s : State) (n : Nat), Issues (.seal m) s → s.nodeOf s.th.dom = some n → s.memberOf s.th.tid = none →
    s.leaveReady s.th = true →
    let u := if (s.rgs n).sealing then s else (s.setRgs n { s.rgs n with sealing := true }).tellGroup n 8
    let r := u.checkpoint (s.th.loopStep.countEv 2 1) s.th.loopStep.pc
    (s.th.caller.isSome = true → exec (.seal m) s = .next (u.waits .waiting)) ∧
    (s.th.caller = none →
    (r.2 = true → exec (.seal m) s =
      .next (State.waits { r.1 with th := { r.1.th with flow := { r.1.th.flow with sealed := true } } } .sealing)) ∧
    (r.2 = false → exec (.seal m) s = .next r.1))) ∧
  (∀ (m : Mark) (s : State), Issues (.seal m) s → (s.nodeOf s.th.dom = none ∨ (s.memberOf s.th.tid).isSome = true) →
    Traps (.seal m) s ⟨.illstate, 0, s.th.pc⟩) ∧
  (∀ (m : Mark) (s : State) (n : Nat), Issues (.seal m) s → s.nodeOf s.th.dom = some n → s.memberOf s.th.tid = none →
    s.leaveReady s.th = false → exec (.seal m) s = .next (s.holding 2)) ∧
  (∀ (m : Mark) (a : Reg) (s : State), Issues (.sealw m a) s →
    (sealedPast (s.rinOf s.th.dom) (bits (s.th.gr a).toNat 31 0) = true → Completes (.sealw m a) s s) ∧
    (sealedPast (s.rinOf s.th.dom) (bits (s.th.gr a).toNat 31 0) = false → exec (.sealw m a) s = .next (s.holding 1)))

-- Gates, contexts, translation, registers -------------------------------------------------------------------------------------------

/-- 15:R210-R212: GATE reads its descriptor as H of domain 0 and enters the callee with the registers passed, zeros elsewhere and the
caller kept, and waits while the gate is in a call or the callee's group is at rest; GRET gives the caller back its state with the registers
passed back, frees the gate, and leaves the call's outstanding results without a destination (the model's choice, log 73); an index past the table, a descriptor or a window that does not hold, a call inside a call, and GRET outside one trap. -/
def Obligations.Gates : Prop :=
  (∀ (m : Mark) (a : Reg) (s u : State) (bs : List Byte) (g : Gate) (k : Nat) (d : Dp), Issues (.gate m a) s →
    (s.th.gr a).toNat < (s.cfg s.th.dom).gcnt →
    s.ldHeld { s.th.acc with fn := 0, priv := .h } .read ((s.cfg s.th.dom).gtab + 32 * s.th.gr a) 32 = .ok bs u →
    gateOf bs = some g → (u.tile s.th.tile).dp? g.tdom = some (k, d) → s.th.caller = none → g.woff + g.gran ≤ d.rlen →
    ((u.tile s.th.tile).gates.contains (s.th.dom, (s.th.gr a).toNat) = true ∨ u.atRest g.tdom = true →
      exec (.gate m a) s = .next (u.waits .waiting)) ∧
    ((u.tile s.th.tile).gates.contains (s.th.dom, (s.th.gr a).toNat) = false → u.atRest g.tdom = false →
      let v := u.setTile s.th.tile { u.tile s.th.tile with gates := (u.tile s.th.tile).gates ++ [(s.th.dom, (s.th.gr a).toNat)] }
      exec (.gate m a) s = .next (State.retireJump { v with th := u.th.enterGate (s.th.gr a).toNat g (d.rbase + g.woff) } s.th (.gate m a)
        .skip g.entry))) ∧
  (∀ (m : Mark) (a : Reg) (s : State), Issues (.gate m a) s → (s.cfg s.th.dom).gcnt ≤ (s.th.gr a).toNat →
    Traps (.gate m a) s ⟨.illstate, 0, s.th.gr a⟩) ∧
  (∀ (m : Mark) (a : Reg) (s u : State) (bs : List Byte), Issues (.gate m a) s → (s.th.gr a).toNat < (s.cfg s.th.dom).gcnt →
    s.ldHeld { s.th.acc with fn := 0, priv := .h } .read ((s.cfg s.th.dom).gtab + 32 * s.th.gr a) 32 = .ok bs u →
    (gateOf bs = none ∨ (∃ g, gateOf bs = some g ∧ ((u.tile s.th.tile).dp? g.tdom = none ∨ s.th.caller.isSome = true ∨
      ∃ k d, (u.tile s.th.tile).dp? g.tdom = some (k, d) ∧ d.rlen < g.woff + g.gran))) →
    Traps (.gate m a) s ⟨.illstate, 0, s.th.gr a⟩) ∧
  (∀ (m : Mark) (s : State) (c : Caller), Issues (.gret m) s → s.th.caller = some c →
    let r := lostResults s.th.flow.outs s
    let u := s.th.leaveGate
    let mq := u.flow.mq.map (fun (e : MEntry) => { e with cmd := e.cmd.gone false })
    exec (.gret m) s = .next (State.retireJump { r.2.endCall s.th with th := { u with flow := { u.flow with
      mq := mq, outs := r.1, asyncs := u.flow.asyncs.filter (·.cause != .sealto) } } } s.th (.gret m) .call c.pc)) ∧
  (∀ (os : List Outst) (s : State), (lostResults os s).1.length = os.length ∧ (∀ o ∈ (lostResults os s).1, o.g = 0 ∧ o.win = [])) ∧
  (∀ (s : State) (t : Thread) (c : Caller), t.caller = some c →
    ((s.endCall t).tile t.tile).gates = (s.tile t.tile).gates.erase (c.dom, c.gate) ∧ (s.endCall t).ms = s.ms ∧ (s.endCall t).eng = s.eng) ∧
  (∀ (m : Mark) (s : State), Issues (.gret m) s → s.th.caller = none → Traps (.gret m) s ⟨.illstate, 0, s.th.pc⟩) ∧
  (∀ (t : Thread) (i base : Nat) (g : Gate) (k : Fin 32), g.pass ≤ 29 →
    let u := t.enterGate i g base
    (k.val ≠ 0 → k.val ≤ g.pass → u.regs[k] = t.regs[k]) ∧ (g.pass < k.val → k.val ≠ 30 → u.regs[k] = 0) ∧
    u.regs[30] = g.stk + BitVec.ofNat 64 ((t.tile + 1) * g.sstr) ∧ u.dom = g.tdom ∧ u.priv = g.priv ∧ u.fx = 0 ∧ u.lp0.act = false) ∧
  (∀ (t : Thread) (c : Caller) (k : Fin 32), t.caller = some c →
    let u := t.leaveGate
    u.regs[k] = (if k.val ≠ 0 ∧ k.val ≤ c.pass then t.regs[k] else c.regs[k]) ∧ u.pc = c.pc ∧ u.win = c.win ∧ u.dom = c.dom ∧
    u.priv = c.priv ∧ u.guards = c.guards ∧ u.fx = c.fx ∧ u.caller = none)

/-- 15:R213, R216: CTXSV asks a thread of its tile to leave with its gang and then delivers its record's address, or zero of an empty
slot; CTXLD takes a record into a free slot and says whether it did; KILL ends the threads and jobs of a record, KILL.dom those of a
function, and both hold until its stores have landed; a slot over 15, the thread itself and another function's thread trap. -/
def Obligations.ContextsAndKills : Prop :=
  (∀ (m : Mark) (d a : Reg) (s : State), Issues (.ctxsv m d a) s → s.th.flow.ctx = none →
    let tid := s.th.tile * 16 + (s.th.gr a).toNat
    (15 < (s.th.gr a).toNat → Traps (.ctxsv m d a) s ⟨.illstate, 0, s.th.gr a⟩) ∧
    ((s.th.gr a).toNat ≤ 15 → tid = s.th.tid → Traps (.ctxsv m d a) s ⟨.illstate, 0, s.th.pc⟩) ∧
    ((s.th.gr a).toNat ≤ 15 → tid ≠ s.th.tid → s.thread? tid = none → Completes (.ctxsv m d a) s (s.gw d 0)) ∧
    (∀ u, (s.th.gr a).toNat ≤ 15 → tid ≠ s.th.tid → s.thread? tid = some u → (s.th.priv = .s → u.home = s.th.dom) →
      s.memberOf tid = none →
      exec (.ctxsv m d a) s = .next (State.holding ((s.stopGang u 2).setCtx (some (tid, u.info.addr, false))) 2)) ∧
    (∀ u, (s.th.gr a).toNat ≤ 15 → tid ≠ s.th.tid → s.thread? tid = some u → s.th.priv = .s → u.home ≠ s.th.dom →
      Traps (.ctxsv m d a) s ⟨.priv, 0, wordVal (.ctxsv m d a)⟩)) ∧
  (∀ (m : Mark) (d a : Reg) (s : State) (k : Nat) (r : Word) (w : Bool), Issues (.ctxsv m d a) s → s.th.flow.ctx = some (k, r, w) →
    s.thread? k = none →
    s.threads.any (fun u => u.tile == s.th.tile && u.tid != s.th.tid && (u.flow.preempt == 2 || u.flow.leave == 4)) = false →
    Completes (.ctxsv m d a) s ((s.setCtx none).gw d (if w then r else 0))) ∧
  (∀ (m : Mark) (d a : Reg) (s u : State) (rb : List Byte), Issues (.ctxld m d a) s → (s.th.gr a).toNat % 64 = 0 →
    s.ldHeld s.th.acc .read (s.th.gr a) 64 = .ok rb u →
    let f := bits (wordAt rb 1) 11 2
    (s.th.priv = .s → f = s.th.dom) → u.atRest f = false → bits (wordAt rb 6) 63 62 ≠ 1 →
    ((u.freeSlots s.th.tile f).head? = none → Completes (.ctxld m d a) s (u.gw d 1)) ∧
    (∀ k, (u.freeSlots s.th.tile f).head? = some k →
      (∀ v, u.loadRecord f (s.th.gr a) (s.th.tile * 16 + k) = .ok v → Completes (.ctxld m d a) s (v.gw d 0)) ∧
      (u.loadRecord f (s.th.gr a) (s.th.tile * 16 + k) = .lost → Completes (.ctxld m d a) s (u.gw d 2)) ∧
      (∀ v, u.loadRecord f (s.th.gr a) (s.th.tile * 16 + k) = .invalid v → Completes (.ctxld m d a) s (v.gw d 3)) ∧
      (∀ x, u.loadRecord f (s.th.gr a) (s.th.tile * 16 + k) = .cut x →
        Completes (.ctxld m d a) s ((u.postFatal f (s.th.gr a) x).gw d 3)))) ∧
  (∀ (m : Mark) (d a : Reg) (s : State), Issues (.ctxld m d a) s →
    ((s.th.gr a).toNat % 64 ≠ 0 → Traps (.ctxld m d a) s ⟨.align, 0, s.th.gr a⟩) ∧
    (∀ x, (s.th.gr a).toNat % 64 = 0 → s.ldHeld s.th.acc .read (s.th.gr a) 64 = .trap x →
      (x.cause = .mcheck → Traps (.ctxld m d a) s x) ∧
      (x.cause ≠ .mcheck → Completes (.ctxld m d a) s ((s.postFatal s.th.dom (s.th.gr a) x.cause.code).gw d 3)))) ∧
  (∀ (m : Mark) (a : Reg) (s : State), s.th.flow.ctx.isSome = true → s.killWaits s.th.tid = false →
    (Issues (.kill m a) s → Completes (.kill m a) s (s.setCtx none)) ∧
    (Issues (.killDom m a) s → Completes (.killDom m a) s (s.setCtx none))) ∧
  (∀ (m : Mark) (a : Reg) (s : State), s.th.flow.ctx.isSome = true → s.killWaits s.th.tid = true →
    (Issues (.kill m a) s → exec (.kill m a) s = .next (State.holding (s.setCtx (some (2 ^ 20, 0, true))) 2)) ∧
    (Issues (.killDom m a) s → exec (.killDom m a) s = .next (State.holding (s.setCtx (some (2 ^ 20, 0, true))) 2))) ∧
  (∀ (m : Mark) (a : Reg) (s u : State) (rb : List Byte), Issues (.kill m a) s → s.th.flow.ctx = none →
    s.ldHeld s.th.acc .read (s.th.gr a) 64 = .ok rb u →
    let r := s.th.gr a
    let f := bits (wordAt rb 1) 11 2
    (s.th.priv = .s → f ≠ s.th.dom → Traps (.kill m a) s ⟨.priv, 0, wordVal (.kill m a)⟩) ∧
    ((s.th.priv = .s → f = s.th.dom) → s.th.home = f → s.th.info.addr = r → Traps (.kill m a) s ⟨.illstate, 0, s.th.pc⟩) ∧
    ((s.th.priv = .s → f = s.th.dom) → bits (wordAt rb 6) 63 62 ≠ 1 → ¬ (s.th.home = f ∧ s.th.info.addr = r) →
      let ts := u.threads.filter (fun w => w.home == f && w.info.addr == r)
      let ours := (ts.map (·.info.addr) ++ u.st.runq.map (·.recA) ++ u.ms.waits.map (·.recA) ++ u.asideRecs f ++
        u.eng.compacts.flatMap (fun c => c.2.members.flatMap (fun x => x.recs.map (·.2)))).filter (· == r)
      let v := (ts.foldl (fun z w => z.killThread s.th.tid w) u).killRecords f (fun x => ours.contains x)
      let st := bits (wordAt rb 1) 14 12
      let w := (if st = 1 ∨ st = 2 ∨ st = 3 then v.setRecState f r 4 else v).killJobs s.th.tid (fun j => (r :: ours).any (fun x => j.who == (f, x)))
      (w.killWaits w.th.tid = false → Completes (.kill m a) s (w.setCtx none)) ∧
      (w.killWaits w.th.tid = true → exec (.kill m a) s = .next (State.holding (w.setCtx (some (2 ^ 20, 0, true))) 2)))) ∧
  (∀ (m : Mark) (a : Reg) (s : State), Issues (.killDom m a) s → s.th.flow.ctx = none → s.th.dom = 0 → (s.th.gr a).toNat ≤ 512 →
    let u := s.killFunction (s.th.gr a).toNat (some s.th.tid)
    (u.killWaits u.th.tid = false → Completes (.killDom m a) s (u.setCtx none)) ∧
    (u.killWaits u.th.tid = true → exec (.killDom m a) s = .next (State.holding (u.setCtx (some (2 ^ 20, 0, true))) 2))) ∧
  (∀ (m : Mark) (a : Reg) (s : State), Issues (.killDom m a) s → s.th.flow.ctx = none →
    512 < (s.th.gr a).toNat → Traps (.killDom m a) s ⟨.illstate, 0, s.th.pc⟩)

/-- 15:R214-R215: TLBI with the thread's accesses acknowledged and no older access of the package outstanding drops the translations it
names and completes: of a page, of a partition, of all; else it holds. WDOG records a slot's new period, in S mode of a slot that its domain
owns, and traps on another slot or period. -/
def Obligations.TlbiAndWatchdog : Prop :=
  (∀ (i : Instr) (s : State) (p : TlbEntry → Bool) (fs : Nat → Bool), Issues i s → s.th.flow.ctx = none →
    ((∃ m a, i = .tlbiPage m a ∧ fs = (s.partFns s.th.dom).contains ∧
        p = (fun e => (s.partFns s.th.dom).contains e.fn && e.page == (s.th.gr a).toNat / 2 ^ e.shift)) ∨
     (∃ m, i = .tlbiPart m 0 ∧ fs = (s.partFns s.th.dom).contains ∧ p = (fun e => (s.partFns s.th.dom).contains e.fn)) ∨
     (∃ m b, i = .tlbiPart m b ∧ b ≠ 0 ∧ s.th.priv = .h ∧ s.isPart (bits (s.th.gr b).toNat 6 0) = true ∧
        fs = (s.bound (bits (s.th.gr b).toNat 6 0)).contains ∧ p = (fun e => (s.bound (bits (s.th.gr b).toNat 6 0)).contains e.fn)) ∨
     (∃ m, i = .tlbiAll m ∧ fs = (fun _ => true) ∧ p = (fun _ => true))) →
    let tcrs := s.st.tcrs.map (fun (x : Nat × Tcr) => if fs x.1 then (x.1, { x.2 with prev := [] }) else x)
    let e : State := { s with ms := { s.ms with tlb := s.ms.tlb.filter (fun e => !p e) }, st := { s.st with tcrs := tcrs } }
    (s.mayRelease s.th = false → exec i s = .next (s.holding 2)) ∧
    (s.mayRelease s.th = true → s.olderAccess s.fresh = false → Completes i s e) ∧
    (s.mayRelease s.th = true → s.olderAccess s.fresh = true →
      exec i s = .next (State.holding (e.setCtx (some (2 ^ 20, BitVec.ofNat 64 s.fresh, true))) 2))) ∧
  (∀ (m : Mark) (b : Reg) (s : State), Issues (.tlbiPart m b) s → b ≠ 0 →
    (s.th.priv = .s → Traps (.tlbiPart m b) s ⟨.priv, 0, wordVal (.tlbiPart m b)⟩) ∧
    (s.th.priv = .h → s.isPart (bits (s.th.gr b).toNat 6 0) = false → Traps (.tlbiPart m b) s ⟨.illstate, 0, s.th.pc⟩)) ∧
  (∀ (m : Mark) (a b : Reg) (s : State), Issues (.wdog m a b) s →
    let k := (s.th.gr a).toNat
    let e := (s.th.gr b).toNat
    (k ≤ 15 → e = 0 ∨ (16 ≤ e ∧ e ≤ 32) → s.th.priv = .h →
      let x := s.tile s.th.tile
      Completes (.wdog m a b) s (s.setTile s.th.tile { x with wdnew := x.wdnew.set k (if e = 0 then 24 else e) })) ∧
    (k ≤ 15 → e = 0 ∨ (16 ≤ e ∧ e ≤ 32) → s.th.priv = .s →
      let x := s.tile s.th.tile
      ((∃ n d, x.dp? s.th.dom = some (n, d) ∧ bitOf d.tslot k = true) →
        Completes (.wdog m a b) s (s.setTile s.th.tile { x with wdnew := x.wdnew.set k (if e = 0 then 24 else e) })) ∧
      ((x.dp? s.th.dom = none ∨ ∃ n d, x.dp? s.th.dom = some (n, d) ∧ bitOf d.tslot k = false) →
        Traps (.wdog m a b) s ⟨.priv, 0, wordVal (.wdog m a b)⟩)) ∧
    ((15 < k ∨ ¬ (e = 0 ∨ (16 ≤ e ∧ e ≤ 32))) → Traps (.wdog m a b) s ⟨.illstate, 0, s.th.pc⟩))

/-- 15:R203-R206: MFS delivers the register, MTS writes it; a register closed to the mode takes the privilege trap, a read-only one and a
value its map forbids the illegal-state trap. TS.FX takes the flags of the earlier forms of the run first, and waits for them; the accumulators' flags wait for their commands. -/
def Obligations.StateRegisters : Prop :=
  (∀ (m : Mark) (d : Reg) (r : BitVec 11) (s : State), Issues (.mfs m d r) s →
    ((regMode r.toNat s.th.priv = 0 ∨ s.foreignDp r.toNat = true) → Traps (.mfs m d r) s ⟨.priv, 0, wordVal (.mfs m d r)⟩) ∧
    (regMode r.toNat s.th.priv ≠ 0 → s.foreignDp r.toNat = false →
      (r.toNat ≠ 3 → ¬ (0x24 ≤ r.toNat ∧ r.toNat ≤ 0x27 ∧ s.accRunning s.th (r.toNat - 0x24) = true) →
        Completes (.mfs m d r) s (s.gw d (s.regRead r.toNat))) ∧
      (r.toNat = 3 → (s.th.awaitsFlags || s.acvtOut s.th) = false →
        let u := s.takeFlags
        Completes (.mfs m d r) s (u.gw d (u.th.fx.setWidth 64))) ∧
      (r.toNat = 3 → (s.th.awaitsFlags || s.acvtOut s.th) = true → exec (.mfs m d r) s = .next (s.holding 2)) ∧
      (0x24 ≤ r.toNat → r.toNat ≤ 0x27 → s.accRunning s.th (r.toNat - 0x24) = true → exec (.mfs m d r) s = .next (s.holding 1)))) ∧
  (∀ (m : Mark) (a : Reg) (r : BitVec 11) (s : State), Issues (.mts m a r) s →
    ((regMode r.toNat s.th.priv = 0 ∨ s.foreignDp r.toNat = true) → Traps (.mts m a r) s ⟨.priv, 0, wordVal (.mts m a r)⟩) ∧
    (regMode r.toNat s.th.priv = 1 → s.foreignDp r.toNat = false → Traps (.mts m a r) s ⟨.illstate, 0, s.th.pc⟩) ∧
    (r.toNat = 3 → (s.th.awaitsFlags || s.acvtOut s.th) = true → exec (.mts m a r) s = .next (s.holding 2)) ∧
    (r.toNat = 3 → (s.th.awaitsFlags || s.acvtOut s.th) = false → (s.th.gr a).toNat < 64 →
      let u := s.takeFlags
      Completes (.mts m a r) s { u with th := { u.th with fx := (s.th.gr a).setWidth 6 } }) ∧
    (regMode r.toNat s.th.priv = 2 → r.toNat ≠ 3 → s.foreignDp r.toNat = false →
      (∀ e, s.regWrite r.toNat (s.th.gr a) = some e → Completes (.mts m a r) s e) ∧
      (s.regWrite r.toNat (s.th.gr a) = none → Traps (.mts m a r) s ⟨.illstate, 0, s.th.pc⟩))) ∧
  (∀ (s : State) (x : Word) (p : Priv),
    regMode 0 p = 1 ∧ regMode 3 p = 2 ∧ regMode 0x4A .s = 0 ∧ regMode 0x4A .h = 2 ∧ regMode 0x60 .s = 0 ∧ regMode 0x40 .u = 0 ∧
    s.regRead 0 = s.th.pc ∧ s.regRead 3 = s.th.fx.setWidth 64 ∧ s.regRead 4 = s.th.oob ∧ s.regRead 0x10 = s.th.vv ∧
    s.regRead 0x41 = (s.th.bank s.th.priv).estat ∧ s.regRead 0x4D = s.th.sb.scr ∧
    (x.toNat < 64 → ∃ e, s.regWrite 3 x = some e ∧ e.th.fx.setWidth 64 = x ∧ e.ms = s.ms) ∧
    (64 ≤ x.toNat → s.regWrite 3 x = none) ∧
    (∀ e, s.regWrite 0x10 x = some e → e.th.vv = x ∧ e.th.regs = s.th.regs) ∧
    (x.toNat % 4 ≠ 0 → s.regWrite 0x44 x = none))

-- Tenancy ------------------------------------------------------------------------------------------------------------------------------

/-- 15:R217-R218, R220-R221, 25:R294-R295, 29:R336: PCFG delivers its status and does what `carve` says for the operation of its command
register, under each of its names; a reserved bit or operation traps. VFCFG binds and configures a function, L2MSK sets a mask; CLKJ
delivers 1 in a group and 0 once the join is agreed, and else waits; CLKL leaves. -/
def Obligations.PartitionsAndGroups : Prop :=
  (∀ (i : Instr) (s : State) (d a b : Reg), Issues i s →
    ((∃ m, i = .pcfgSplit m d a b) ∨ (∃ m, i = .pcfgMerge m d a b) ∨ (∃ m, i = .pcfgCreate m d a b) ∨ (∃ m, i = .pcfgDestroy m d a b) ∨
      (∃ m, i = .pcfgBind m d a b) ∨ (∃ m, i = .pcfgUnbind m d a b)) →
    let c := (s.th.gr b).toNat
    ((bits c 63 20 ≠ 0 ∨ bits c 9 4 ≠ 0 ∨ 6 ≤ bits c 3 0 ∨ (4 ≤ bits c 3 0 ∧ 512 < bits c 19 10)) → Traps i s ⟨.illstate, 0, s.th.pc⟩) ∧
    (bits c 63 20 = 0 → bits c 9 4 = 0 → bits c 3 0 < 6 → (4 ≤ bits c 3 0 → bits c 19 10 ≤ 512) →
      let r := s.carve (bits c 3 0) (bits (s.th.gr a).toNat 6 0) (bits c 19 10)
      Completes i s (r.2.gw d (BitVec.ofNat 64 r.1)))) ∧
  (∀ (s : State) (n f : Nat), (n = 0 ∨ s.isPart n = false → (s.carve 0 n f).1 = 2 ∧ (s.carve 3 n f).1 = 2 ∧ (s.carve 4 n f).1 = 2) ∧
    (s.isPart n = true → n ≠ 0 → s.nodeOf f = none →
      (s.carve 4 n f).1 = 0 ∧ (s.carve 4 n f).2 = (s.bindTo f n).touchVf f)) ∧
  (∀ (m : Mark) (d a b : Reg) (s u : State) (bs : List Byte) (n : Nat) (c : VfCfg), Issues (.vfcfg m d a b) s →
    (s.th.gr b).toNat % 64 = 0 → s.ldHeld s.th.acc .read (s.th.gr b) 64 = .ok bs u →
    let f := (s.th.gr a).toNat
    let put (z : State) : State := State.touchVf { z with st := { z.st with cfgs := setKey z.st.cfgs f c } } f
    ((512 < f ∨ cfgOf bs = none) → Traps (.vfcfg m d a b) s ⟨.illstate, 0, s.th.pc⟩) ∧
    (f ≤ 512 → cfgOf bs = some (n, c) →
      (u.nodeOf f = some n → Completes (.vfcfg m d a b) s ((put u).gw d 0)) ∧
      (u.nodeOf f ≠ none → u.nodeOf f ≠ some n → u.unbindable f = false → Completes (.vfcfg m d a b) s (u.gw d 1)) ∧
      ((u.nodeOf f = none ∨ (u.nodeOf f ≠ some n ∧ u.unbindable f = true)) →
        (u.isPart n = false → Completes (.vfcfg m d a b) s (u.gw d 2)) ∧
        (u.isPart n = true → Completes (.vfcfg m d a b) s ((put (u.bindTo f n)).gw d 0))))) ∧
  (∀ (m : Mark) (d a b : Reg) (s : State), Issues (.vfcfg m d a b) s → (s.th.gr b).toNat % 64 ≠ 0 →
    Traps (.vfcfg m d a b) s ⟨.align, 0, s.th.gr b⟩) ∧
  (∀ (m : Mark) (a b : Reg) (s : State), Issues (.l2msk m a b) s →
    ((512 < (s.th.gr a).toNat ∨ 65536 ≤ (s.th.gr b).toNat) → Traps (.l2msk m a b) s ⟨.illstate, 0, s.th.pc⟩) ∧
    ((s.th.gr a).toNat ≤ 512 → (s.th.gr b).toNat < 65536 →
      Completes (.l2msk m a b) s (State.touchVf { s with st := { s.st with
        l2mask := setKey s.st.l2mask (s.th.gr a).toNat (s.th.gr b).toNat } } (s.th.gr a).toNat))) ∧
  (∀ (m : Mark) (d a : Reg) (s : State), Issues (.clkj m d a) s →
    let g := (s.th.gr a).toNat
    ((g = 0 ∨ 65536 ≤ g) → Traps (.clkj m d a) s ⟨.illstate, 0, s.th.pc⟩) ∧
    (g ≠ 0 → g < 65536 → s.pl.joins.find? (·.1 == s.th.tid) = none → s.pl.group.isSome = true →
      Completes (.clkj m d a) s (s.gw d 1)) ∧
    (g ≠ 0 → g < 65536 → s.pl.joins.find? (·.1 == s.th.tid) = none → s.pl.group = none →
      exec (.clkj m d a) s = .next (State.holding ((s.setJoin s.th.tid (BitVec.ofNat 64 g)).emit (.ceiling g 64 s.ownCeil)) 2)) ∧
    (∀ x, g ≠ 0 → g < 65536 → s.pl.joins.find? (·.1 == s.th.tid) = some x →
      (bits x.2.toNat 33 33 = 1 → Completes (.clkj m d a) s ((s.dropJoin s.th.tid).gw d 2)) ∧
      (bits x.2.toNat 33 33 ≠ 1 → bits x.2.toNat 32 32 = 1 → Completes (.clkj m d a) s ((s.dropJoin s.th.tid).gw d 0)))) ∧
  (∀ (m : Mark) (d : Reg) (s : State), Issues (.clkl m d) s →
    (s.pl.group = none → Completes (.clkl m d) s (s.gw d 1)) ∧
    (s.pl.group.isSome = true → s.pl.autoJoin = true → s.eng.compacts.any (·.2.clk) = true → Completes (.clkl m d) s (s.gw d 2)) ∧
    (s.pl.group.isSome = true → s.pl.autoJoin = false →
      let u := (s.tellClock s.pl.index 128).outOfGroup
      Completes (.clkl m d) s ((u.setPl { u.pl with cur := s.ownCeil }).gw d 0)))

/-- 15:R219, R222, 25:R300-R304: DOMCFG clears, adjusts or writes a domain partition register, with its status; MEMBLK applies its command
and delivers the block's state, each under each of its names; reserved bits of their registers trap. -/
def Obligations.DomainsAndBlocks : Prop :=
  (∀ (i : Instr) (s : State) (d a b : Reg) (k : Nat), Issues i s →
    ((∃ m, i = .domcfgWrite m d a b) ∨ (∃ m, i = .domcfgAdjust m d a b) ∨ (∃ m, i = .domcfgClear m d a b)) →
    let x := (s.th.gr a).toNat
    let n := bits x 12 11
    let p := (s.tile k).dps.getD n .reset
    (bits x 14 13 = 2 → (s.th.gr b).toNat % 32 = 0 → bits x 63 15 = 0 → coordIdx (bits x 10 0) = some k →
      (s.retired k = true → Completes i s (s.gw d 3)) ∧
      (s.retired k = false → p.v = false → Completes i s (s.gw d 0)) ∧
      (s.retired k = false → p.v = true → s.domainBusy k p = true → Completes i s (s.gw d 1)) ∧
      (s.retired k = false → p.v = true → s.domainBusy k p = false → Completes i s (((s.clearDp k n p).touchVf p.dom).gw d 0))) ∧
    (bits x 14 13 = 2 → (s.th.gr b).toNat % 32 = 0 → (bits x 63 15 ≠ 0 ∨ coordIdx (bits x 10 0) = none) → Traps i s ⟨.illstate, 0, s.th.pc⟩) ∧
    ((s.th.gr b).toNat % 32 ≠ 0 → Traps i s ⟨.align, 0, s.th.gr b⟩) ∧
    (bits x 14 13 = 3 → (s.th.gr b).toNat % 32 = 0 → Traps i s ⟨.illstate, 0, s.th.pc⟩) ∧
    (∀ bs u, bits x 14 13 = 1 → (s.th.gr b).toNat % 32 = 0 → s.ldHeld s.th.acc .read (s.th.gr b) 32 = .ok bs u →
      bits x 63 15 = 0 → coordIdx (bits x 10 0) = some k → u.retired k = false →
      let p := (u.tile k).dps.getD n .reset
      let q := { p with weight := (dpOf bs).weight, cway := (dpOf bs).cway }
      (p.v = false → Completes i s (u.gw d 2)) ∧
      (p.v = true → q.weight ≠ 0 → ((u.tile k).otherDps n).all (waysApart q) = true →
        Completes i s (((u.putDp k n q).touchVf q.dom).gw d 0))) ∧
    (∀ bs u, bits x 14 13 = 0 → (s.th.gr b).toNat % 32 = 0 → s.ldHeld s.th.acc .read (s.th.gr b) 32 = .ok bs u →
      bits x 63 15 = 0 → coordIdx (bits x 10 0) = some k → u.retired k = false → dpReserved bs = false →
      (u.tile k).dpOk n (dpOf bs) = true →
      (((u.tile k).dps.getD n .reset).v = true → Completes i s (u.gw d 1)) ∧
      (((u.tile k).dps.getD n .reset).v = false → (u.nodeOf (dpOf bs).dom).any (fun j => nodeTile j k) = true →
        Completes i s ((((u.putDp k n (dpOf bs)).resetWdog k (dpOf bs).tslot).touchVf (dpOf bs).dom).gw d 0)))) ∧
  (∀ (i : Instr) (s : State) (d a b : Reg), Issues i s →
    ((∃ m, i = .memblkOffer m d a b) ∨ (∃ m, i = .memblkQuery m d a b) ∨ (∃ m, i = .memblkCancel m d a b)) →
    let k := (s.th.gr a).toNat
    let c := (s.th.gr b).toNat
    let bad := 288 ≤ k ∨ bits c 63 32 ≠ 0 ∨ bits c 15 9 ≠ 0 ∨ bits c 1 0 = 3 ∨ (bits c 1 0 = 0 ∧ (bits c 31 16 = 0 ∨ bits c 8 2 = 0))
    (bad → Traps i s ⟨.illstate, 0, s.th.pc⟩) ∧
    (¬ bad → Completes i s ((s.moveCmd k c).gw d ((s.moveCmd k c).moveWord k)))) ∧
  (∀ (s : State) (k c : Nat),
    (bits c 1 0 = 1 → s.moveCmd k c = s) ∧
    (bits c 1 0 = 2 → (s.move k).state = 1 → s.moveCmd k c = s.moveTo k 5 2) ∧
    (bits c 1 0 = 2 → (s.move k).state ≠ 1 → s.moveCmd k c = s) ∧
    (bits c 1 0 = 0 → 1 ≤ (s.move k).state → (s.move k).state ≤ 3 → s.moveCmd k c = s))

-- Steps without an encoding -----------------------------------------------------------------------------------------------------------

/-- 03:R28-R35, R48, 07:R79, 09:R115, 13:R177-R182, 17:R230-R232, R237-R239, 21:R271, 23:R287, 27:R312-R313: steps of threads and of their
tiles. A park that has its results writes them; a held fault and an asynchronous cause are taken at the boundary; a stopped thread leaves,
and a leaving one leaves its slot when nothing of it is in flight; the watchdog marks the thread that holds its slot, and closes its
packet; an illegal word and a failing fetch trap; a WAITA leaves its slot; a store tries again once the larder has room. A walk fills the
TLB; a request at the home directory goes through the tile's cache; an access to a tile's SRAM reads or writes it. A free slot claims the
first record of its domain's queue; a gang whose members have all arrived goes on; a packet enters the queue of its domain or is refused,
and its guard resolves. -/
def Obligations.ThreadSteps : Prop :=
  (∀ (s : State) (tid : Nat) (t : Thread), s.thread? tid = some t →
    let u := s.focus tid
    let g := u.th.giveUp
    (u.th.status = .parked → u.th.outsDone = true →
      Does (.parkComplete tid) s (State.takePark { u with th := u.th.countEv 4 ((u.tile u.th.tile).cyc - u.th.flow.since).toNat })) ∧
    (∀ x, u.th.heldHere = none → u.th.due = some x → u.th.flow.outs = [] →
      let f := if x.cause == .wdog then { g.flow with wdog := false, aborted := false } else { g.flow with asyncs := g.flow.asyncs.erase x }
      Does (.asyncCause tid) s (State.enterTrap { u with th := { g with flow := f } } x g.pc)) ∧
    (∀ h, u.th.heldHere = some h →
      Does (.asyncCause tid) s (State.raise { u with th := { u.th with flow := { u.th.flow with held := u.th.flow.held.erase h } } } h.1 h.2)) ∧
    (u.stopDue u.th = true → u.th.flow.outs = [] →
      let k := u.stopKind u.th
      let v : State := { u with th := { g with flow := { g.flow with leave := if k = 2 then 4 else if k = 3 then 5 else 3 } } }
      (v.mayLeave v.th = true → Does (.preemption tid) s (v.leaveGang v.th)) ∧
      (v.mayLeave v.th = false → Does (.preemption tid) s (State.suspend { v with th := { v.th with status := .leaving } })))) ∧
  (∀ (s : State) (tid : Nat) (t : Thread), s.thread? tid = some t →
    (t.status = .leaving → s.mayLeave t = true → (t.flow.leave < 3 ∨ 6 ≤ t.flow.leave) → Does (.leaveSlot tid) s (s.leaveSlot t)) ∧
    (t.status = .leaving → s.mayLeave t = true → 3 ≤ t.flow.leave → t.flow.leave < 6 →
      Does (.leaveSlot tid) s ((s.gangOfThread t).foldl (fun z u => match z.thread? u.tid with
        | some v => z.leaveSlot (if v.tid = t.tid then t else v)
        | none => z) s)) ∧
    (t.status = .leaving → s.mayLeave t = false → Does (.leaveSlot tid) s s) ∧
    (t.flow.holder = true → t.priv ≠ .h → t.status = .ready → t.flow.hold ≠ 3 →
      Does (.slotWatchdogExpiry tid) s (s.setThread { t with flow := { t.flow with wdog := true } })) ∧
    ((t.flow.holder = false ∨ t.priv = .h ∨ t.status ≠ .ready ∨ t.flow.hold = 3) → Does (.slotWatchdogExpiry tid) s s) ∧
    (t.flow.wdog = true → t.flow.packet.isSome = true →
      Does (.packetAbort tid) s (s.setThread { t with flow := { t.flow with packet := none, aborted := true } })) ∧
    (t.status = .waiting → t.flow.waitVa.isSome = true → t.flow.waitAt.isSome = true → (s.nodeOf t.home).isSome = true → t.info.kind ≠ 1 → t.caller = none → s.memberOf tid = none →
      let u : Thread := { t with flow := { t.flow with leave := 2 } }
      (s.leaveReady u = true → Does (.waitaSuspend tid) s (s.leaveSlot u)) ∧
      (s.leaveReady u = false → Does (.waitaSuspend tid) s (s.setThread { u with status := .leaving }))) ∧
    (t.flow.hold = 3 → s.larderUsed (dieOf t.tile) < 2097152 → t.flow.holder = true → s.canRun t = true →
      Does (.larderRoom tid) s (s.focus tid))) ∧
  (∀ (s : State) (t : Thread), t.flow.leave = 1 ∨ t.flow.leave = 3 →
    let t := { t with info := { t.info with ckv := false, rin := 0 } }
    let w1 := s.putLines t.home 1100 t.info.save (t.image ++ t.block)
    let w2 := w1.1.putLines t.home 2 t.info.addr (t.record (if t.flow.leave = 1 then 4 else 1))
    w1.2 = none → w2.2 = none →
    s.leaveSlot t = if t.flow.leave = 1 then (w2.1.vacate t.tid).orphanJobs t.who
      else ((w2.1.vacate t.tid).keepCauses t).enqueue ⟨dieOf t.tile, t.home, t.info.pri, t.info.addr⟩) ∧
  (∀ (s : State), s.th.live = true →
    (∀ w : BitVec 32, Does (.illegalEncoding w) s (s.trapping (.illegalEncoding w) ⟨.illenc, 0, illencTval w.toNat s.th.hints.length⟩)) ∧
    (∀ x, s.fetchAt s.th.pc = .trap x → Does (.instructionFetchFault s.th.pc) s (s.trapping (.instructionFetchFault s.th.pc) x))) ∧
  (∀ (s : State) (tid : Nat) (k : AccKind) (va : Word) (t : Thread), s.thread? tid = some t → canonical va = true →
    (∀ x, s.tlb? t.tile t.fn va.toNat = some x → permError x.leaf t.priv k = none → x.leaf ||| needBits k = x.leaf →
      Does (.pageWalk tid k va) s (s.onThread tid (·.walkEvents k (some x)))) ∧
    (∀ ea e sh seen, s.tlb? t.tile t.fn va.toNat = none → bitOf (s.rootOf t.fn) 0 = true → s.pkgLive (bits (s.rootOf t.fn) 51 48) = true →
      s.walkFrom va.toNat walkLevels (bits (s.rootOf t.fn) 51 8 * 256) [] = .ok (ea, e, sh, seen) →
      (leafError e sh va.toNat = none → permError e t.priv k = none →
        Does (.pageWalk tid k va) s ((((seen.reverse.foldl (fun z a => z.walkRead t.fn a) s).walkSet t.fn ea e (needBits k)).tlbFill
          ⟨t.tile, t.fn, va.toNat / 2 ^ sh, sh, e ||| needBits k, ea⟩).onThread tid (·.walkEvents k none))) ∧
      (leafError e sh va.toNat ≠ none ∨ permError e t.priv k ≠ none → Does (.pageWalk tid k va) s s))) ∧
  (∀ (s : State) (k : AccKind) (tile dom pa line : Nat), lineOf (pa % 2 ^ 48) = some line → regionOf (pa % 2 ^ 48) = .dram →
    (s.pinOfHome line ≠ none → Does (.directoryRequest k tile dom pa) s s) ∧
    (s.pinOfHome line = none →
      (k = .read ∨ k = .fetch →
        Does (.directoryRequest k tile dom pa) s (s.cacheAccess tile dom line (sectorMask line (pa % 2 ^ 48) 1) false 0).1) ∧
      (∀ u, k = .write ∨ k = .atomic → s.tagged dom line (s.rinOf dom) (pa % 2 ^ 48) false = .ok u →
        Does (.directoryRequest k tile dom pa) s (u.cacheAccess tile dom line (sectorMask line (pa % 2 ^ 48) 1) true 0).1))) ∧
  (∀ (s : State) (tile off dom : Nat) (data : List Byte), tile < 1536 → s.retired tile = false → off < Config.sramSize →
    s.bankGranted tile dom (off / Config.bankSize) = true → s.bankScratch tile (off / Config.bankSize) = true →
    s.pinOfSram tile (off / 192) = none → s.badAt (sramAddr tile off) (Nat.max data.length 1) = false →
    Does (.globalTileSpaceRequest .read tile off dom data) s s ∧
    Does (.globalTileSpaceRequest .write tile off dom data) s
      ((s.write (sramAddr tile off) data).wakeLine (waitLine (sramAddr tile off)))) ∧
  (∀ (s u : State) (tid : Nat) (d : Dp) (e : RunEntry) (rest : List RunEntry), s.thread? tid = none → s.retired (tid / 16) = false →
    (s.tile (tid / 16)).dps.filter (fun d => d.v && bitOf d.tslot (tid % 16)) = [d] → s.slicedOut d.dom = false →
    s.atRest d.dom = false → s.nodeOf d.dom ≠ none → s.runList (dieOf (tid / 16)) d.dom 3 = e :: rest →
    (∀ g n, s.recGang e ≠ some (1, g, n)) →
    (s.loadRecord e.dom e.recA tid = .ok u → Does (.recordClaim tid) s ((u.unqueue e).sliceStart d.dom)) ∧
    (s.loadRecord e.dom e.recA tid = .invalid u → Does (.recordClaim tid) s ((u.unqueue e).sliceStart d.dom)) ∧
    (∀ c, s.loadRecord e.dom e.recA tid = .cut c → Does (.recordClaim tid) s ((s.cutQueue e c).sliceStart d.dom))) ∧
  (∀ (s : State) (tile gang : Nat) (t : Thread),
    s.threads.find? (fun t => t.tile == tile && t.info.kind == 1 && t.info.gang == gang) = some t →
    (∀ u ∈ s.gangOfThread t, u.flow.gba = true ∧ s.storesDone u.tid = true) →
    Does (.gangBarrierComplete tile gang) s ((s.gangOfThread t).foldl (fun z u => z.onThread u.tid (fun u =>
      if u.status = .gbar then (let v := u.stepOver; { v with flow := { v.flow with gba := false } })
      else { u with flow := { u.flow with gba := false, gdone := true } })) s)) ∧
  (∀ (s : State) (tid i : Nat) (x : Arrival), coordIdx (x.coord % 2048) = some i →
    let answer (z : State) (r : Reply) : State :=
      if x.pkg < 16 then (z.flitsIn x.dom ((x.beats.length + 59) / 60)).sendReply x.dom x.pkg x.tag r []
      else (z.portReceived x.dom).emit (.reply x.pkg x.tag r [])
    (∀ n d, s.retired i = false → (s.tile i).dp? x.dom = some (n, d) → ((s.tile i).rxq.getD n []).length + x.beats.length ≤ 512 →
      let v := s.setTile i { s.tile i with rxq := (s.tile i).rxq.set n ((s.tile i).rxq.getD n [] ++ packetBeats x.beats x.sender) }
      Does (.packetAccept tid (some x)) s (answer v .done)) ∧
    ((s.retired i = true ∨ (s.tile i).dp? x.dom = none) → Does (.packetAccept tid (some x)) s (answer s .domain))) ∧
  (∀ (s : State) (tid : Nat) (t : Thread) (p : Packet) (rest : List Packet), s.thread? tid = some t → t.flow.egress = p :: rest →
    let sent (z : State) (ok : Bool) : State :=
      (z.onThread tid (fun t => { t with flow := { t.flow with egress := rest } })).toRouter (.packetAck tid p.guard ok)
    (s.coordOf t.dom p.coord = none → Does (.packetAccept tid none) s (sent s false)) ∧
    (∀ k i, s.coordOf t.dom p.coord = some (k, s.me, i) → coordIdx (p.coord % 2048) = some i →
      ((s.retired i = true ∨ (s.tile i).dp? t.dom = none) → Does (.packetAccept tid none) s (sent s false)) ∧
      (∀ n d, s.retired i = false → (s.tile i).dp? t.dom = some (n, d) → ((s.tile i).rxq.getD n []).length + p.beats.length ≤ 512 →
        Does (.packetAccept tid none) s (sent (s.setTile i { s.tile i with rxq := (s.tile i).rxq.set n ((s.tile i).rxq.getD n [] ++
          packetBeats p.beats (s.pl.pkg * 2048 + idxCoord t.tile)) }) true)))) ∧
  (∀ (s : State) (tid q : Nat) (ok : Bool),
    s.eng.router.find? (fun m => match m with | .packetAck src _ _ => src == tid | _ => false) = some (.packetAck tid q ok) →
    Does (.sendeAcknowledgement tid) s ((s.dropMsg (.packetAck tid q ok)).onThread tid (·.resolve q (if ok then .tru else .fls))))

/-- 03:R43-R47, 11:R151-R166, 13:R186-R198, 29:R333: steps of compacts, matrix units, engines and task units. A boundary whose members have
arrived, with nothing in flight, gives the vote's result (the bitwise or, the bitwise and, or the saturated sum of the codes), serves the
deferred reads and goes to its step 4; a pre-empted compact comes back; the last DISSOLVE publishes the pins; exchange entries land; a lost
exchange faults the compact. A matrix unit accepts, runs by four rows and ends commands, takes its scale entries, and answers those of
other tiles, whose answers resolve guards. An engine accepts, starts and ends jobs, a fill ends in its window, and a task unit places the
first ready node. -/
def Obligations.UnitSteps : Prop :=
  (∀ (s : State) (bar : Nat) (votes : List (Nat × Nat)) (c : Compact), s.compact? bar = some c → c.preempted = false → c.fault = 0 →
    (∀ v ∈ votes, v.2 < 16) →
    (c.phase = 1 → s.gangStill bar c = true → Does (.compactBoundary bar votes) s (s.preemptCompact bar c)) ∧
    (c.phase = 2 → s.gangStill bar c = true → Does (.compactBoundary bar votes) s (s.sealCompact bar c)) ∧
    (∀ z d, c.phase = 0 → s.tellArrivals bar c = some (z, d) → d.members.length + votes.length ≠ d.nmem → Does (.compactBoundary bar votes) s z) ∧
    (c.phase = 0 → s.tellArrivals bar c = none → (∀ m ∈ c.members, m.vote.isSome = true ∧ ∃ t, s.thread? m.tid = some t ∧ t.status = .sync) →
      c.members.length + votes.length = c.nmem → c.fly = [] → c.sent = [] →
      (∀ t ∈ s.gangOf bar, s.storesDone t.tid = true ∧ s.farAwaited c t = false) →
      let vs := c.members.filterMap (·.vote)
      let kinds := vs.map (fun v => v.2.1) ++ votes.map (·.2)
      ((∃ k ∈ kinds, k % 4 ≠ kinds.headD 0 % 4) → Does (.compactBoundary bar votes) s (s.faultCompact bar c 1)) ∧
      ((∀ k ∈ kinds, k % 4 = kinds.headD 0 % 4) →
        let r := voteOf (kinds.headD 0 % 4) (vs.map (·.1) ++ votes.map (·.1))
        let s1 := c.members.foldl (fun z m => match m.vote with
          | some (_, _, q) => z.onThread m.tid (·.resolve q (if r = 0 then .fls else .tru))
          | none => z) s
        let next (m : Member) : Member :=
          { m with vote := none, told := false, exchDone := false, variant := if c.superstep = 0 then 0 else Nat.min r (m.plan.length - 1) }
        let d : Compact := { c with superstep := c.superstep + 1, members := c.members.map next }
        let s2 := d.members.foldl (fun z m => z.serveReads m.tile 64) (s1.setCompact bar d)
        let s3 := (s2.pinsOf bar).foldl (fun z p => z.wakePin d.dom p) s2
        let k := s3.stepFour bar d kinds
        Does (.compactBoundary bar votes) s (if k = 0 then s3.resumeCompact bar d else s3.setCompact bar { d with phase := k })))) ∧
  (∀ (vs : List Nat), voteOf 0 vs = vs.foldl (· ||| ·) 0 ∧ voteOf 1 vs = vs.foldl (· &&& ·) 3 ∧ voteOf 2 vs = min vs.sum 3) ∧
  (∀ (s u : State) (bar : Nat) (c : Compact), s.compact? bar = some c → s.slicedOut c.dom = false → s.atRest c.dom = false → c.preempted = true →
    (∀ m ∈ c.members, ∀ r ∈ m.recs, r.1 % 16 ∈ s.freeSlots (r.1 / 16) c.dom) → s.pl.refills.any (·.bar == bar) = false →
    s.pl.posted.any (·.tid == 2 ^ 60 + bar) = false →
    let far := (s.pinsOf bar).filter (fun p => p.away && 2 ^ 60 ≤ p.line)
    (far ≠ [] → Does (.compactResume bar) s ((s.askRefills c.dom far).sliceStart c.dom)) ∧
    (far = [] → (c.members.flatMap (·.recs)).foldl (fun (z : Option State) r => z.bind (fun z => match z.loadRecord c.dom r.2 r.1 with
        | .ok z => some z
        | _ => none)) (some s) = some u →
      let s1 := u.setCompact bar { c with preempted := false, phase := 0, members := c.members.map (fun m => { m with recs := [] }) }
      let s2 := c.members.foldl (fun z m => z.emptyBanks m.tile (z.compactBank m.tile)) s1
      let s3 := (s2.pinsOf bar).foldl (fun (z : State) p =>
        if 2 ^ 60 ≤ p.line then z else (z.othersYield noTile c.dom p.line true).write (sramAddr p.tile (p.sline * 192))
          (if c.phase = 4 && !p.scl then List.replicate 192 0 else z.read p.line 192)) s2
      let s4 : State := { s3 with ms := { s3.ms with
        pins := s3.ms.pins.map (fun (p : Pin) => if p.bar = bar && p.far.isNone then { p with away := false, dirty := 0 } else p) } }
      Does (.compactResume bar) s
        ((c.members.foldl (fun z m => z.onThread m.tid (fun t => { t with flow := { t.flow with synced := true } })) s4).sliceStart c.dom))) ∧
  (∀ (s : State) (bar : Nat) (c : Compact), s.compact? bar = some c → c.members ≠ [] → (∀ m ∈ c.members, m.dissolving = true) → c.fault = 0 →
    let s1 := (s.pinsOf bar).foldl (fun z p => z.publish c.dom c.node p) s
    let s2 := c.members.foldl (fun z m => z.serveReads m.tile z.ms.defer.length) s1
    let e := c.members.foldl (fun z m => z.onThread m.tid (fun t => { t with flow := { t.flow with ddone := true } })) (s2.dropCompact bar)
    Does (.dissolveAllArrived bar) s e ∧ e.compact? bar = none) ∧
  (∀ (s : State) (bar tile off : Nat) (data : List Byte) (c : Compact), s.compact? bar = some c → data ≠ [] →
    c.members.any (·.tile == tile) = true → off + data.length ≤ Config.sramSize →
    let v := s.tileStore tile off data
    Does (.exchangeWrite bar (tile, off) data none none) s v ∧
    (∀ o, Does (.exchangeWrite bar (tile, off) data (some o) none) s (v.bumpFlag tile o)) ∧
    (∀ p tag, p < 16 → Does (.exchangeWrite bar (tile, off) data none (some (p, tag))) s
      ((v.flitsIn c.dom (dataFlits data.length)).sendReply c.dom p tag .done []))) ∧
  (∀ (s : State) (bar k i : Nat) (c : Compact) (x : ExchEntry) (rest : List ExchEntry), s.compact? bar = some c → c.fly = x :: rest →
    s.coordOf c.dom x.dst = some (k, s.me, i) → k ≤ 1 →
    let v := (s.setCompact bar { c with fly := rest }).tileStore i x.doff (s.read (sramAddr x.src x.soff) x.len)
    Does (.exchangeWrite bar (0, 0) [] none none) s (if x.fe then v.bumpFlag i x.foff else v)) ∧
  (∀ (s : State) (bar : Nat) (c : Compact), s.compact? bar = some c → c.fault = 0 →
    let d : Compact := { c with fault := 3 }
    let e := if c.clk then (s.setCompact bar d).emit (.arrival bar 0 35) else s.setCompact bar d
    Does (.uetConnectionFailed bar) s e ∧
    (c.xto ≠ 0 → (c.fly.any (·.path == 1) = true ∨ c.sent.any (·.path == 1) = true) → c.members.all (·.vote.isSome) = true →
      Does (.xtimeout bar) s e) ∧
    (c.xto = 0 → Does (.xtimeout bar) s s)) ∧
  (∀ (s : State) (tile : Nat) (th : Thread) (e : MEntry) (rest : List MEntry),
    ((List.range 16).map (fun i => tile * 16 + ((s.tile tile).mlast + 1 + i) % 16)).findSome? (fun x =>
      (s.thread? x).filter (fun t => !t.flow.mq.isEmpty)) = some th → th.flow.mq = e :: rest →
    let pop (z : State) : State := z.onThread th.tid (fun t => { t with flow := { t.flow with mq := rest } })
    (th.cond e.guard = .fls → Does (.matrixAccept tile) s (pop s)) ∧
    (th.cond e.guard = .tru → e.cmd.isScale = false → th.readsAcc e.cmd.off = false →
      let t := s.tile tile
      let v := s.setTile tile { t with mlast := th.slot, mrun := t.mrun ++ [⟨e, [], [], 0, 0, t.cyc⟩] }
      Does (.matrixAccept tile) s (pop (if e.cmd.isGone then v else
        v.onThread e.tid (fun th => { th.capture with mu := { th.mu with wm := th.mu.wm.set e.cmd.acc 0 } }))))) ∧
  (∀ (s : State) (tile : Nat) (r : MRun) (rest : List MRun) (e : ScaleEntry), (s.tile tile).mrun = r :: rest →
    r.entry.cmd.scaled = true → r.scales.length < r.entry.cmd.chunks →
    (s.tile tile).scq.find? (fun e => e.slot == r.entry.tid % 16 && e.acc == r.entry.cmd.acc) = some e →
    Does (.takeScale tile) s (s.setTile tile { s.tile tile with
      scq := (s.tile tile).scq.erase e, mrun := { r with scales := r.scales ++ [e.bytes] } :: rest })) ∧
  (∀ (s : State) (tile : Nat) (r : MRun) (rest : List MRun), (s.tile tile).mrun = r :: rest →
    (r.entry.cmd.scaled = true → r.entry.cmd.chunks ≤ r.scales.length) → r.res ≠ [] → r.entry.cmd.isGone = false →
    let later := rest.any (fun q => q.entry.tid == r.entry.tid && q.entry.cmd.acc == r.entry.cmd.acc)
    (r.rows < 28 → Does (.matrixCommandComplete tile) s
      ((s.setTile tile { s.tile tile with mrun := { r with rows := r.rows + 4 } :: rest }).onThread r.entry.tid (r.writeRows later))) ∧
    (28 ≤ r.rows → Does (.matrixCommandComplete tile) s ((s.setTile tile { s.tile tile with mrun := rest }).onThread r.entry.tid (fun th =>
      ((r.writeRows later th).countEv 8 1).countEv 9 ((s.tile tile).cyc - r.since).toNat)))) ∧
  (∀ (s : State) (tile t src q acc dom : Nat) (a b k cap : Word),
    firstFor tile isMmar s.eng.router [] = some (.mmar t src q acc a b k cap dom) →
    let answer (z : State) (code : Nat) : State := (z.dropMsg (.mmar t src q acc a b k cap dom)).toRouter (.status src q 1 code)
    (∀ x, s.capCheck tile cap dom (if k = 0 then [40, 42] else [40]) acc = .error x → Does (.mmarReceive tile) s (answer s x)) ∧
    (∀ dp h oa ob wa wb, s.capCheck tile cap dom (if k = 0 then [40, 42] else [40]) acc = .ok (dp, h) →
      (s.tile tile).operands a b k = .ok ((oa, wa), (ob, wb)) → s.windowTrap h [a.toNat % 32, b.toNat % 32] = none →
      (k = 0 → Does (.mmarReceive tile) s (answer ((s.setTile tile { s.tile tile with
        mrecv := (s.tile tile).mrecv.filter (fun e => !(e.sender == src && e.cmd.acc == acc)) }).useCap tile dp) 0)) ∧
      (k ≠ 0 → (s.tile tile).mrecv.length < 16 →
        let e : MEntry := ⟨.mma acc (h.bound ((h.ao acc).getD 0)) oa ob k.toNat, 0, h.tid, src⟩
        Does (.mmarReceive tile) s (answer (((s.setTile tile { s.tile tile with mrecv := (s.tile tile).mrecv ++ [e] }).onThread h.tid
          (fun th => { th with mu := th.mu.setOwn acc 1 })).useCap tile dp) 0)))) ∧
  (∀ (s : State) (tid q unit code : Nat),
    s.eng.router.find? (fun m => match m with | .status src _ _ _ => src == tid | _ => false) = some (.status tid q unit code) →
    Does (.mmarStatus tid) s ((s.dropMsg (.status tid q unit code)).onThread tid (fun t =>
      if code = 0 then t.resolve q .tru
      else { t.resolve q .fls with mu := { (t.resolve q .fls).mu with rst := unit * 16 + code } }))) ∧
  (∀ (s : State) (tile t src q acc dom : Nat) (es : List (List Byte)),
    firstFor tile isScaleMsg s.eng.router [] = some (.scale t src q acc dom es) →
    let x := s.tile tile
    let answer (z : State) (code : Nat) : State := (z.dropMsg (.scale t src q acc dom es)).toRouter (.scaleAck src q code)
    (s.retired tile = true → Does (.scaleMessage tile) s (answer s 3)) ∧
    (s.retired tile = false → x.dp? dom = none → Does (.scaleMessage tile) s (answer s 6)) ∧
    (∀ dp d slot, s.retired tile = false → x.dp? dom = some (dp, d) → x.host.getD dp (false, 0) = (true, slot) →
      es.length ≤ x.scaleRoom dom →
      Does (.scaleMessage tile) s (answer (s.setTile tile { x with
        scq := x.scq ++ es.map (fun b => (⟨dom, slot, acc, b⟩ : ScaleEntry)) }) 0))) ∧
  (∀ (s : State) (tid q : Nat), q < 16 →
    let ack (g : Nat) (m : RouterMsg) : Bool := match m with | .scaleAck src k _ => src == tid && k == g | _ => false
    let away (g : Nat) (m : RouterMsg) : Bool := match m with | .scale _ src k _ _ _ => src == tid && k == g | _ => false
    (∀ g, g < q → s.eng.router.any (ack g) = false) → s.eng.router.any (ack q) = true → s.eng.router.any (away q) = false →
    let u : State := { s with eng := { s.eng with router := s.eng.router.filter (fun m => !ack q m) } }
    let bad := ((s.eng.router.filter (ack q)).map (fun m => match m with | .scaleAck _ _ c => c | _ => 0)).filter (· != 0)
    (bad = [] → Does (.scalemcAcknowledgement tid) s (u.onThread tid (·.resolve q .tru))) ∧
    (∀ c, bad.getLast? = some c → Does (.scalemcAcknowledgement tid) s (u.onThread tid (fun t =>
      { t.resolve q .fls with mu := { (t.resolve q .fls).mu with rst := 2 * 16 + c } })))) ∧
  (∀ (s : State) (tile t src q dom : Nat) (off ctl cap : Word),
    firstFor tile isAcvt s.eng.router [] = some (.acvt t src q off ctl cap dom) →
    let answer (x : RouterMsg) : State := (s.dropMsg (.acvt t src q off ctl cap dom)).toRouter x
    (acvtCtl ctl = none → Does (.acvtRemote tile) s (answer (.status src q 3 7))) ∧
    (∀ k, acvtCtl ctl = some k →
      (∀ x, s.capCheck tile cap dom [41] k.acc = .error x → Does (.acvtRemote tile) s (answer (.status src q 3 x))) ∧
      (∀ dp h, s.capCheck tile cap dom [41] k.acc = .ok (dp, h) → (s.tile tile).mrecv = [] → (s.tile tile).mrun = [] → h.rowsDone k = true →
        let r := h.acvtRows ((h.ao k.acc).getD 0) k
        Does (.acvtRemote tile) s (((s.useCap tile dp).dropMsg (.acvt t src q off ctl cap dom)).toRouter (.rows src q off r.1 r.2))))) ∧
  (∀ (s : State) (tid q : Nat) (off : Word) (bs : List Byte) (fx : BitVec 6) (t : Thread),
    s.eng.router.find? (fun m => match m with | .rows src _ _ _ _ => src == tid | _ => false) = some (.rows tid q off bs fx) →
    s.thread? tid = some t →
    let w := if q < 8 then { t with dom := t.home } else t
    (s.localCheck w off.toNat bs.length off.toNat = .ok →
      Does (.acvtReply tid) s (((s.localStore w off.toNat bs).dropMsg (.rows tid q off bs fx)).onThread tid (fun t => (t.resolve q .tru).orFlags q fx))) ∧
    (∀ x, s.localCheck w off.toNat bs.length off.toNat = .trap x →
      Does (.acvtReply tid) s (((s.dropMsg (.rows tid q off bs fx)).onThread tid (fun t => t.resolve q .fls)).refuseD tid x))) ∧
  (∀ (s : State) (e : Nat) (j : JobEntry), s.engineUsed e < queueSize e → nearest (s.engine e).last (s.engine e).subs = some j →
    Does (.copyEngineAccept e) s
      ((s.setEngine e { s.engine e with subs := (s.engine e).subs.erase j, last := j.tile }).accept e j).2) ∧
  (∀ (s u : State) (e : Nat) (j : JobEntry) (c : List Byte) (x : Trap), s.nextStart e = some j →
    let v := s.setEngine e { s.engine e with last := if e < 192 then (s.engine e).last else j.tile }
    (v.jobGuard j = .fls → Does (.jobStart e) s (v.setJob e { j with stage := 1, st := 5, acts := [] })) ∧
    (v.jobGuard j ≠ .fls → j.win = none →
      (v.engRead j.acc j.card 256 = .error x →
        Does (.jobStart e) s (v.setJob e { j with stage := 1, st := if x.jobCode = 0 then 3 else 4, code := x.jobCode, faddr := x.tval, fx := 0 })) ∧
      (v.engRead j.acc j.card 256 = .ok (c, u) → j.cls = 0 →
        let k : JobEntry := { j with reads := cardReads c, writes := cardWrites c, acts := cardActs c }
        (cardBreaches 1 c ≠ [] → Does (.jobStart e) s (u.setJob e { k with stage := 1, st := 4, code := 7, faddr := 0, fx := 0 })) ∧
        (cardBreaches 1 c = [] →
          let r := u.copyPayload k c
          let l : JobEntry := { k with stage := 1, todo := r.2.2.1, esz := r.2.2.2, st := if r.2.1.code = 0 then 3 else 4
                                       code := r.2.1.code, faddr := r.2.1.faddr, fx := r.2.1.fx }
          Does (.jobStart e) s ((r.1.setJob e l).pump e l))))) ∧
  (∀ (s u : State) (e : Nat) (j : JobEntry) (rest : List JobEntry), (s.engine e).jobs.filter (fun j => j.stage == 1 || j.stage == 3) = j :: rest →
    s.jobPosted (jobTid e j.jid) = false →
    (j.stage = 3 → Does (.completionAction e) s (s.jobOver e j)) ∧
    (j.stage = 1 → j.todo = [] → j.acts = [] → j.card.toNat % 256 = 0 → j.early = false →
      s.writeStatus j.acc (jobTid e j.jid) j.card j.st j.code j.fx.toNat j.jid j.faddr = (u, none, []) →
      (u.jobPosted (jobTid e j.jid) = true → Does (.completionAction e) s (u.setJob e { j with stage := 3 })) ∧
      (u.jobPosted (jobTid e j.jid) = false → Does (.completionAction e) s (u.jobOver e j)))) ∧
  (∀ (s : State) (tile w : Nat) (j : JobEntry) (x : Win),
    (s.engine (copyEngine tile)).jobs.find? (fun j => j.win == some w && j.tile == tile && j.stage == 2) = some j →
    ((s.dropJob (copyEngine tile) j.jid).tile tile).win? w = some x →
    let u := s.dropJob (copyEngine tile) j.jid
    let y : Win := if j.early && j.st == 4 then { x with state := 0 } else { x with state := if j.st = 3 then 2 else 3, code := j.code, faddr := j.faddr }
    (x.drop = true → Does (.windowFillEnd tile w) s (u.dropWindow tile w)) ∧
    (x.drop = false → Does (.windowFillEnd tile w) s (u.setTile tile ((u.tile tile).setWin w y)))) ∧
  (∀ (s u v w : State) (die d tid : Nat) (n : TaskNode) (rest : List TaskNode),
    ((s.eng.tasks.filter (fun n => n.die == die)).map (·.dom)).dedup = [d] → s.slicedOut d = false → s.atRest d = false → s.nodeOf d ≠ none →
    s.pantryList die d 3 = n :: rest → s.taskSlot n = some tid → s.runList die d 3 = [] →
    let gone (z : State) : State := { z with eng := { z.eng with
      tasks := z.eng.tasks.map (fun (x : TaskNode) => if x == n then { x with started := true } else x)
      pantry := z.eng.pantry.erase (n.die, n.id) } }
    let t := n.kern.thread n.dom n.recA n.save n.arg 0 2 n.die n.id n.pri
    (∀ x, s.writeThread t = .error x → Does (.taskDispatch die) s (((gone s).postFatal n.dom n.recA x.cause.code).sliceStart d)) ∧
    (s.writeThread t = .ok u → u.bindTable n.dom n.kern [tid / 16] = some v → v.loadRecord n.dom n.recA tid = .ok w →
      Does (.taskDispatch die) s ((gone w).sliceStart d)))

/-- 21:R267-R277, 23:R278-R292, 25:R293-R310: the steps of the stewards. A write of VCP.NOTIFY marks its queues; a pass begins, stops or
finds a bad entry; a command starts and moves the read index on, a fence and a launch complete; a seal goes PREPARE, PREPARED, COMMIT,
acknowledgement, SEALED; a rollback starts, stops its package and goes back; a hang and a replay roll back; the deadline of a block's move
ends it, and a scrubbed block is zero; budgets renew; a function resets. -/
def Obligations.StewardSteps : Prop :=
  (∀ (s : State) (f : Nat) (k : BitVec 8), Does (.vcpNotify f k) s (s.notify f k.toNat)) ∧
  (∀ (s : State) (f q : Nat),
    let x := (s.vcp f).queue q
    let z : Queue := { x with pending := false, seen := x.ctl }
    let y : Queue := if x.state = 0 then { z with state := 1, qrd := 0 } else z
    let lg := Queue.log x.ctl
    (x.pass.isSome = true → s.nextEntry f q = none → Does (.queuePass f q) s (s.queueError f q x 5)) ∧
    (x.pass = none → (s.vcp f).firstPending = some q → s.atRest f = false →
      (Queue.enabled x.ctl = false → Does (.queuePass f q) s (s.setQueue f q { z with state := 0, qrd := 0 })) ∧
      (Queue.enabled x.ctl = true → x.state = 3 ∨ x.state = 4 → Does (.queuePass f q) s (s.setQueue f q z)) ∧
      (Queue.enabled x.ctl = true → x.state ≠ 3 → x.state ≠ 4 →
        (lg < 4 ∨ 16 < lg → Does (.queuePass f q) s (s.queueError f q y 1)) ∧
        (4 ≤ lg → lg ≤ 16 →
          ((s.cfg f).qmax < Queue.prio x.ctl → Does (.queuePass f q) s (s.queueError f q y 2)) ∧
          (Queue.prio x.ctl ≤ (s.cfg f).qmax →
            (s.ringOk f (BitVec.ofNat 64 (x.base.toNat / 65536 * 65536)) 1 .read = false →
              Does (.queuePass f q) s (s.queueError f q y 3)) ∧
            (s.ringOk f (BitVec.ofNat 64 (x.base.toNat / 65536 * 65536)) 1 .read = true →
              (s.ringTouch f x.base (64 * 2 ^ lg) .read = none → Does (.queuePass f q) s (s.queueError f q y 4)) ∧
              (∀ u, s.ringTouch f x.base (64 * 2 ^ lg) .read = some u →
                let n := (y.qwr + 2 ^ 32 - y.qrd) % 2 ^ 32
                (2 ^ lg < n → Does (.queuePass f q) s (u.queueStop f q y 4 y.code)) ∧
                (n ≤ 2 ^ lg → Does (.queuePass f q) s
                  (u.setQueue f q { y with pass := if n = 0 then none else some (x.base, x.ctl, x.qwr) }))))))))) ∧
  (∀ (s : State) (f q : Nat) (e : List Nat), Entry s f q 0 e →
    Does (.nop f q) s ((s.entryRead f q).setQueue f q ((s.vcp f).queue q).advance.settled)) ∧
  (∀ (s : State) (f q : Nat) (e : List Nat), Entry s f q 4 e → ((s.vcp f).queue q).cmds = [] →
    let z := s.entryRead f q
    (∀ t, z.signal f (BitVec.ofNat 64 (e.getD 1 0)) (leBytes 8 (e.getD 2 0)) = .error t →
      Does (.signal f q) s (z.queueError f q ((s.vcp f).queue q) 5)) ∧
    (∀ u, z.signal f (BitVec.ofNat 64 (e.getD 1 0)) (leBytes 8 (e.getD 2 0)) = .ok u →
      Does (.signal f q) s (u.setQueue f q ((u.vcp f).queue q).advance.settled))) ∧
  (∀ (s : State) (f q : Nat) (e : List Nat), Entry s f q 5 e →
    let z := s.entryRead f q
    let va := BitVec.ofNat 64 (e.getD 1 0)
    (∀ t, z.sysWord f va = .error t → Does (.wait f q) s (z.queueError f q ((s.vcp f).queue q) 5)) ∧
    (∀ v, z.sysWord f va = .ok v →
      (e.getD 2 0 ≤ v → Does (.wait f q) s ((z.sysTouch f va 8).setQueue f q ((s.vcp f).queue q).advance.settled)) ∧
      (v < e.getD 2 0 → ∀ ps u, z.sysPieces f .read va 8 = .ok (ps, u) →
        (u.ms.mem = z.ms.mem → Does (.wait f q) s s) ∧ (u.ms.mem ≠ z.ms.mem → Does (.wait f q) s u)))) ∧
  (∀ (s : State) (f q : Nat),
    let x := (s.vcp f).queue q
    (∀ c rest, x.cmds = c :: rest → c.op = 3 → sealedPast (s.rinOf f) c.upto = true →
      Does (.qfence f q) s (s.setQueue f q (Queue.settled { x with cmds := rest, fence := c.idx }))) ∧
    (∀ e, Entry s f q 3 e → x.cmds = [] →
      let z := s.entryRead f q
      let w := z.signal f (BitVec.ofNat 64 (e.getD 1 0)) (leBytes 8 x.qrd ++ leBytes 8 (z.rinOf f))
      (∀ t, w = .error t → Does (.qfence f q) s (z.queueError f q x 5)) ∧
      (∀ u, w = .ok u →
        let y := (u.vcp f).queue q
        (u.rinOf f = 0 → Does (.qfence f q) s (u.setQueue f q (Queue.settled { y.advance with fence := y.qrd }))) ∧
        (u.rinOf f ≠ 0 → Does (.qfence f q) s (u.setQueue f q { y.advance with cmds := [⟨3, y.qrd, [], [], 0, none, u.rinOf f⟩] }))))) ∧
  (∀ (s : State) (f q : Nat) (e : List Nat), Entry s f q 1 e →
    let h := BitVec.ofNat 64 (e.getD 1 0)
    let stat := BitVec.ofNat 64 (e.getD 6 0)
    let z := (s.entryRead f q).sysTouch f h 64
    let prio := match ((s.vcp f).queue q).pass with | some (_, ctl, _) => Queue.prio ctl | none => 0
    (∀ c, z.launchHeader f h true = .error c → Does (.launch f q) s (z.launchFails f q c e)) ∧
    (∀ k, z.launchHeader f h true = .ok k →
      let ts := (List.range (e.getD 5 0)).map (launchThread k f prio e)
      (z.bindTable f k (z.launchTiles f) = none → Does (.launch f q) s (z.launchFails f q 4 e)) ∧
      (∀ b, z.bindTable f k (z.launchTiles f) = some b →
        let ok (va : Word) (n : Nat) : Prop := b.usable f .read va n = true ∧ b.usable f .write va n = true
        let room := (∀ t ∈ ts, ok t.info.addr 64 ∧ ok t.info.save ((t.gran + 1) * 1024)) ∧ (stat = 0 ∨ b.usable f .write stat 8 = true)
        (¬ room → Does (.launch f q) s (z.launchFails f q 5 e)) ∧
        (room →
          let u := ts.foldl State.putThread b
          let dies := u.launchDies f
          let v := (ts.zip (List.range ts.length)).foldl (fun s (p : Thread × Nat) =>
            s.enqueue ⟨dies.getD (p.2 % dies.length) 0, f, prio, p.1.info.addr⟩) u
          let y := (v.vcp f).queue q
          Does (.launch f q) s (v.setQueue f q
            { y.advance with cmds := y.cmds ++ [⟨1, y.qrd, ts.map (·.info.addr), [], stat, none, 0⟩] }))))) ∧
  (∀ (s : State) (f q : Nat) (c : Command) (more : List Command) (recA : Word) (tile k : Nat) (rest : List (Word × Nat)), s.atRest f = false →
    ((s.vcp f).queue q).cmds = c :: more → c.todo = (recA, tile) :: rest →
    (s.retired tile = true → Does (.claunch f q) s (s.memberFails f q c recA rest)) ∧
    (s.retired tile = false → s.slicedOut f = false → (s.freeSlots tile f).head? = some k →
    let placed (u : State) : State :=
      let u := u.sliceStart f
      let x := (u.vcp f).queue q
      u.setQueue f q { x with cmds := x.cmds.map (fun d => if d == c then { d with todo := rest } else d) }
    (∀ u, s.loadRecord f recA (tile * 16 + k) = .ok u ∨ s.loadRecord f recA (tile * 16 + k) = .invalid u → Does (.claunch f q) s (placed u)) ∧
    (s.loadRecord f recA (tile * 16 + k) = .lost → Does (.claunch f q) s (placed s)) ∧
    (∀ n, s.loadRecord f recA (tile * 16 + k) = .cut n → Does (.claunch f q) s ((placed s).postFatal f recA n)))) ∧
  (∀ (s : State) (f q : Nat) (e : List Nat), Entry s f q 2 e → (∀ c ∈ ((s.vcp f).queue q).cmds, c.todo = []) →
    let hd := BitVec.ofNat 64 (e.getD 1 0)
    let a1 := BitVec.ofNat 64 (e.getD 2 0)
    let stat := BitVec.ofNat 64 (e.getD 6 0)
    let z := ((s.entryRead f q).sysTouch f hd 64).sysTouch f a1 64
    let prio := match ((s.vcp f).queue q).pass with | some (_, ctl, _) => Queue.prio ctl | none => 0
    (∀ c, z.launchHeader f hd false = .error c → Does (.claunch f q) s (z.launchFails f q c e)) ∧
    (∀ k, z.launchHeader f hd false = .ok k →
      (∀ t, z.sysRead f a1 64 = .error t → Does (.claunch f q) s (z.launchFails f q 5 e)) ∧
      (∀ h, z.sysRead f a1 64 = .ok h →
        let n := bits (wordAt h 0) 15 0
        (n = 0 ∨ 24576 < n ∨ bits (wordAt h 0) 25 16 ≠ f → Does (.claunch f q) s (z.launchFails f q 6 e)) ∧
        (n ≠ 0 → n ≤ 24576 → bits (wordAt h 0) 25 16 = f →
          (∀ t, z.sysRead f a1 (64 + 288 * n) = .error t → Does (.claunch f q) s (z.launchFails f q 5 e)) ∧
          (∀ bs, z.sysRead f a1 (64 + 288 * n) = .ok bs →
            let y := z.sysTouch f a1 (64 + 288 * n)
            (y.launchMembers f bs n = none → Does (.claunch f q) s (y.launchFails f q 6 e)) ∧
            (∀ ms, y.launchMembers f bs n = some ms →
              (y.launchLoft f (e.getD 5 0) (e.getD 7 0) = none → Does (.claunch f q) s (y.launchFails f q 7 e)) ∧
              (∀ loft, y.launchLoft f (e.getD 5 0) (e.getD 7 0) = some loft →
                let ts := ms.map (fun m => { launchThread k f prio e m.1 with pc := m.2.2 })
                let recs := ts.map (·.info.addr)
                (y.bindTable f k (ms.map (·.2.1)) = none → Does (.claunch f q) s (y.launchFails f q 4 e)) ∧
                (∀ b, y.bindTable f k (ms.map (·.2.1)) = some b →
                  let ok (va : Word) (n : Nat) : Prop := b.usable f .read va n = true ∧ b.usable f .write va n = true
                  let room := (∀ t ∈ ts, ok t.info.addr 64 ∧ ok t.info.save ((t.gran + 1) * 1024)) ∧ (stat = 0 ∨ b.usable f .write stat 8 = true)
                  (¬ room → Does (.claunch f q) s (y.launchFails f q 5 e)) ∧
                  (room →
                    let u := ts.foldl State.putThread b
                    let v := match loft with | some (i, w) => u.takeLoft i w f | none => u
                    let x := (v.vcp f).queue q
                    Does (.claunch f q) s (v.setQueue f q { x.advance with
                      cmds := x.cmds ++ [⟨2, x.qrd, recs, recs.zip (ms.map (·.2.1)), stat, loft.map (·.1), 0⟩] })))))))))) ∧
  (∀ (s : State) (f q : Nat) (c : Command) (rest : List Command), ((s.vcp f).queue q).cmds = c :: rest → c.op = 1 ∨ c.op = 2 → c.todo = [] →
    (∀ r ∈ c.recs, s.recState f r = some 4 ∨ s.recState f r = some 5) →
    let u := (s.endLoft c).launchStatus f c.stat (if ∃ r ∈ c.recs, s.recState f r = some 5 then 2 else 1) 0
    let x := (u.vcp f).queue q
    Does (.launchComplete f q) s (u.setQueue f q (Queue.settled { x with cmds := x.cmds.erase c }))) ∧
  (∀ (s : State) (n : Nat), (s.rgs n).sealing = true → (s.rgs n).prepared.contains s.me = false → (s.rgs n).roll = none →
    s.partsDone n = true →
    let g := s.rgs n
    let z := (s.cleanLines (s.lineOfNode n)).restamp n (nextRin g.rin)
    let u := z.setRgs n { g with prepared := z.me :: g.prepared, next := z.recordSeal n }
    (u.coordinator n = u.me → Does (.prepare n) s (u.tryCommit n)) ∧
    (u.coordinator n ≠ u.me → Does (.prepare n) s (u.emit (.steward 1 n (u.coordinator n))))) ∧
  (∀ (s : State) (n p : Nat),
    let z := s.settleCommit n
    (z.rgs n).prepared.contains p = false → (z.rgs n).peers.contains p = true → (z.rgs n).roll = none →
    Does (.prepared n p) s ((z.setRgs n { z.rgs n with prepared := p :: (z.rgs n).prepared }).tryCommit n)) ∧
  (∀ (s : State) (n : Nat), (s.rgs n).sealing = true → (s.rgs n).cmt = false → (s.rgs n).roll = none →
    (s.rgs n).prepared.contains s.me = true → s.coordinator n ≠ s.me →
    Does (.commit n) s ((s.setRgs n { s.rgs n with cmt := true }).emit (.steward 3 n (s.coordinator n)))) ∧
  (∀ (s : State) (n p : Nat), (s.rgs n).sealing = true → (s.rgs n).acked.contains p = false → (s.rgs n).peers.contains p = true →
    s.coordinator n = s.me → (s.rgs n).roll = none → (∀ k ∈ s.groupPkgs n, (s.rgs n).prepared.contains k = true) →
    let g := { s.rgs n with acked := p :: (s.rgs n).acked }
    ((∀ k ∈ g.peers, g.acked.contains k = true) →
      Does (.commitAck n p) s (g.peers.foldl (fun s k => s.emit (.steward 4 n k)) (s.setRgs n { g with cmt := true }))) ∧
    (¬ (∀ k ∈ g.peers, g.acked.contains k = true) → Does (.commitAck n p) s (s.setRgs n g))) ∧
  (∀ (s : State) (n : Nat), ((s.rgs n).cmt = true → Does (.sealed n) s (s.applySealed n)) ∧ ((s.rgs n).cmt = false → Does (.sealed n) s s)) ∧
  (∀ (s : State) (n : Nat), (s.rgs n).sealing = true → (s.rgs n).late = false →
    Does (.sealTimeout n) s ((s.setRgs n { s.rgs n with late := true }).mapThreads (fun t =>
      if s.nodeOf t.dom = some n ∨ s.nodeOf t.home = some n then
        (if t.caller.isSome ∧ t.flow.sealed = false then
          { t with flow := { t.flow with asyncs := t.flow.asyncs ++ [⟨.sealto, 0, BitVec.ofNat 64 (s.rgs n).rin⟩] } } else t)
      else t))) ∧
  (∀ (s : State) (n c p l : Nat), s.isPart n = true → c ≠ 0 → c ≠ 7 →
    let z := s.settleCommit n
    ((z.rgs n).ccap = 0 ∨ z.inCellar n p l = true → Does (.rollback n c p l) s (z.noRoll n p l true)) ∧
    ((z.rgs n).ccap ≠ 0 → z.inCellar n p l = false → (z.rgs n).roll = none →
      let u := ((z.setRgs n { z.rgs n with roll := some ⟨c, p, l⟩ }).stopGroup n).clearQueues n
      Does (.rollback n c p l) s (if p = u.me then (u.rgs n).peers.foldl (fun s k => s.emit (.rollback n k c p l)) u else u))) ∧
  (∀ (s : State) (n p l : Nat), s.isPart n = true → (s.rgs n).roll.isSome = true → s.pl.posted.any (·.node == n) = false →
    (s.rgs n).stopped.any (·.1 == s.me) = false →
    let g := s.rgs n
    Does (.rollback n 0 p l) s (g.peers.foldl (fun s k => s.emit (.stopped n k g.rin g.cmt))
      (s.setRgs n { g with stopped := (s.me, g.rin, g.cmt) :: g.stopped }))) ∧
  (∀ (s : State) (n p l : Nat) (r : Roll), s.isPart n = true → (s.rgs n).roll = some r →
    (∀ k ∈ s.groupPkgs n, (s.rgs n).stopped.any (·.1 == k) = true) → (∀ x ∈ (s.rgs n).stopped, x.2.2 = false) →
    Does (.rollback n 0 p l) s (s.rollTo n r)) ∧
  (∀ (s : State) (n c l : Nat), s.isPart n = false → c = 1 ∨ c = 2 → Does (.rollback n c s.me l) s (s.strike (l % 2 ^ 48))) ∧
  (∀ (s : State) (n l i : Nat), s.isPart n = false → coordIdx (l % 2048) = some i → Does (.rollback n 3 s.me l) s (s.strikeReg i (l / 2048))) ∧
  (∀ (s : State) (n p l : Nat), s.isPart n = true → Does (.rollback n 7 p l) s (s.noRoll n p l false)) ∧
  (∀ (s : State) (n : Nat), (s.isPart n = true → Does (.replay n) s (s.rollBack n 8 s.me 0)) ∧ (s.isPart n = false → Does (.replay n) s s)) ∧
  (∀ (s : State) (f q i : Nat), s.oldest f q = some i → bits ((s.vcp f).queue q).seen.toNat 47 32 ≠ 0 → s.slicedOut f = false →
    let z := s.postEvent f 4 (pack [(q, 32), (i, 0)])
    let y := if f = 0 then z else z.postEvent 0 4 (pack [(q, 32), (i, 0)])
    (∀ n, y.nodeOf f = some n → Does (.hang f q) s (State.rollBack y n 8 y.me 0)) ∧
    (y.nodeOf f = none → Does (.hang f q) s y)) ∧
  (∀ (s : State), Does .budgetPeriod s s.renew ∧ s.renew.st.used = [] ∧
    s.renew.st.limits = s.st.cfgs.flatMap (fun p => (List.range 4).map (fun k => (4 * p.1 + k, p.2.budget k)))) ∧
  (∀ (s : State) (n f left : Nat), s.slicer n = some f →
    left = (match s.st.slice.find? (fun p => p.1 == n && p.2.1 == f) with | some (_, _, k) => k | none => (s.cfg f).weight) →
    let put (g k : Nat) : State := { s with st := { s.st with slice := (n, g, k) :: s.st.slice.filter (fun p => p.1 != n) } }
    let g := ((s.workers n).find? (f < ·)).getD ((s.workers n).headD f)
    (1 < left → Does (.sliceChange n) s (put f (left - 1))) ∧
    (left ≤ 1 → g = f → Does (.sliceChange n) s (put f (s.cfg f).weight)) ∧
    (left ≤ 1 → g ≠ f → Does (.sliceChange n) s ((put g (s.cfg g).weight).mapThreads (fun t =>
      if t.home = f && t.flow.preempt = 0 then { t with flow := { t.flow with preempt := 1 } } else t)))) ∧
  (∀ (s : State) (b k n : Nat) (x : Word), k = bits x.toNat 11 10 → n = bits x.toNat 6 0 → b < 288 →
    (s.blockRetired b = true ∨ bits x.toNat 63 16 ≠ 0 ∨ k = 3 ∨ (k = 0 ∧ n ≠ 0) ∨ (1 ≤ (s.move b).state ∧ (s.move b).state ≤ 3) →
      Does (.bownWrite b x) s s) ∧
    (s.blockRetired b = false → bits x.toNat 63 16 = 0 → k ≠ 3 → (k = 0 → n = 0) → (s.move b).state = 0 ∨ 4 ≤ (s.move b).state →
      (∀ p, s.owner b = some p → s.isPart p = true ∧ s.bound p = []) → (k ≠ 0 → s.isPart n = true ∧ s.bound n = []) →
      (s.blockKind b = 2 → (s.rgs (s.blockNode b)).cuse = 0) → (k = 2 → (s.rgs n).cuse = 0) →
      let u : State := { s with st := { s.st with bown := setKey s.st.bown b (pack [(k, 10), (n, 0)]) } }
      Does (.bownWrite b x) s ((u.countCellar (s.blockNode b)).countCellar n))) ∧
  (∀ (s : State) (f b : Nat) (x : Word), b = bits x.toNat 8 0 → bits x.toNat 63 20 = 0 → bitOf x.toNat 15 = true → b < 288 → s.nodeOf f ≠ none →
    ((s.move b).state = 1 → s.nodeOf f = s.owner b →
      (s.blockHeld b = true ∨ s.lastCellar b = true → Does (.mbackAck f x) s (s.moveTo b 5 3)) ∧
      (s.blockHeld b = false → s.lastCellar b = false → Does (.mbackAck f x) s (s.startScrub b))) ∧
    ((s.move b).state = 3 → s.nodeOf f = some (s.move b).gain → s.lastCellar b = true → Does (.mbackAck f x) s (s.moveTo b 5 3)) ∧
    ((s.move b).state = 3 → s.nodeOf f = some (s.move b).gain → s.lastCellar b = false →
      let u := s.moveTo b 4 0
      let v : State := { u with st := { u.st with bown := setKey u.st.bown b (pack [(1, 10), ((s.move b).gain, 0)]) } }
      Does (.mbackAck f x) s ((v.countCellar (s.blockNode b)).countCellar (s.move b).gain)) ∧
    ((s.move b).state ≠ 1 → (s.move b).state ≠ 3 → Does (.mbackAck f x) s s)) ∧
  (∀ (s : State) (b : Nat), (s.move b).state = 1 ∨ (s.move b).state = 3 → Does (.moveDeadline b) s (s.moveTo b 5 1)) ∧
  (∀ (s : State) (b : Nat), (s.move b).state = 2 → Does (.scrubDone b) s (s.scrubbed b)) ∧
  (∀ (s : State) (b : Nat), ∃ u : State, s.scrubbed b = u.moveTo b 3 0 ∧
    ∀ a, u.read a 1 = if b * Config.blockSize ≤ a ∧ a < (b + 1) * Config.blockSize then [0] else s.read a 1) ∧
  (∀ (s : State) (f : Nat), (f ≠ 0 → Does (.flr f) s (State.resetFn (· == f) s f)) ∧
    Does (.flr 0) s ((List.range 513).foldl (State.resetFn (fun _ => true)) s))

/-- 29:R321-R339, 31:R340-R347, 17:R348: the steps of fabric, clocks, power, sparing, boot and host link. A shared package stays in the
fabric; training, lanes, answers, losses and dead packages act as their operations give; a ceiling above 60 is not written; a silent member
leaves after its eviction; a thermal trip sets CK.STAT.CUR to 0; a cold reset gives the machine back as reset leaves it, but its firmware
versions and slots and the host's memory; function interfaces lock, start and stop in order; a configuration request before boot is answered with a retry. -/
def Obligations.PlatformSteps : Prop :=
  (∀ (s : State), s.pl.en = false → Does .bfEnable s { s with pl := { s.pl with en := true, trained := false } }) ∧
  (∀ (s : State), s.pl.en = true → s.shared = false →
    let u := s.livePeers.foldl (fun s j => s.emit (.steward 6 0 j)) s
    Does .bfLeave s { u with pl := { u.pl with
      en := false, trained := false, joined := false, peers := u.pl.peers.map (fun (p : Nat × Peer) => (p.1, { p.2 with st := 0, relay := 0 })) } }) ∧
  (∀ (s : State), s.pl.en = true → s.shared = true → Does .bfLeave s s) ∧
  (∀ (s : State) (ps : List Nat), s.pl.en = true → s.pl.portsDown = false →
    let new := ps.filter (fun j => j < 16 && j != s.me && ((s.peer j).st == 0 || (s.peer j).st == 3))
    let u := new.foldl (fun s j => s.setPeer j { s.peer j with st := 1, relay := 0 }) s
    (s.pl.trained = false → Does (.linkTraining ps true) s
      { s with pl := { s.pl with peers := s.pl.peers.map (fun (p : Nat × Peer) => (p.1, { p.2 with st := 0, relay := 0 })) } }) ∧
    (s.pl.trained = false ∨ new ≠ [] → Does (.linkTraining ps false) s
      (new.foldl State.reroute { u with pl := Plat.portsUp { u.pl with trained := true, joined := true } })) ∧
    (s.pl.trained = true → new = [] → Does (.linkTraining ps false) s s)) ∧
  (∀ (s : State), Does .heartbeat s (s.livePeers.foldl (fun s j => s.emit (.heartbeat j)) s)) ∧
  (∀ (s : State) (j l : Nat), j < 16 → j ≠ s.me → l < 48 →
    let p := s.peer j
    let k := (p.checks.filter (·.1 == l)).length
    Does (.laneTest j l true) s s ∧
    (p.lanes.contains l = true → Does (.laneTest j l false) s s) ∧
    (p.lanes.contains l = false →
      (k < 2 → Does (.laneTest j l false) s (s.setPeer j { p with checks := p.checks ++ [(l, 100)] })) ∧
      (2 ≤ k → Does (.laneTest j l false) s
        ((s.setPeer j { p with checks := p.checks.filter (·.1 != l), lanes := p.lanes ++ [l] }).reroute j)))) ∧
  (∀ (s : State) (j : Nat), (s.peer j).spu < Nat.min (s.peer j).fail 2 →
    let u := s.setPeer j { s.peer j with spu := (s.peer j).spu + 1 }
    Does (.laneSparingComplete j) s ((u.inFlight j).foldl (fun s g => s.emit (.resend j g)) u)) ∧
  (∀ (s : State) (tag : Nat) (r : Reply), Does (.storeAck tag r) s (s.reply tag r [])) ∧
  (∀ (s : State) (j l tag : Nat) (r : Reply) (bs : List Byte), Does (.flitReceive j l true tag r bs) s ((s.forgetNacks tag).reply tag r bs) ∧
    (let u := (s.checkLane j l false).getD s
     let k := lookupD u.pl.nacked tag 0
     (k < 16 → Does (.flitReceive j l false tag r bs) s
       (State.emit { u with pl := { u.pl with nacked := setKey u.pl.nacked tag (k + 1) } } (.nack j tag))) ∧
     (16 ≤ k → Does (.flitReceive j l false tag r bs) s ((u.lose tag).getD (u.forgetNacks tag))))) ∧
  (∀ (s : State) (tag : Nat),
    let u := s.forgetNacks tag
    (∀ p, u.ethernetTag tag = some p → Does (.flitLost tag) s
      (((u.count (325 + Config.uetPort s.fresh % 8) ((u.ownerOf tag).getD 0) 3 1).emit (.resend p tag)).tick)) ∧
    (∀ n, u.ethernetTag tag = none → u.groupOfTag tag = some n →
      Does (.flitLost tag) s (u.rollBack n 4 s.me (Config.lostPlane s.fresh % 48)).tick) ∧
    (∀ f, u.ethernetTag tag = none → u.groupOfTag tag = none → u.ownerOf tag = some f → Does (.flitLost tag) s (u.reply tag .lost []))) ∧
  (∀ (s : State) (k : ReqKind) (pa dom pkg tag rin : Nat) (bs : List Byte), pa / 2 ^ 48 ≠ s.me → (∀ p t, k ≠ .forward p t) →
    (s.peer (pa / 2 ^ 48)).st = 1 → Does (.remoteRequest k pa dom (pkg, tag) rin bs) s
      ((s.count 324 (dom % 1024) 3 (Nat.max 1 (reqFlits k bs.length))).emit (.passed k (pa / 2 ^ 48) pkg tag pa dom rin bs))) ∧
  (∀ (s : State) (pa dom pkg tag rin : Nat) (bs : List Byte), pa / 2 ^ 48 = s.me →
    let off := pa % 2 ^ 48
    let f := dom % 1024
    let priv : Priv := if dom < 1024 then .s else .h
    let got (k : ReqKind) : State := s.flitsIn f (reqFlits k bs.length)
    (∀ k, Does (.remoteRequest (.acc k) pa dom (pkg, tag) rin bs) s
      ((got (.acc k)).answerServed f pkg tag ((got (.acc k)).serve k f priv off (Nat.max bs.length 1) bs pkg tag rin))) ∧
    Does (.remoteRequest .wake pa dom (pkg, tag) rin bs) s ((got .wake).wakeLine (waitLine off)) ∧
    (let u := got .waiter
     Does (.remoteRequest .waiter pa dom (pkg, tag) rin bs) s
      { u with ms := { u.ms with waits := u.ms.waits ++ [⟨waitLine off, 0, f, 0, 0, some (pkg, tag)⟩] } }) ∧
    (∀ bar init, let u := got (.pin bar init)
      Does (.remoteRequest (.pin bar init) pa dom (pkg, tag) rin bs) s (u.answerServed f pkg tag (u.servePin bar init f priv off pkg))) ∧
    (∀ bar dirty, let u := got (.unpin bar dirty)
      Does (.remoteRequest (.unpin bar dirty) pa dom (pkg, tag) rin bs) s
        ((u.farPinned bar pkg off (fun p s => (s.unpinFar p pkg).sectorsHome f off rin dirty bs)).answer f pkg tag .done [])) ∧
    (∀ bar dirty, let u := got (.publish bar dirty)
      Does (.remoteRequest (.publish bar dirty) pa dom (pkg, tag) rin bs) s
        ((u.farPinned bar pkg off (fun p s => (s.unpinFar p pkg).owned f rin off (noTile + 1 + pkg) off dirty bs)).answer f pkg tag .done [])) ∧
    (∀ bar dirty away, let u := got (.save bar dirty away)
      Does (.remoteRequest (.save bar dirty away) pa dom (pkg, tag) rin bs) s
        ((u.farPinned bar pkg off (fun p s =>
          let z : State := { s with ms := { s.ms with pins := s.ms.pins.map (fun (q : Pin) => if q = p then { q with away := away } else q) } }
          (if away then z.answered off pkg else z).sectorsHome f off rin dirty bs)).answer f pkg tag .done [])) ∧
    (∀ p t, Does (.remoteRequest (.forward p t) pa dom (pkg, tag) rin bs) s
      ((got (.forward p t)).answerServed f p t ((got (.forward p t)).serve .read f priv off (Nat.max bs.length 1) bs p t rin))) ∧
    (∀ k line, k = .clean ∨ k = .inval ∨ k = .discard ∨ k = .check → lineOf off = some line →
      Does (.remoteRequest k pa dom (pkg, tag) rin bs) s ((got k).serveLine k f rin line pkg tag))) ∧
  (∀ (s : State) (p : Nat), p < 16 → p ≠ s.me → (s.peer p).st ≠ 3 →
    let u := (s.setPeer p { s.peer p with st := 3, relay := 0 }).leaveClock p
    let v := (u.st.parts.filter (fun n => (u.rgs n).peers.contains p)).foldl (fun s n => s.rollDead n p) u
    let w := (((v.dropSent (·.pkg == p)).failDead p).serveDead p).wakeFar (· % 16 == p)
    Does (.packageDead p) s ((List.range 16).foldl (fun s j => if (s.peer j).st = 2 then s.reroute j else s)
      ((w.inFlight p).foldl (fun s g => s.reply g .notile []) w))) ∧
  (∀ (s : State) (f p w : Nat) (x : Word), Does (.eptWrite f p w x) s (s.eptPut f p w x)) ∧
  (∀ (s : State) (l : Nat), (60 < l → Does (.hceilWrite l) s s) ∧
    (l ≤ 60 → Does (.hceilWrite l) s (State.ceilChanged (s.setPl { s.pl with hceil := l })))) ∧
  (∀ (s : State) (m : Nat) (x : Nat × ClockMember), s.pl.members.find? (·.1 == m) = some x →
    (x.2.silent = true → let e := (s.setMember m { x.2 with pend := x.2.pend ++ [(128, leadTicks)] }).tellClock m 128
      Does (.ckEvict m) s e ∧ Does (.silentRemoval m) s e) ∧
    (x.2.silent = false → x.2.pend.any (·.1 == 128) = false → Does (.clockSilent m) s
      ((s.setMember m { x.2 with silent := true, ceil := 0, pend := [] }).postEvent 0 7 (BitVec.ofNat 64 (s.pl.group.getD 0))))) ∧
  (∀ (s : State) (m l : Nat), m < 64 → l ≤ 60 ∨ l = 128 → ¬ (s.pl.group.isSome = true ∧ m = s.pl.index) →
    let z := s.agreeJoins
    z.pl.group ≠ none →
      (z.pl.members.find? (·.1 == m) = none → l ≠ 128 → Does (.clockAnnouncement m l) s (z.setMember m ⟨l, [], leadTicks, false⟩)) ∧
      (∀ x, z.pl.members.find? (·.1 == m) = some x →
        Does (.clockAnnouncement m l) s (z.setMember m { x.2 with silent := false, pend := x.2.pend ++ [(l, leadTicks)] }))) ∧
  (∀ (s : State), Does .clockTick s s.ageChecks.sense.agreeJoins.agree ∧
    Does .clockHeartbeat s (if s.pl.group.isSome then s.tellClock s.pl.index s.ownCeil else s)) ∧
  (∀ (s : State) (tid : Nat) (x : Nat × Word), s.pl.joins.find? (·.1 == tid) = some x → bits x.2.toNat 33 32 = 0 →
    Does (.clockJoinTimeout tid) s (s.setJoin tid (x.2 ||| 0x200000000))) ∧
  (∀ (s : State) (tj : Nat), Does .thermalTrip s s.trip ∧ s.trip.pl.cur = 0 ∧ Does (.overheat tj) s (s.overheats tj) ∧
    (s.overheats tj).pl.stopped = true) ∧
  (∀ (s : State), Does .pwHold s { s with pl := { s.pl with pwReq := 1 } } ∧ Does .pwLow s { s with pl := { s.pl with pwReq := 2 } } ∧
    (s.pl.pwCur ≠ 2 → Does .pwRun s { s with pl := { s.pl with pwReq := 0, pwCur := 0 } }) ∧
    (s.pl.pwCur = 2 → ((s.pl.en = true ∧ s.pl.trained = false) ∨ s.pl.ethDown = true →
        Does .pwRun s { s with pl := { s.pl with pwReq := 0, leaving := true } }) ∧
      ((s.pl.en = false ∨ s.pl.trained = true) → s.pl.ethDown = false →
        Does .pwRun s { s with pl := { s.pl with pwReq := 0, leaving := false, pwCur := 0 } }))) ∧
  (∀ (s : State), s.pl.pwReq ≠ 0 → (s.pl.pwCur ≠ s.pl.pwReq ∨ s.pl.leaving = true) → (s.clocked = false ∨ s.st.parts.all s.partIdle = true) →
    (s.pl.pwReq = 2 → Does .powerStateReached s { s with pl := { s.pl with
      pwCur := 2, leaving := false, trained := false, ethDown := s.pl.ept.any (fun e => bits e.2.1.toNat 63 62 == 2) } }) ∧
    (s.pl.pwReq = 1 → (s.pl.pwCur ≠ 2 ∨ (s.pl.ethDown = false ∧ (s.pl.en = false ∨ s.pl.trained = true))) →
      Does .powerStateReached s { s with pl := { s.pl with pwCur := 1, leaving := false } })) ∧
  (∀ (s : State) (x : Word), Does (.spTret x) s (s.retireAt x)) ∧
  (∀ (s : State) (pa : Nat), pa % 2 ^ 48 < Config.dramEnd → Does (.rowSpare pa) s (s.spareRow (pa % 2 ^ 48))) ∧
  (∀ (s : State), Does .coldReset s s.coldReset ∧ s.coldReset.th = State.reset.th ∧ s.coldReset.ms = { State.reset.ms with mem := s.ms.mem.filter (fun c => regionOf c.1 == .host) } ∧
    s.coldReset.pl.fwSt = 0 ∧ s.coldReset.pl.fwFirst = s.pl.fwFirst ∧ s.coldReset.pl.fwVer = s.pl.fwVer ∧ s.coldReset.pl.fwMin = s.pl.fwMin) ∧
  (∀ (s : State) (v : Nat) (r : Bool), s.pl.fwSt = 1 →
    Does (.firmwareUpdate v true r) s (s.setPl { s.pl with
      fwFirst := 1 - s.pl.fwSlot, fwVer := s.pl.fwVer.set (1 - s.pl.fwSlot) (v % 65536), fwMin := if r then Nat.max s.pl.fwMin (v % 65536) else s.pl.fwMin }) ∧
    Does (.firmwareUpdate v false r) s (s.setPl { s.pl with fwFirst := 1 - s.pl.fwSlot, fwVer := s.pl.fwVer.set (1 - s.pl.fwSlot) (v % 65536 + 65536) })) ∧
  (∀ (s : State) (k : Nat), 1 ≤ k → k ≤ 5 →
    Does (.getMeasurements k) s ((s.emit (.measurement k (s.measured k) (Config.signature s.fresh))).tick)) ∧
  (∀ (s : State) (f : Nat), f ≠ 0 → f ≤ 512 → let k := lookupD s.pl.tdisp f 0
    (k = 0 → Does (.tdispRequest f .lock) s (s.setPl { s.pl with tdisp := setKey s.pl.tdisp f 1 })) ∧
    (k = 1 → Does (.tdispRequest f .start) s (s.setPl { s.pl with tdisp := setKey s.pl.tdisp f 2 })) ∧
    Does (.tdispRequest f .stop) s (s.setPl { s.pl with tdisp := setKey s.pl.tdisp f 0 }) ∧
    Does (.tdispRequest f .report) s ((s.emit (.report f k (s.lockedItems f) (Config.signature s.fresh))).tick) ∧
    (k = 2 → Does (.unsupportedRequest f) s (s.emit (.unsupported f)))) ∧
  (∀ (s : State) (k : Nat), k ≤ 8 → s.pl.ide.contains k = false →
    Does (.ideKmRequest k true) s (s.setPl { s.pl with ide := s.pl.ide ++ [k] })) ∧
  (∀ (s : State) (f o : Nat) (w : Bool) (x : BitVec 32), s.pl.fwSt = 0 → Does (.configurationRequest f o w x) s (s.emit (.retryStatus f))) ∧
  (∀ (s : State) (f o : Nat) (x : BitVec 32), s.pl.fwSt = 1 → f ≤ s.pl.vfs → f ≠ 0 →
    Does (.configurationRequest f o true x) s
      (s.setPl { s.pl with config := setKey s.pl.config (f * 4096 + o % 4096) x, vfs := s.pl.vfs })) ∧
  (∀ (s : State) (f o : Nat) (x : BitVec 32), s.pl.fwSt = 1 → f ≤ s.pl.vfs →
    Does (.configurationRequest f o false x) s
      (s.emit (.configReply f o (lookupD s.pl.config (f * 4096 + o % 4096) (Config.configWord f (o % 4096)))))) ∧
  (∀ (s : State) (off n : Nat) (x : Word), 0x100000000 ≤ off → 32 ≤ n →
    let f := (off - 0x100000000) / 0x1000
    f ≠ 0 → lookupD s.pl.tdisp f 0 = 2 → (n / 32 = 1 ∨ s.pl.ide.contains (n / 32 - 1) = false) → Does (.registerWrite off n x) s (s.emit (.unsupported f))) ∧
  (∀ (s : State) (off n : Nat) (x cur : Word), n < 32 → off % 8 + n % 16 ≤ 8 → s.mmioWord (off / 8 * 8) = some cur →
    Does (.registerWrite off n x) s (s.regPut (off / 8 * 8) (mergeWord cur (off % 8) (n % 16) x) (decide (16 ≤ n)))) ∧
  (∀ (s : State) (off n : Nat) (x : Word), n < 32 → 8 < off % 8 + n % 16 →
    Does (.registerWrite off n x) s
      (s.postWrite off ((List.range (n % 16)).map (fun i => BitVec.ofNat 8 (x.toNat / 2 ^ (8 * i)))) (decide (16 ≤ n))))

-- Encoding, reset, invariant, frames ----------------------------------------------------------------------------------------------------

/-- 07:R72-R78, 15:R217, R219, R222: every well-formed instruction word decodes to the instruction it encodes. PCFG, DOMCFG and MEMBLK
have one word for their operations, which their registers choose: each decodes to the first row of its word. -/
def Obligations.EncodeDecode : Prop :=
  ∀ i : Instr, i.wellFormed = true → i.isWord = true → ∃ w, encode i = some w ∧ w < 2 ^ 32 ∧ decodeWord w = .ok (firstRow i)

/-- 07:R79, R90, 09:R129, 15:R203-R206, 23:R278, 29:R321, 31:R340: what reset leaves. The registers without a reset value in the spec are
the model's choice (log 4), and so is what unlisted memory reads as (log 5). -/
def Obligations.ResetState : Prop :=
  Canonical State.reset ∧ State.reset.ms.mem = [] ∧ State.reset.th.live = false ∧ State.reset.others = [] ∧
  (∀ g : Reg, State.reset.th.gr g = 0) ∧ State.reset.th.fx = 0 ∧ State.reset.th.oob = 0 ∧ State.reset.inbox = [] ∧
  State.reset.pl.en = false ∧ State.reset.pl.fwSt = 0 ∧ State.reset.pl.pwCur = 0 ∧ State.reset.st.runq = [] ∧
  State.reset.eng.compacts = [] ∧ (∀ f q, ((State.reset.vcp f).queue q).state = 0) ∧ (∀ a n, State.reset.read a n = List.replicate n 0)

/-- 31:R340: from every state whose listed bytes are in rising order of address with no zero entry, whatever the step does (an
instruction, a trap, a unit's, steward's or platform's step), the bytes after it are in that form too. The form, and that an unlisted
address reads as zero, is the model's (log 5). -/
def Obligations.StepKeepsCanonical : Prop :=
  ∀ s s' : State, Canonical s → step s = .next s' → Canonical s'

/-- 09:R105-R109, 07:R90, 05:R62: the frame of the register forms of `arithRule`, `logicRule` and `immediateRule`. No byte of memory, no
other register but the count of a loop that ends here, no guard, view, accumulator, trap or selector register changes; the destination of a
non-transient form holds its result, and TS.FX keeps its flags. -/
def Obligations.RegisterFormsFrame : Prop :=
  ∀ (i : Instr) (s s' : State) (m : Mark) (d : Reg) (x : Word) (f : Flags), i.wellFormed = true →
    (arithRule i s.th = some (m, d, x, f) ∨ (logicRule i s.th = some (m, d, x) ∧ f = 0) ∨ (immediateRule i s.th = some (m, d, x) ∧ f = 0)) →
    Issues i s → Sole s → NoStepBack i s ((s.deliver m d x).setfx f) → exec i s = .next s' →
    s'.ms = s.ms ∧ s'.eng = s.eng ∧ s'.st = s.st ∧ (∀ a n, s'.read a n = s.read a n) ∧
    ∃ u, s'.thread? s.th.tid = some u ∧
      (∀ g : Reg, g ≠ d → (s.th.lp0.act = true → s.th.lp0.creg ≠ g) → (s.th.lp1.act = true → s.th.lp1.creg ≠ g) → u.raw g = s.th.raw g) ∧
      (transientMark m = true → (s.th.lp0.act = true → s.th.lp0.creg ≠ d) → (s.th.lp1.act = true → s.th.lp1.creg ≠ d) → u.raw d = s.th.raw d) ∧
      (transientMark m = false → d ≠ 0 → s.th.lp0.act = false → s.th.lp1.act = false → u.raw d = x) ∧
      u.fx = s.th.fx ||| f ∧ u.win = s.th.win ∧ u.oob = s.th.oob ∧ u.guards = s.th.guards ∧ u.vv = s.th.vv ∧ u.va = s.th.va ∧
      u.vx = s.th.vx ∧ u.mu = s.th.mu ∧ u.sb = s.th.sb ∧ u.hb = s.th.hb ∧ u.sel = s.th.sel ∧ u.priv = s.th.priv ∧ u.dom = s.th.dom

/-- 09:R119, 03:R30-R31, R349: what a taken transfer, a hold and a wait leave unchanged: memory, engines and stewards, every register,
window byte, flag, guard, view and accumulator. -/
def Obligations.TransfersHoldsAndWaits : Prop :=
  (∀ (s e : State) (i : Instr) (k : Jump) (a : Word), Sole e →
    (e.retireJump s.th i k a).ms = e.ms ∧ (e.retireJump s.th i k a).eng = e.eng ∧ (e.retireJump s.th i k a).st = e.st ∧
    ∃ u, (e.retireJump s.th i k a).thread? e.th.tid = some u ∧ u.pc = a ∧ u.regs = e.th.regs ∧ u.win = e.th.win ∧ u.fx = e.th.fx ∧
      u.guards = e.th.guards ∧ u.vv = e.th.vv ∧ u.va = e.th.va ∧ u.mu = e.th.mu ∧ u.sb = e.th.sb ∧ u.hb = e.th.hb ∧
      (k ≠ .branch → u.lp0 = e.th.lp0 ∧ u.lp1 = e.th.lp1) ∧
      (k = .branch → u.lp0 = (e.th.closeLoops a).lp0 ∧ u.lp1 = (e.th.closeLoops a).lp1)) ∧
  (∀ (t : State) (k : Nat),
    (t.holding k).ms = t.ms ∧ (t.holding k).eng = t.eng ∧ (t.holding k).st = t.st ∧ (t.holding k).others = t.others ∧
    (t.holding k).th.regs = t.th.regs ∧ (t.holding k).th.pc = t.th.pc ∧ (t.holding k).th.win = t.th.win ∧
    (t.holding k).th.fx = t.th.fx ∧ (t.holding k).th.guards = t.th.guards ∧ (t.holding k).th.flow.hold = k) ∧
  (∀ (t : State) (st : Status), Sole t →
    (t.waits st).ms = t.ms ∧ (t.waits st).eng = t.eng ∧ (t.waits st).st = t.st ∧
    ∃ u, (t.waits st).thread? t.th.tid = some u ∧ u.status = st ∧ u.pc = (t.th.inWait st).pc ∧ u.regs = t.th.regs ∧ u.win = t.th.win ∧
      u.fx = t.th.fx ∧ u.guards = t.th.guards ∧ u.lp0 = t.th.lp0 ∧ u.lp1 = t.th.lp1)

/-- 07:R86, R90: a vector result is written to its 128 bytes of the window and to no other, keeps the window's canonical form, and leaves
every other part of the thread; a transient one leaves the window as it was. -/
def Obligations.VectorDelivery : Prop :=
  ∀ (t : Thread) (m : Mark) (d o : Nat) (bs : List Byte), bs.length = 128 → cellsWf t.win = true →
    let u := t.vdeliver m d o bs
    cellsWf u.win = true ∧ u.regs = t.regs ∧ u.fx = t.fx ∧ u.guards = t.guards ∧ u.mu = t.mu ∧ u.pc = t.pc ∧
    (transientMark m = true → u.win = t.win) ∧
    (transientMark m = false → u.winRead o 128 = bs ∧ ∀ k, k < o ∨ o + 128 ≤ k → u.winRead k 1 = t.winRead k 1)
end

