-- ==== Sys2Proof/Laws/State.lean ====
section
/-! SUPPORT. What the named updates of the state and of a thread leave unchanged: one lemma per field and update. -/

namespace Sys2Proof.Machine
open Sys2Proof

@[simp] theorem State.write_th (s : State) (off : Nat) (bs : List Byte) : ((s.write off bs)).th = s.th := rfl
@[simp] theorem State.write_others (s : State) (off : Nat) (bs : List Byte) : ((s.write off bs)).others = s.others := rfl
@[simp] theorem State.write_tiles (s : State) (off : Nat) (bs : List Byte) : ((s.write off bs)).tiles = s.tiles := rfl
@[simp] theorem State.write_eng (s : State) (off : Nat) (bs : List Byte) : ((s.write off bs)).eng = s.eng := rfl
@[simp] theorem State.write_st (s : State) (off : Nat) (bs : List Byte) : ((s.write off bs)).st = s.st := rfl
@[simp] theorem State.write_pl (s : State) (off : Nat) (bs : List Byte) : ((s.write off bs)).pl = s.pl := rfl
@[simp] theorem State.write_inbox (s : State) (off : Nat) (bs : List Byte) : ((s.write off bs)).inbox = s.inbox := rfl
@[simp] theorem State.write_fresh (s : State) (off : Nat) (bs : List Byte) : ((s.write off bs)).fresh = s.fresh := rfl
@[simp] theorem State.emit_th (s : State) (m : OutMsg) : ((s.emit m)).th = s.th := rfl
@[simp] theorem State.emit_others (s : State) (m : OutMsg) : ((s.emit m)).others = s.others := rfl
@[simp] theorem State.emit_tiles (s : State) (m : OutMsg) : ((s.emit m)).tiles = s.tiles := rfl
@[simp] theorem State.emit_ms (s : State) (m : OutMsg) : ((s.emit m)).ms = s.ms := rfl
@[simp] theorem State.emit_eng (s : State) (m : OutMsg) : ((s.emit m)).eng = s.eng := rfl
@[simp] theorem State.emit_st (s : State) (m : OutMsg) : ((s.emit m)).st = s.st := rfl
@[simp] theorem State.emit_inbox (s : State) (m : OutMsg) : ((s.emit m)).inbox = s.inbox := rfl
@[simp] theorem State.emit_fresh (s : State) (m : OutMsg) : ((s.emit m)).fresh = s.fresh := rfl
@[simp] theorem State.post_th (s : State) (i : Instr) : ((s.post i)).th = s.th := rfl
@[simp] theorem State.post_others (s : State) (i : Instr) : ((s.post i)).others = s.others := rfl
@[simp] theorem State.post_tiles (s : State) (i : Instr) : ((s.post i)).tiles = s.tiles := rfl
@[simp] theorem State.post_ms (s : State) (i : Instr) : ((s.post i)).ms = s.ms := rfl
@[simp] theorem State.post_eng (s : State) (i : Instr) : ((s.post i)).eng = s.eng := rfl
@[simp] theorem State.post_st (s : State) (i : Instr) : ((s.post i)).st = s.st := rfl
@[simp] theorem State.post_pl (s : State) (i : Instr) : ((s.post i)).pl = s.pl := rfl
@[simp] theorem State.post_fresh (s : State) (i : Instr) : ((s.post i)).fresh = s.fresh := rfl
@[simp] theorem State.setPeer_th (s : State) (j : Nat) (p : Peer) : ((s.setPeer j p)).th = s.th := rfl
@[simp] theorem State.setPeer_others (s : State) (j : Nat) (p : Peer) : ((s.setPeer j p)).others = s.others := rfl
@[simp] theorem State.setPeer_tiles (s : State) (j : Nat) (p : Peer) : ((s.setPeer j p)).tiles = s.tiles := rfl
@[simp] theorem State.setPeer_ms (s : State) (j : Nat) (p : Peer) : ((s.setPeer j p)).ms = s.ms := rfl
@[simp] theorem State.setPeer_eng (s : State) (j : Nat) (p : Peer) : ((s.setPeer j p)).eng = s.eng := rfl
@[simp] theorem State.setPeer_st (s : State) (j : Nat) (p : Peer) : ((s.setPeer j p)).st = s.st := rfl
@[simp] theorem State.setPeer_inbox (s : State) (j : Nat) (p : Peer) : ((s.setPeer j p)).inbox = s.inbox := rfl
@[simp] theorem State.setPeer_fresh (s : State) (j : Nat) (p : Peer) : ((s.setPeer j p)).fresh = s.fresh := rfl
@[simp] theorem State.toRouter_th (s : State) (m : RouterMsg) : ((s.toRouter m)).th = s.th := rfl
@[simp] theorem State.toRouter_others (s : State) (m : RouterMsg) : ((s.toRouter m)).others = s.others := rfl
@[simp] theorem State.toRouter_tiles (s : State) (m : RouterMsg) : ((s.toRouter m)).tiles = s.tiles := rfl
@[simp] theorem State.toRouter_ms (s : State) (m : RouterMsg) : ((s.toRouter m)).ms = s.ms := rfl
@[simp] theorem State.toRouter_st (s : State) (m : RouterMsg) : ((s.toRouter m)).st = s.st := rfl
@[simp] theorem State.toRouter_pl (s : State) (m : RouterMsg) : ((s.toRouter m)).pl = s.pl := rfl
@[simp] theorem State.toRouter_inbox (s : State) (m : RouterMsg) : ((s.toRouter m)).inbox = s.inbox := rfl
@[simp] theorem State.toRouter_fresh (s : State) (m : RouterMsg) : ((s.toRouter m)).fresh = s.fresh := rfl
@[simp] theorem State.dropMsg_th (s : State) (m : RouterMsg) : ((s.dropMsg m)).th = s.th := rfl
@[simp] theorem State.dropMsg_others (s : State) (m : RouterMsg) : ((s.dropMsg m)).others = s.others := rfl
@[simp] theorem State.dropMsg_tiles (s : State) (m : RouterMsg) : ((s.dropMsg m)).tiles = s.tiles := rfl
@[simp] theorem State.dropMsg_ms (s : State) (m : RouterMsg) : ((s.dropMsg m)).ms = s.ms := rfl
@[simp] theorem State.dropMsg_st (s : State) (m : RouterMsg) : ((s.dropMsg m)).st = s.st := rfl
@[simp] theorem State.dropMsg_pl (s : State) (m : RouterMsg) : ((s.dropMsg m)).pl = s.pl := rfl
@[simp] theorem State.dropMsg_inbox (s : State) (m : RouterMsg) : ((s.dropMsg m)).inbox = s.inbox := rfl
@[simp] theorem State.dropMsg_fresh (s : State) (m : RouterMsg) : ((s.dropMsg m)).fresh = s.fresh := rfl
@[simp] theorem State.setTile_th (s : State) (i : Nat) (t : Tile) : ((s.setTile i t)).th = s.th := rfl
@[simp] theorem State.setTile_others (s : State) (i : Nat) (t : Tile) : ((s.setTile i t)).others = s.others := rfl
@[simp] theorem State.setTile_ms (s : State) (i : Nat) (t : Tile) : ((s.setTile i t)).ms = s.ms := rfl
@[simp] theorem State.setTile_eng (s : State) (i : Nat) (t : Tile) : ((s.setTile i t)).eng = s.eng := rfl
@[simp] theorem State.setTile_st (s : State) (i : Nat) (t : Tile) : ((s.setTile i t)).st = s.st := rfl
@[simp] theorem State.setTile_pl (s : State) (i : Nat) (t : Tile) : ((s.setTile i t)).pl = s.pl := rfl
@[simp] theorem State.setTile_inbox (s : State) (i : Nat) (t : Tile) : ((s.setTile i t)).inbox = s.inbox := rfl
@[simp] theorem State.setTile_fresh (s : State) (i : Nat) (t : Tile) : ((s.setTile i t)).fresh = s.fresh := rfl
@[simp] theorem State.addThread_th (s : State) (t : Thread) : ((s.addThread t)).th = s.th := rfl
@[simp] theorem State.addThread_tiles (s : State) (t : Thread) : ((s.addThread t)).tiles = s.tiles := rfl
@[simp] theorem State.addThread_ms (s : State) (t : Thread) : ((s.addThread t)).ms = s.ms := rfl
@[simp] theorem State.addThread_eng (s : State) (t : Thread) : ((s.addThread t)).eng = s.eng := rfl
@[simp] theorem State.addThread_st (s : State) (t : Thread) : ((s.addThread t)).st = s.st := rfl
@[simp] theorem State.addThread_pl (s : State) (t : Thread) : ((s.addThread t)).pl = s.pl := rfl
@[simp] theorem State.addThread_inbox (s : State) (t : Thread) : ((s.addThread t)).inbox = s.inbox := rfl
@[simp] theorem State.addThread_fresh (s : State) (t : Thread) : ((s.addThread t)).fresh = s.fresh := rfl
@[simp] theorem State.setRgs_th (s : State) (n : Nat) (r : Rgs) : ((s.setRgs n r)).th = s.th := rfl
@[simp] theorem State.setRgs_others (s : State) (n : Nat) (r : Rgs) : ((s.setRgs n r)).others = s.others := rfl
@[simp] theorem State.setRgs_tiles (s : State) (n : Nat) (r : Rgs) : ((s.setRgs n r)).tiles = s.tiles := rfl
@[simp] theorem State.setRgs_ms (s : State) (n : Nat) (r : Rgs) : ((s.setRgs n r)).ms = s.ms := rfl
@[simp] theorem State.setRgs_eng (s : State) (n : Nat) (r : Rgs) : ((s.setRgs n r)).eng = s.eng := rfl
@[simp] theorem State.setRgs_pl (s : State) (n : Nat) (r : Rgs) : ((s.setRgs n r)).pl = s.pl := rfl
@[simp] theorem State.setRgs_inbox (s : State) (n : Nat) (r : Rgs) : ((s.setRgs n r)).inbox = s.inbox := rfl
@[simp] theorem State.setRgs_fresh (s : State) (n : Nat) (r : Rgs) : ((s.setRgs n r)).fresh = s.fresh := rfl
@[simp] theorem State.tick_th (s : State) : s.tick.th = s.th := rfl
@[simp] theorem State.tick_others (s : State) : s.tick.others = s.others := rfl
@[simp] theorem State.tick_tiles (s : State) : s.tick.tiles = s.tiles := rfl
@[simp] theorem State.tick_ms (s : State) : s.tick.ms = s.ms := rfl
@[simp] theorem State.tick_eng (s : State) : s.tick.eng = s.eng := rfl
@[simp] theorem State.tick_st (s : State) : s.tick.st = s.st := rfl
@[simp] theorem State.tick_pl (s : State) : s.tick.pl = s.pl := rfl
@[simp] theorem State.tick_inbox (s : State) : s.tick.inbox = s.inbox := rfl
@[simp] theorem State.gw_others (s : State) (i : Reg) (x : Word) : ((s.gw i x)).others = s.others := rfl
@[simp] theorem State.gw_tiles (s : State) (i : Reg) (x : Word) : ((s.gw i x)).tiles = s.tiles := rfl
@[simp] theorem State.gw_ms (s : State) (i : Reg) (x : Word) : ((s.gw i x)).ms = s.ms := rfl
@[simp] theorem State.gw_eng (s : State) (i : Reg) (x : Word) : ((s.gw i x)).eng = s.eng := rfl
@[simp] theorem State.gw_st (s : State) (i : Reg) (x : Word) : ((s.gw i x)).st = s.st := rfl
@[simp] theorem State.gw_pl (s : State) (i : Reg) (x : Word) : ((s.gw i x)).pl = s.pl := rfl
@[simp] theorem State.gw_inbox (s : State) (i : Reg) (x : Word) : ((s.gw i x)).inbox = s.inbox := rfl
@[simp] theorem State.gw_fresh (s : State) (i : Reg) (x : Word) : ((s.gw i x)).fresh = s.fresh := rfl
@[simp] theorem State.deliver_others (s : State) (m : Mark) (i : Reg) (x : Word) : ((s.deliver m i x)).others = s.others := rfl
@[simp] theorem State.deliver_tiles (s : State) (m : Mark) (i : Reg) (x : Word) : ((s.deliver m i x)).tiles = s.tiles := rfl
@[simp] theorem State.deliver_ms (s : State) (m : Mark) (i : Reg) (x : Word) : ((s.deliver m i x)).ms = s.ms := rfl
@[simp] theorem State.deliver_eng (s : State) (m : Mark) (i : Reg) (x : Word) : ((s.deliver m i x)).eng = s.eng := rfl
@[simp] theorem State.deliver_st (s : State) (m : Mark) (i : Reg) (x : Word) : ((s.deliver m i x)).st = s.st := rfl
@[simp] theorem State.deliver_pl (s : State) (m : Mark) (i : Reg) (x : Word) : ((s.deliver m i x)).pl = s.pl := rfl
@[simp] theorem State.deliver_inbox (s : State) (m : Mark) (i : Reg) (x : Word) : ((s.deliver m i x)).inbox = s.inbox := rfl
@[simp] theorem State.deliver_fresh (s : State) (m : Mark) (i : Reg) (x : Word) : ((s.deliver m i x)).fresh = s.fresh := rfl
@[simp] theorem State.setfx_others (s : State) (f : Flags) : ((s.setfx f)).others = s.others := rfl
@[simp] theorem State.setfx_tiles (s : State) (f : Flags) : ((s.setfx f)).tiles = s.tiles := rfl
@[simp] theorem State.setfx_ms (s : State) (f : Flags) : ((s.setfx f)).ms = s.ms := rfl
@[simp] theorem State.setfx_eng (s : State) (f : Flags) : ((s.setfx f)).eng = s.eng := rfl
@[simp] theorem State.setfx_st (s : State) (f : Flags) : ((s.setfx f)).st = s.st := rfl
@[simp] theorem State.setfx_pl (s : State) (f : Flags) : ((s.setfx f)).pl = s.pl := rfl
@[simp] theorem State.setfx_inbox (s : State) (f : Flags) : ((s.setfx f)).inbox = s.inbox := rfl
@[simp] theorem State.setfx_fresh (s : State) (f : Flags) : ((s.setfx f)).fresh = s.fresh := rfl
@[simp] theorem State.clockAs_others (s : State) (u : Thread) : ((s.clockAs u)).others = s.others := rfl
@[simp] theorem State.clockAs_ms (s : State) (u : Thread) : ((s.clockAs u)).ms = s.ms := rfl
@[simp] theorem State.clockAs_eng (s : State) (u : Thread) : ((s.clockAs u)).eng = s.eng := rfl
@[simp] theorem State.clockAs_st (s : State) (u : Thread) : ((s.clockAs u)).st = s.st := rfl
@[simp] theorem State.clockAs_pl (s : State) (u : Thread) : ((s.clockAs u)).pl = s.pl := rfl
@[simp] theorem State.clockAs_inbox (s : State) (u : Thread) : ((s.clockAs u)).inbox = s.inbox := rfl
@[simp] theorem State.clock_others (s : State) : s.clock.others = s.others := rfl
@[simp] theorem State.clock_ms (s : State) : s.clock.ms = s.ms := rfl
@[simp] theorem State.clock_eng (s : State) : s.clock.eng = s.eng := rfl
@[simp] theorem State.clock_st (s : State) : s.clock.st = s.st := rfl
@[simp] theorem State.clock_pl (s : State) : s.clock.pl = s.pl := rfl
@[simp] theorem State.clock_inbox (s : State) : s.clock.inbox = s.inbox := rfl
@[simp] theorem State.setPl_th (s : State) (p : Plat) : ((s.setPl p)).th = s.th := rfl
@[simp] theorem State.setPl_others (s : State) (p : Plat) : ((s.setPl p)).others = s.others := rfl
@[simp] theorem State.setPl_tiles (s : State) (p : Plat) : ((s.setPl p)).tiles = s.tiles := rfl
@[simp] theorem State.setPl_ms (s : State) (p : Plat) : ((s.setPl p)).ms = s.ms := rfl
@[simp] theorem State.setPl_eng (s : State) (p : Plat) : ((s.setPl p)).eng = s.eng := rfl
@[simp] theorem State.setPl_st (s : State) (p : Plat) : ((s.setPl p)).st = s.st := rfl
@[simp] theorem State.setPl_inbox (s : State) (p : Plat) : ((s.setPl p)).inbox = s.inbox := rfl
@[simp] theorem State.setPl_fresh (s : State) (p : Plat) : ((s.setPl p)).fresh = s.fresh := rfl
@[simp] theorem State.setMember_th (s : State) (m : Nat) (x : ClockMember) : ((s.setMember m x)).th = s.th := rfl
@[simp] theorem State.setMember_others (s : State) (m : Nat) (x : ClockMember) : ((s.setMember m x)).others = s.others := rfl
@[simp] theorem State.setMember_tiles (s : State) (m : Nat) (x : ClockMember) : ((s.setMember m x)).tiles = s.tiles := rfl
@[simp] theorem State.setMember_ms (s : State) (m : Nat) (x : ClockMember) : ((s.setMember m x)).ms = s.ms := rfl
@[simp] theorem State.setMember_eng (s : State) (m : Nat) (x : ClockMember) : ((s.setMember m x)).eng = s.eng := rfl
@[simp] theorem State.setMember_st (s : State) (m : Nat) (x : ClockMember) : ((s.setMember m x)).st = s.st := rfl
@[simp] theorem State.setMember_inbox (s : State) (m : Nat) (x : ClockMember) : ((s.setMember m x)).inbox = s.inbox := rfl
@[simp] theorem State.setMember_fresh (s : State) (m : Nat) (x : ClockMember) : ((s.setMember m x)).fresh = s.fresh := rfl
@[simp] theorem State.dropJoin_th (s : State) (tid : Nat) : ((s.dropJoin tid)).th = s.th := rfl
@[simp] theorem State.dropJoin_others (s : State) (tid : Nat) : ((s.dropJoin tid)).others = s.others := rfl
@[simp] theorem State.dropJoin_tiles (s : State) (tid : Nat) : ((s.dropJoin tid)).tiles = s.tiles := rfl
@[simp] theorem State.dropJoin_ms (s : State) (tid : Nat) : ((s.dropJoin tid)).ms = s.ms := rfl
@[simp] theorem State.dropJoin_eng (s : State) (tid : Nat) : ((s.dropJoin tid)).eng = s.eng := rfl
@[simp] theorem State.dropJoin_st (s : State) (tid : Nat) : ((s.dropJoin tid)).st = s.st := rfl
@[simp] theorem State.dropJoin_inbox (s : State) (tid : Nat) : ((s.dropJoin tid)).inbox = s.inbox := rfl
@[simp] theorem State.dropJoin_fresh (s : State) (tid : Nat) : ((s.dropJoin tid)).fresh = s.fresh := rfl
@[simp] theorem State.setJoin_th (s : State) (tid : Nat) (w : Word) : ((s.setJoin tid w)).th = s.th := rfl
@[simp] theorem State.setJoin_others (s : State) (tid : Nat) (w : Word) : ((s.setJoin tid w)).others = s.others := rfl
@[simp] theorem State.setJoin_tiles (s : State) (tid : Nat) (w : Word) : ((s.setJoin tid w)).tiles = s.tiles := rfl
@[simp] theorem State.setJoin_ms (s : State) (tid : Nat) (w : Word) : ((s.setJoin tid w)).ms = s.ms := rfl
@[simp] theorem State.setJoin_eng (s : State) (tid : Nat) (w : Word) : ((s.setJoin tid w)).eng = s.eng := rfl
@[simp] theorem State.setJoin_st (s : State) (tid : Nat) (w : Word) : ((s.setJoin tid w)).st = s.st := rfl
@[simp] theorem State.setJoin_inbox (s : State) (tid : Nat) (w : Word) : ((s.setJoin tid w)).inbox = s.inbox := rfl
@[simp] theorem State.setJoin_fresh (s : State) (tid : Nat) (w : Word) : ((s.setJoin tid w)).fresh = s.fresh := rfl
@[simp] theorem State.setVcp_th (s : State) (f : Nat) (v : Vcp) : ((s.setVcp f v)).th = s.th := rfl
@[simp] theorem State.setVcp_others (s : State) (f : Nat) (v : Vcp) : ((s.setVcp f v)).others = s.others := rfl
@[simp] theorem State.setVcp_tiles (s : State) (f : Nat) (v : Vcp) : ((s.setVcp f v)).tiles = s.tiles := rfl
@[simp] theorem State.setVcp_ms (s : State) (f : Nat) (v : Vcp) : ((s.setVcp f v)).ms = s.ms := rfl
@[simp] theorem State.setVcp_eng (s : State) (f : Nat) (v : Vcp) : ((s.setVcp f v)).eng = s.eng := rfl
@[simp] theorem State.setVcp_pl (s : State) (f : Nat) (v : Vcp) : ((s.setVcp f v)).pl = s.pl := rfl
@[simp] theorem State.setVcp_inbox (s : State) (f : Nat) (v : Vcp) : ((s.setVcp f v)).inbox = s.inbox := rfl
@[simp] theorem State.setVcp_fresh (s : State) (f : Nat) (v : Vcp) : ((s.setVcp f v)).fresh = s.fresh := rfl
@[simp] theorem State.setQueue_th (s : State) (f q : Nat) (x : Queue) : ((s.setQueue f q x)).th = s.th := rfl
@[simp] theorem State.setQueue_others (s : State) (f q : Nat) (x : Queue) : ((s.setQueue f q x)).others = s.others := rfl
@[simp] theorem State.setQueue_tiles (s : State) (f q : Nat) (x : Queue) : ((s.setQueue f q x)).tiles = s.tiles := rfl
@[simp] theorem State.setQueue_ms (s : State) (f q : Nat) (x : Queue) : ((s.setQueue f q x)).ms = s.ms := rfl
@[simp] theorem State.setQueue_eng (s : State) (f q : Nat) (x : Queue) : ((s.setQueue f q x)).eng = s.eng := rfl
@[simp] theorem State.setQueue_pl (s : State) (f q : Nat) (x : Queue) : ((s.setQueue f q x)).pl = s.pl := rfl
@[simp] theorem State.setQueue_inbox (s : State) (f q : Nat) (x : Queue) : ((s.setQueue f q x)).inbox = s.inbox := rfl
@[simp] theorem State.setQueue_fresh (s : State) (f q : Nat) (x : Queue) : ((s.setQueue f q x)).fresh = s.fresh := rfl
@[simp] theorem State.setEngine_th (s : State) (e : Nat) (x : Engine) : ((s.setEngine e x)).th = s.th := rfl
@[simp] theorem State.setEngine_others (s : State) (e : Nat) (x : Engine) : ((s.setEngine e x)).others = s.others := rfl
@[simp] theorem State.setEngine_tiles (s : State) (e : Nat) (x : Engine) : ((s.setEngine e x)).tiles = s.tiles := rfl
@[simp] theorem State.setEngine_ms (s : State) (e : Nat) (x : Engine) : ((s.setEngine e x)).ms = s.ms := rfl
@[simp] theorem State.setEngine_st (s : State) (e : Nat) (x : Engine) : ((s.setEngine e x)).st = s.st := rfl
@[simp] theorem State.setEngine_pl (s : State) (e : Nat) (x : Engine) : ((s.setEngine e x)).pl = s.pl := rfl
@[simp] theorem State.setEngine_inbox (s : State) (e : Nat) (x : Engine) : ((s.setEngine e x)).inbox = s.inbox := rfl
@[simp] theorem State.setEngine_fresh (s : State) (e : Nat) (x : Engine) : ((s.setEngine e x)).fresh = s.fresh := rfl
@[simp] theorem State.setCtx_others (s : State) (c : Option (Nat × Word × Bool)) : ((s.setCtx c)).others = s.others := rfl
@[simp] theorem State.setCtx_tiles (s : State) (c : Option (Nat × Word × Bool)) : ((s.setCtx c)).tiles = s.tiles := rfl
@[simp] theorem State.setCtx_ms (s : State) (c : Option (Nat × Word × Bool)) : ((s.setCtx c)).ms = s.ms := rfl
@[simp] theorem State.setCtx_eng (s : State) (c : Option (Nat × Word × Bool)) : ((s.setCtx c)).eng = s.eng := rfl
@[simp] theorem State.setCtx_st (s : State) (c : Option (Nat × Word × Bool)) : ((s.setCtx c)).st = s.st := rfl
@[simp] theorem State.setCtx_pl (s : State) (c : Option (Nat × Word × Bool)) : ((s.setCtx c)).pl = s.pl := rfl
@[simp] theorem State.setCtx_inbox (s : State) (c : Option (Nat × Word × Bool)) : ((s.setCtx c)).inbox = s.inbox := rfl
@[simp] theorem State.setCtx_fresh (s : State) (c : Option (Nat × Word × Bool)) : ((s.setCtx c)).fresh = s.fresh := rfl
@[simp] theorem State.unbind_th (s : State) (f : Nat) : ((s.unbind f)).th = s.th := rfl
@[simp] theorem State.unbind_others (s : State) (f : Nat) : ((s.unbind f)).others = s.others := rfl
@[simp] theorem State.unbind_tiles (s : State) (f : Nat) : ((s.unbind f)).tiles = s.tiles := rfl
@[simp] theorem State.unbind_ms (s : State) (f : Nat) : ((s.unbind f)).ms = s.ms := rfl
@[simp] theorem State.unbind_eng (s : State) (f : Nat) : ((s.unbind f)).eng = s.eng := rfl
@[simp] theorem State.unbind_pl (s : State) (f : Nat) : ((s.unbind f)).pl = s.pl := rfl
@[simp] theorem State.unbind_inbox (s : State) (f : Nat) : ((s.unbind f)).inbox = s.inbox := rfl
@[simp] theorem State.unbind_fresh (s : State) (f : Nat) : ((s.unbind f)).fresh = s.fresh := rfl
@[simp] theorem State.bindTo_th (s : State) (f n : Nat) : ((s.bindTo f n)).th = s.th := rfl
@[simp] theorem State.bindTo_others (s : State) (f n : Nat) : ((s.bindTo f n)).others = s.others := rfl
@[simp] theorem State.bindTo_tiles (s : State) (f n : Nat) : ((s.bindTo f n)).tiles = s.tiles := rfl
@[simp] theorem State.bindTo_ms (s : State) (f n : Nat) : ((s.bindTo f n)).ms = s.ms := rfl
@[simp] theorem State.bindTo_eng (s : State) (f n : Nat) : ((s.bindTo f n)).eng = s.eng := rfl
@[simp] theorem State.bindTo_pl (s : State) (f n : Nat) : ((s.bindTo f n)).pl = s.pl := rfl
@[simp] theorem State.bindTo_inbox (s : State) (f n : Nat) : ((s.bindTo f n)).inbox = s.inbox := rfl
@[simp] theorem State.bindTo_fresh (s : State) (f n : Nat) : ((s.bindTo f n)).fresh = s.fresh := rfl
@[simp] theorem State.putDp_th (s : State) (i n : Nat) (d : Dp) : ((s.putDp i n d)).th = s.th := rfl
@[simp] theorem State.putDp_others (s : State) (i n : Nat) (d : Dp) : ((s.putDp i n d)).others = s.others := rfl
@[simp] theorem State.putDp_ms (s : State) (i n : Nat) (d : Dp) : ((s.putDp i n d)).ms = s.ms := rfl
@[simp] theorem State.putDp_eng (s : State) (i n : Nat) (d : Dp) : ((s.putDp i n d)).eng = s.eng := rfl
@[simp] theorem State.putDp_st (s : State) (i n : Nat) (d : Dp) : ((s.putDp i n d)).st = s.st := rfl
@[simp] theorem State.putDp_pl (s : State) (i n : Nat) (d : Dp) : ((s.putDp i n d)).pl = s.pl := rfl
@[simp] theorem State.putDp_inbox (s : State) (i n : Nat) (d : Dp) : ((s.putDp i n d)).inbox = s.inbox := rfl
@[simp] theorem State.putDp_fresh (s : State) (i n : Nat) (d : Dp) : ((s.putDp i n d)).fresh = s.fresh := rfl
@[simp] theorem State.await_others (s : State) (o : Outst) : ((s.await o)).others = s.others := rfl
@[simp] theorem State.await_tiles (s : State) (o : Outst) : ((s.await o)).tiles = s.tiles := rfl
@[simp] theorem State.await_ms (s : State) (o : Outst) : ((s.await o)).ms = s.ms := rfl
@[simp] theorem State.await_eng (s : State) (o : Outst) : ((s.await o)).eng = s.eng := rfl
@[simp] theorem State.await_st (s : State) (o : Outst) : ((s.await o)).st = s.st := rfl
@[simp] theorem State.await_pl (s : State) (o : Outst) : ((s.await o)).pl = s.pl := rfl
@[simp] theorem State.await_inbox (s : State) (o : Outst) : ((s.await o)).inbox = s.inbox := rfl
@[simp] theorem State.await_fresh (s : State) (o : Outst) : ((s.await o)).fresh = s.fresh := rfl
@[simp] theorem State.setCompact_th (s : State) (bar : Nat) (c : Compact) : ((s.setCompact bar c)).th = s.th := rfl
@[simp] theorem State.setCompact_others (s : State) (bar : Nat) (c : Compact) : ((s.setCompact bar c)).others = s.others := rfl
@[simp] theorem State.setCompact_tiles (s : State) (bar : Nat) (c : Compact) : ((s.setCompact bar c)).tiles = s.tiles := rfl
@[simp] theorem State.setCompact_ms (s : State) (bar : Nat) (c : Compact) : ((s.setCompact bar c)).ms = s.ms := rfl
@[simp] theorem State.setCompact_st (s : State) (bar : Nat) (c : Compact) : ((s.setCompact bar c)).st = s.st := rfl
@[simp] theorem State.setCompact_pl (s : State) (bar : Nat) (c : Compact) : ((s.setCompact bar c)).pl = s.pl := rfl
@[simp] theorem State.setCompact_inbox (s : State) (bar : Nat) (c : Compact) : ((s.setCompact bar c)).inbox = s.inbox := rfl
@[simp] theorem State.setCompact_fresh (s : State) (bar : Nat) (c : Compact) : ((s.setCompact bar c)).fresh = s.fresh := rfl
@[simp] theorem State.notify_th (s : State) (f mask : Nat) : ((s.notify f mask)).th = s.th := rfl
@[simp] theorem State.notify_others (s : State) (f mask : Nat) : ((s.notify f mask)).others = s.others := rfl
@[simp] theorem State.notify_tiles (s : State) (f mask : Nat) : ((s.notify f mask)).tiles = s.tiles := rfl
@[simp] theorem State.notify_ms (s : State) (f mask : Nat) : ((s.notify f mask)).ms = s.ms := rfl
@[simp] theorem State.notify_eng (s : State) (f mask : Nat) : ((s.notify f mask)).eng = s.eng := rfl
@[simp] theorem State.notify_pl (s : State) (f mask : Nat) : ((s.notify f mask)).pl = s.pl := rfl
@[simp] theorem State.notify_inbox (s : State) (f mask : Nat) : ((s.notify f mask)).inbox = s.inbox := rfl
@[simp] theorem State.notify_fresh (s : State) (f mask : Nat) : ((s.notify f mask)).fresh = s.fresh := rfl
@[simp] theorem State.dropWindow_th (s : State) (tile w : Nat) : ((s.dropWindow tile w)).th = s.th := rfl
@[simp] theorem State.dropWindow_others (s : State) (tile w : Nat) : ((s.dropWindow tile w)).others = s.others := rfl
@[simp] theorem State.dropWindow_ms (s : State) (tile w : Nat) : ((s.dropWindow tile w)).ms = s.ms := rfl
@[simp] theorem State.dropWindow_eng (s : State) (tile w : Nat) : ((s.dropWindow tile w)).eng = s.eng := rfl
@[simp] theorem State.dropWindow_st (s : State) (tile w : Nat) : ((s.dropWindow tile w)).st = s.st := rfl
@[simp] theorem State.dropWindow_pl (s : State) (tile w : Nat) : ((s.dropWindow tile w)).pl = s.pl := rfl
@[simp] theorem State.dropWindow_inbox (s : State) (tile w : Nat) : ((s.dropWindow tile w)).inbox = s.inbox := rfl
@[simp] theorem State.dropWindow_fresh (s : State) (tile w : Nat) : ((s.dropWindow tile w)).fresh = s.fresh := rfl
@[simp] theorem State.setJob_th (s : State) (e : Nat) (j : JobEntry) : ((s.setJob e j)).th = s.th := rfl
@[simp] theorem State.setJob_others (s : State) (e : Nat) (j : JobEntry) : ((s.setJob e j)).others = s.others := rfl
@[simp] theorem State.setJob_tiles (s : State) (e : Nat) (j : JobEntry) : ((s.setJob e j)).tiles = s.tiles := rfl
@[simp] theorem State.setJob_ms (s : State) (e : Nat) (j : JobEntry) : ((s.setJob e j)).ms = s.ms := rfl
@[simp] theorem State.setJob_st (s : State) (e : Nat) (j : JobEntry) : ((s.setJob e j)).st = s.st := rfl
@[simp] theorem State.setJob_pl (s : State) (e : Nat) (j : JobEntry) : ((s.setJob e j)).pl = s.pl := rfl
@[simp] theorem State.setJob_inbox (s : State) (e : Nat) (j : JobEntry) : ((s.setJob e j)).inbox = s.inbox := rfl
@[simp] theorem State.setJob_fresh (s : State) (e : Nat) (j : JobEntry) : ((s.setJob e j)).fresh = s.fresh := rfl
@[simp] theorem State.dropJob_th (s : State) (e jid : Nat) : ((s.dropJob e jid)).th = s.th := rfl
@[simp] theorem State.dropJob_others (s : State) (e jid : Nat) : ((s.dropJob e jid)).others = s.others := rfl
@[simp] theorem State.dropJob_tiles (s : State) (e jid : Nat) : ((s.dropJob e jid)).tiles = s.tiles := rfl
@[simp] theorem State.dropJob_ms (s : State) (e jid : Nat) : ((s.dropJob e jid)).ms = s.ms := rfl
@[simp] theorem State.dropJob_st (s : State) (e jid : Nat) : ((s.dropJob e jid)).st = s.st := rfl
@[simp] theorem State.dropJob_pl (s : State) (e jid : Nat) : ((s.dropJob e jid)).pl = s.pl := rfl
@[simp] theorem State.dropJob_inbox (s : State) (e jid : Nat) : ((s.dropJob e jid)).inbox = s.inbox := rfl
@[simp] theorem State.dropJob_fresh (s : State) (e jid : Nat) : ((s.dropJob e jid)).fresh = s.fresh := rfl
@[simp] theorem State.feedPantry_th (s : State) : s.feedPantry.th = s.th := rfl
@[simp] theorem State.feedPantry_others (s : State) : s.feedPantry.others = s.others := rfl
@[simp] theorem State.feedPantry_tiles (s : State) : s.feedPantry.tiles = s.tiles := rfl
@[simp] theorem State.feedPantry_ms (s : State) : s.feedPantry.ms = s.ms := rfl
@[simp] theorem State.feedPantry_st (s : State) : s.feedPantry.st = s.st := rfl
@[simp] theorem State.feedPantry_pl (s : State) : s.feedPantry.pl = s.pl := rfl
@[simp] theorem State.feedPantry_inbox (s : State) : s.feedPantry.inbox = s.inbox := rfl
@[simp] theorem State.feedPantry_fresh (s : State) : s.feedPantry.fresh = s.fresh := rfl
@[simp] theorem State.completeKey_th (s : State) (k : Nat × Nat) : ((s.completeKey k)).th = s.th := rfl
@[simp] theorem State.completeKey_others (s : State) (k : Nat × Nat) : ((s.completeKey k)).others = s.others := rfl
@[simp] theorem State.completeKey_tiles (s : State) (k : Nat × Nat) : ((s.completeKey k)).tiles = s.tiles := rfl
@[simp] theorem State.completeKey_ms (s : State) (k : Nat × Nat) : ((s.completeKey k)).ms = s.ms := rfl
@[simp] theorem State.completeKey_st (s : State) (k : Nat × Nat) : ((s.completeKey k)).st = s.st := rfl
@[simp] theorem State.completeKey_pl (s : State) (k : Nat × Nat) : ((s.completeKey k)).pl = s.pl := rfl
@[simp] theorem State.completeKey_inbox (s : State) (k : Nat × Nat) : ((s.completeKey k)).inbox = s.inbox := rfl
@[simp] theorem State.completeKey_fresh (s : State) (k : Nat × Nat) : ((s.completeKey k)).fresh = s.fresh := rfl
@[simp] theorem Thread.setRaw_live (t : Thread) (i : Reg) (x : Word) : (t.setRaw i x).live = t.live := by unfold Thread.setRaw; split <;> rfl
@[simp] theorem Thread.setRaw_tid (t : Thread) (i : Reg) (x : Word) : (t.setRaw i x).tid = t.tid := by unfold Thread.setRaw; split <;> rfl
@[simp] theorem Thread.setRaw_dom (t : Thread) (i : Reg) (x : Word) : (t.setRaw i x).dom = t.dom := by unfold Thread.setRaw; split <;> rfl
@[simp] theorem Thread.setRaw_priv (t : Thread) (i : Reg) (x : Word) : (t.setRaw i x).priv = t.priv := by unfold Thread.setRaw; split <;> rfl
@[simp] theorem Thread.setRaw_gran (t : Thread) (i : Reg) (x : Word) : (t.setRaw i x).gran = t.gran := by unfold Thread.setRaw; split <;> rfl
@[simp] theorem Thread.setRaw_wbase (t : Thread) (i : Reg) (x : Word) : (t.setRaw i x).wbase = t.wbase := by unfold Thread.setRaw; split <;> rfl
@[simp] theorem Thread.setRaw_pc (t : Thread) (i : Reg) (x : Word) : (t.setRaw i x).pc = t.pc := by unfold Thread.setRaw; split <;> rfl
@[simp] theorem Thread.setRaw_win (t : Thread) (i : Reg) (x : Word) : (t.setRaw i x).win = t.win := by unfold Thread.setRaw; split <;> rfl
@[simp] theorem Thread.setRaw_guards (t : Thread) (i : Reg) (x : Word) : (t.setRaw i x).guards = t.guards := by unfold Thread.setRaw; split <;> rfl
@[simp] theorem Thread.setRaw_lp0 (t : Thread) (i : Reg) (x : Word) : (t.setRaw i x).lp0 = t.lp0 := by unfold Thread.setRaw; split <;> rfl
@[simp] theorem Thread.setRaw_lp1 (t : Thread) (i : Reg) (x : Word) : (t.setRaw i x).lp1 = t.lp1 := by unfold Thread.setRaw; split <;> rfl
@[simp] theorem Thread.setRaw_lps (t : Thread) (i : Reg) (x : Word) : (t.setRaw i x).lps = t.lps := by unfold Thread.setRaw; split <;> rfl
@[simp] theorem Thread.setRaw_vv (t : Thread) (i : Reg) (x : Word) : (t.setRaw i x).vv = t.vv := by unfold Thread.setRaw; split <;> rfl
@[simp] theorem Thread.setRaw_va (t : Thread) (i : Reg) (x : Word) : (t.setRaw i x).va = t.va := by unfold Thread.setRaw; split <;> rfl
@[simp] theorem Thread.setRaw_vx (t : Thread) (i : Reg) (x : Word) : (t.setRaw i x).vx = t.vx := by unfold Thread.setRaw; split <;> rfl
@[simp] theorem Thread.setRaw_fx (t : Thread) (i : Reg) (x : Word) : (t.setRaw i x).fx = t.fx := by unfold Thread.setRaw; split <;> rfl
@[simp] theorem Thread.setRaw_oob (t : Thread) (i : Reg) (x : Word) : (t.setRaw i x).oob = t.oob := by unfold Thread.setRaw; split <;> rfl
@[simp] theorem Thread.setRaw_caller (t : Thread) (i : Reg) (x : Word) : (t.setRaw i x).caller = t.caller := by unfold Thread.setRaw; split <;> rfl
@[simp] theorem Thread.setRaw_sb (t : Thread) (i : Reg) (x : Word) : (t.setRaw i x).sb = t.sb := by unfold Thread.setRaw; split <;> rfl
@[simp] theorem Thread.setRaw_hb (t : Thread) (i : Reg) (x : Word) : (t.setRaw i x).hb = t.hb := by unfold Thread.setRaw; split <;> rfl
@[simp] theorem Thread.setRaw_mu (t : Thread) (i : Reg) (x : Word) : (t.setRaw i x).mu = t.mu := by unfold Thread.setRaw; split <;> rfl
@[simp] theorem Thread.setRaw_cnt (t : Thread) (i : Reg) (x : Word) : (t.setRaw i x).cnt = t.cnt := by unfold Thread.setRaw; split <;> rfl
@[simp] theorem Thread.setRaw_sel (t : Thread) (i : Reg) (x : Word) : (t.setRaw i x).sel = t.sel := by unfold Thread.setRaw; split <;> rfl
@[simp] theorem Thread.setRaw_info (t : Thread) (i : Reg) (x : Word) : (t.setRaw i x).info = t.info := by unfold Thread.setRaw; split <;> rfl
@[simp] theorem Thread.setRaw_status (t : Thread) (i : Reg) (x : Word) : (t.setRaw i x).status = t.status := by unfold Thread.setRaw; split <;> rfl
@[simp] theorem Thread.setRaw_flow (t : Thread) (i : Reg) (x : Word) : (t.setRaw i x).flow = t.flow := by unfold Thread.setRaw; split <;> rfl
@[simp] theorem Thread.countAs_live (t : Thread) (u : Thread) (e n : Nat) : (t.countAs u e n).live = t.live := by unfold Thread.countAs; dsimp only; try (split <;> rfl)
@[simp] theorem Thread.countAs_tid (t : Thread) (u : Thread) (e n : Nat) : (t.countAs u e n).tid = t.tid := by unfold Thread.countAs; dsimp only; try (split <;> rfl)
@[simp] theorem Thread.countAs_dom (t : Thread) (u : Thread) (e n : Nat) : (t.countAs u e n).dom = t.dom := by unfold Thread.countAs; dsimp only; try (split <;> rfl)
@[simp] theorem Thread.countAs_priv (t : Thread) (u : Thread) (e n : Nat) : (t.countAs u e n).priv = t.priv := by unfold Thread.countAs; dsimp only; try (split <;> rfl)
@[simp] theorem Thread.countAs_gran (t : Thread) (u : Thread) (e n : Nat) : (t.countAs u e n).gran = t.gran := by unfold Thread.countAs; dsimp only; try (split <;> rfl)
@[simp] theorem Thread.countAs_wbase (t : Thread) (u : Thread) (e n : Nat) : (t.countAs u e n).wbase = t.wbase := by unfold Thread.countAs; dsimp only; try (split <;> rfl)
@[simp] theorem Thread.countAs_pc (t : Thread) (u : Thread) (e n : Nat) : (t.countAs u e n).pc = t.pc := by unfold Thread.countAs; dsimp only; try (split <;> rfl)
@[simp] theorem Thread.countAs_regs (t : Thread) (u : Thread) (e n : Nat) : (t.countAs u e n).regs = t.regs := by unfold Thread.countAs; dsimp only; try (split <;> rfl)
@[simp] theorem Thread.countAs_win (t : Thread) (u : Thread) (e n : Nat) : (t.countAs u e n).win = t.win := by unfold Thread.countAs; dsimp only; try (split <;> rfl)
@[simp] theorem Thread.countAs_guards (t : Thread) (u : Thread) (e n : Nat) : (t.countAs u e n).guards = t.guards := by unfold Thread.countAs; dsimp only; try (split <;> rfl)
@[simp] theorem Thread.countAs_lp0 (t : Thread) (u : Thread) (e n : Nat) : (t.countAs u e n).lp0 = t.lp0 := by unfold Thread.countAs; dsimp only; try (split <;> rfl)
@[simp] theorem Thread.countAs_lp1 (t : Thread) (u : Thread) (e n : Nat) : (t.countAs u e n).lp1 = t.lp1 := by unfold Thread.countAs; dsimp only; try (split <;> rfl)
@[simp] theorem Thread.countAs_lps (t : Thread) (u : Thread) (e n : Nat) : (t.countAs u e n).lps = t.lps := by unfold Thread.countAs; dsimp only; try (split <;> rfl)
@[simp] theorem Thread.countAs_vv (t : Thread) (u : Thread) (e n : Nat) : (t.countAs u e n).vv = t.vv := by unfold Thread.countAs; dsimp only; try (split <;> rfl)
@[simp] theorem Thread.countAs_va (t : Thread) (u : Thread) (e n : Nat) : (t.countAs u e n).va = t.va := by unfold Thread.countAs; dsimp only; try (split <;> rfl)
@[simp] theorem Thread.countAs_vx (t : Thread) (u : Thread) (e n : Nat) : (t.countAs u e n).vx = t.vx := by unfold Thread.countAs; dsimp only; try (split <;> rfl)
@[simp] theorem Thread.countAs_fx (t : Thread) (u : Thread) (e n : Nat) : (t.countAs u e n).fx = t.fx := by unfold Thread.countAs; dsimp only; try (split <;> rfl)
@[simp] theorem Thread.countAs_oob (t : Thread) (u : Thread) (e n : Nat) : (t.countAs u e n).oob = t.oob := by unfold Thread.countAs; dsimp only; try (split <;> rfl)
@[simp] theorem Thread.countAs_caller (t : Thread) (u : Thread) (e n : Nat) : (t.countAs u e n).caller = t.caller := by unfold Thread.countAs; dsimp only; try (split <;> rfl)
@[simp] theorem Thread.countAs_sb (t : Thread) (u : Thread) (e n : Nat) : (t.countAs u e n).sb = t.sb := by unfold Thread.countAs; dsimp only; try (split <;> rfl)
@[simp] theorem Thread.countAs_hb (t : Thread) (u : Thread) (e n : Nat) : (t.countAs u e n).hb = t.hb := by unfold Thread.countAs; dsimp only; try (split <;> rfl)
@[simp] theorem Thread.countAs_mu (t : Thread) (u : Thread) (e n : Nat) : (t.countAs u e n).mu = t.mu := by unfold Thread.countAs; dsimp only; try (split <;> rfl)
@[simp] theorem Thread.countAs_sel (t : Thread) (u : Thread) (e n : Nat) : (t.countAs u e n).sel = t.sel := by unfold Thread.countAs; dsimp only; try (split <;> rfl)
@[simp] theorem Thread.countAs_info (t : Thread) (u : Thread) (e n : Nat) : (t.countAs u e n).info = t.info := by unfold Thread.countAs; dsimp only; try (split <;> rfl)
@[simp] theorem Thread.countAs_status (t : Thread) (u : Thread) (e n : Nat) : (t.countAs u e n).status = t.status := by unfold Thread.countAs; dsimp only; try (split <;> rfl)
@[simp] theorem Thread.countAs_flow (t : Thread) (u : Thread) (e n : Nat) : (t.countAs u e n).flow = t.flow := by unfold Thread.countAs; dsimp only; try (split <;> rfl)
@[simp] theorem Thread.countEv_live (t : Thread) (e n : Nat) : (t.countEv e n).live = t.live := Thread.countAs_live t t e n
@[simp] theorem Thread.countEv_tid (t : Thread) (e n : Nat) : (t.countEv e n).tid = t.tid := Thread.countAs_tid t t e n
@[simp] theorem Thread.countEv_dom (t : Thread) (e n : Nat) : (t.countEv e n).dom = t.dom := Thread.countAs_dom t t e n
@[simp] theorem Thread.countEv_priv (t : Thread) (e n : Nat) : (t.countEv e n).priv = t.priv := Thread.countAs_priv t t e n
@[simp] theorem Thread.countEv_gran (t : Thread) (e n : Nat) : (t.countEv e n).gran = t.gran := Thread.countAs_gran t t e n
@[simp] theorem Thread.countEv_wbase (t : Thread) (e n : Nat) : (t.countEv e n).wbase = t.wbase := Thread.countAs_wbase t t e n
@[simp] theorem Thread.countEv_pc (t : Thread) (e n : Nat) : (t.countEv e n).pc = t.pc := Thread.countAs_pc t t e n
@[simp] theorem Thread.countEv_regs (t : Thread) (e n : Nat) : (t.countEv e n).regs = t.regs := Thread.countAs_regs t t e n
@[simp] theorem Thread.countEv_win (t : Thread) (e n : Nat) : (t.countEv e n).win = t.win := Thread.countAs_win t t e n
@[simp] theorem Thread.countEv_guards (t : Thread) (e n : Nat) : (t.countEv e n).guards = t.guards := Thread.countAs_guards t t e n
@[simp] theorem Thread.countEv_lp0 (t : Thread) (e n : Nat) : (t.countEv e n).lp0 = t.lp0 := Thread.countAs_lp0 t t e n
@[simp] theorem Thread.countEv_lp1 (t : Thread) (e n : Nat) : (t.countEv e n).lp1 = t.lp1 := Thread.countAs_lp1 t t e n
@[simp] theorem Thread.countEv_lps (t : Thread) (e n : Nat) : (t.countEv e n).lps = t.lps := Thread.countAs_lps t t e n
@[simp] theorem Thread.countEv_vv (t : Thread) (e n : Nat) : (t.countEv e n).vv = t.vv := Thread.countAs_vv t t e n
@[simp] theorem Thread.countEv_va (t : Thread) (e n : Nat) : (t.countEv e n).va = t.va := Thread.countAs_va t t e n
@[simp] theorem Thread.countEv_vx (t : Thread) (e n : Nat) : (t.countEv e n).vx = t.vx := Thread.countAs_vx t t e n
@[simp] theorem Thread.countEv_fx (t : Thread) (e n : Nat) : (t.countEv e n).fx = t.fx := Thread.countAs_fx t t e n
@[simp] theorem Thread.countEv_oob (t : Thread) (e n : Nat) : (t.countEv e n).oob = t.oob := Thread.countAs_oob t t e n
@[simp] theorem Thread.countEv_caller (t : Thread) (e n : Nat) : (t.countEv e n).caller = t.caller := Thread.countAs_caller t t e n
@[simp] theorem Thread.countEv_sb (t : Thread) (e n : Nat) : (t.countEv e n).sb = t.sb := Thread.countAs_sb t t e n
@[simp] theorem Thread.countEv_hb (t : Thread) (e n : Nat) : (t.countEv e n).hb = t.hb := Thread.countAs_hb t t e n
@[simp] theorem Thread.countEv_mu (t : Thread) (e n : Nat) : (t.countEv e n).mu = t.mu := Thread.countAs_mu t t e n
@[simp] theorem Thread.countEv_sel (t : Thread) (e n : Nat) : (t.countEv e n).sel = t.sel := Thread.countAs_sel t t e n
@[simp] theorem Thread.countEv_info (t : Thread) (e n : Nat) : (t.countEv e n).info = t.info := Thread.countAs_info t t e n
@[simp] theorem Thread.countEv_status (t : Thread) (e n : Nat) : (t.countEv e n).status = t.status := Thread.countAs_status t t e n
@[simp] theorem Thread.countEv_flow (t : Thread) (e n : Nat) : (t.countEv e n).flow = t.flow := Thread.countAs_flow t t e n
@[simp] theorem Thread.claim_live (t : Thread) (a : Nat) : (t.claim a).live = t.live := rfl
@[simp] theorem Thread.claim_tid (t : Thread) (a : Nat) : (t.claim a).tid = t.tid := rfl
@[simp] theorem Thread.claim_dom (t : Thread) (a : Nat) : (t.claim a).dom = t.dom := rfl
@[simp] theorem Thread.claim_priv (t : Thread) (a : Nat) : (t.claim a).priv = t.priv := rfl
@[simp] theorem Thread.claim_gran (t : Thread) (a : Nat) : (t.claim a).gran = t.gran := rfl
@[simp] theorem Thread.claim_wbase (t : Thread) (a : Nat) : (t.claim a).wbase = t.wbase := rfl
@[simp] theorem Thread.claim_pc (t : Thread) (a : Nat) : (t.claim a).pc = t.pc := rfl
@[simp] theorem Thread.claim_regs (t : Thread) (a : Nat) : (t.claim a).regs = t.regs := rfl
@[simp] theorem Thread.claim_win (t : Thread) (a : Nat) : (t.claim a).win = t.win := rfl
@[simp] theorem Thread.claim_guards (t : Thread) (a : Nat) : (t.claim a).guards = t.guards := rfl
@[simp] theorem Thread.claim_lp0 (t : Thread) (a : Nat) : (t.claim a).lp0 = t.lp0 := rfl
@[simp] theorem Thread.claim_lp1 (t : Thread) (a : Nat) : (t.claim a).lp1 = t.lp1 := rfl
@[simp] theorem Thread.claim_lps (t : Thread) (a : Nat) : (t.claim a).lps = t.lps := rfl
@[simp] theorem Thread.claim_vv (t : Thread) (a : Nat) : (t.claim a).vv = t.vv := rfl
@[simp] theorem Thread.claim_va (t : Thread) (a : Nat) : (t.claim a).va = t.va := rfl
@[simp] theorem Thread.claim_vx (t : Thread) (a : Nat) : (t.claim a).vx = t.vx := rfl
@[simp] theorem Thread.claim_fx (t : Thread) (a : Nat) : (t.claim a).fx = t.fx := rfl
@[simp] theorem Thread.claim_oob (t : Thread) (a : Nat) : (t.claim a).oob = t.oob := rfl
@[simp] theorem Thread.claim_caller (t : Thread) (a : Nat) : (t.claim a).caller = t.caller := rfl
@[simp] theorem Thread.claim_sb (t : Thread) (a : Nat) : (t.claim a).sb = t.sb := rfl
@[simp] theorem Thread.claim_hb (t : Thread) (a : Nat) : (t.claim a).hb = t.hb := rfl
@[simp] theorem Thread.claim_cnt (t : Thread) (a : Nat) : (t.claim a).cnt = t.cnt := rfl
@[simp] theorem Thread.claim_sel (t : Thread) (a : Nat) : (t.claim a).sel = t.sel := rfl
@[simp] theorem Thread.claim_info (t : Thread) (a : Nat) : (t.claim a).info = t.info := rfl
@[simp] theorem Thread.claim_status (t : Thread) (a : Nat) : (t.claim a).status = t.status := rfl
@[simp] theorem Thread.claim_flow (t : Thread) (a : Nat) : (t.claim a).flow = t.flow := rfl
@[simp] theorem Thread.setGuard_live (t : Thread) (i : Nat) (g : Guard) : (t.setGuard i g).live = t.live := by unfold Thread.setGuard; split <;> rfl
@[simp] theorem Thread.setGuard_tid (t : Thread) (i : Nat) (g : Guard) : (t.setGuard i g).tid = t.tid := by unfold Thread.setGuard; split <;> rfl
@[simp] theorem Thread.setGuard_dom (t : Thread) (i : Nat) (g : Guard) : (t.setGuard i g).dom = t.dom := by unfold Thread.setGuard; split <;> rfl
@[simp] theorem Thread.setGuard_priv (t : Thread) (i : Nat) (g : Guard) : (t.setGuard i g).priv = t.priv := by unfold Thread.setGuard; split <;> rfl
@[simp] theorem Thread.setGuard_gran (t : Thread) (i : Nat) (g : Guard) : (t.setGuard i g).gran = t.gran := by unfold Thread.setGuard; split <;> rfl
@[simp] theorem Thread.setGuard_wbase (t : Thread) (i : Nat) (g : Guard) : (t.setGuard i g).wbase = t.wbase := by unfold Thread.setGuard; split <;> rfl
@[simp] theorem Thread.setGuard_pc (t : Thread) (i : Nat) (g : Guard) : (t.setGuard i g).pc = t.pc := by unfold Thread.setGuard; split <;> rfl
@[simp] theorem Thread.setGuard_regs (t : Thread) (i : Nat) (g : Guard) : (t.setGuard i g).regs = t.regs := by unfold Thread.setGuard; split <;> rfl
@[simp] theorem Thread.setGuard_win (t : Thread) (i : Nat) (g : Guard) : (t.setGuard i g).win = t.win := by unfold Thread.setGuard; split <;> rfl
@[simp] theorem Thread.setGuard_lp0 (t : Thread) (i : Nat) (g : Guard) : (t.setGuard i g).lp0 = t.lp0 := by unfold Thread.setGuard; split <;> rfl
@[simp] theorem Thread.setGuard_lp1 (t : Thread) (i : Nat) (g : Guard) : (t.setGuard i g).lp1 = t.lp1 := by unfold Thread.setGuard; split <;> rfl
@[simp] theorem Thread.setGuard_lps (t : Thread) (i : Nat) (g : Guard) : (t.setGuard i g).lps = t.lps := by unfold Thread.setGuard; split <;> rfl
@[simp] theorem Thread.setGuard_vv (t : Thread) (i : Nat) (g : Guard) : (t.setGuard i g).vv = t.vv := by unfold Thread.setGuard; split <;> rfl
@[simp] theorem Thread.setGuard_va (t : Thread) (i : Nat) (g : Guard) : (t.setGuard i g).va = t.va := by unfold Thread.setGuard; split <;> rfl
@[simp] theorem Thread.setGuard_vx (t : Thread) (i : Nat) (g : Guard) : (t.setGuard i g).vx = t.vx := by unfold Thread.setGuard; split <;> rfl
@[simp] theorem Thread.setGuard_fx (t : Thread) (i : Nat) (g : Guard) : (t.setGuard i g).fx = t.fx := by unfold Thread.setGuard; split <;> rfl
@[simp] theorem Thread.setGuard_oob (t : Thread) (i : Nat) (g : Guard) : (t.setGuard i g).oob = t.oob := by unfold Thread.setGuard; split <;> rfl
@[simp] theorem Thread.setGuard_caller (t : Thread) (i : Nat) (g : Guard) : (t.setGuard i g).caller = t.caller := by unfold Thread.setGuard; split <;> rfl
@[simp] theorem Thread.setGuard_sb (t : Thread) (i : Nat) (g : Guard) : (t.setGuard i g).sb = t.sb := by unfold Thread.setGuard; split <;> rfl
@[simp] theorem Thread.setGuard_hb (t : Thread) (i : Nat) (g : Guard) : (t.setGuard i g).hb = t.hb := by unfold Thread.setGuard; split <;> rfl
@[simp] theorem Thread.setGuard_mu (t : Thread) (i : Nat) (g : Guard) : (t.setGuard i g).mu = t.mu := by unfold Thread.setGuard; split <;> rfl
@[simp] theorem Thread.setGuard_cnt (t : Thread) (i : Nat) (g : Guard) : (t.setGuard i g).cnt = t.cnt := by unfold Thread.setGuard; split <;> rfl
@[simp] theorem Thread.setGuard_sel (t : Thread) (i : Nat) (g : Guard) : (t.setGuard i g).sel = t.sel := by unfold Thread.setGuard; split <;> rfl
@[simp] theorem Thread.setGuard_info (t : Thread) (i : Nat) (g : Guard) : (t.setGuard i g).info = t.info := by unfold Thread.setGuard; split <;> rfl
@[simp] theorem Thread.setGuard_status (t : Thread) (i : Nat) (g : Guard) : (t.setGuard i g).status = t.status := by unfold Thread.setGuard; split <;> rfl
@[simp] theorem Thread.setGuard_flow (t : Thread) (i : Nat) (g : Guard) : (t.setGuard i g).flow = t.flow := by unfold Thread.setGuard; split <;> rfl
@[simp] theorem Thread.setBank_live (t : Thread) (m : Priv) (b : TrapBank) : (t.setBank m b).live = t.live := by unfold Thread.setBank; split <;> rfl
@[simp] theorem Thread.setBank_tid (t : Thread) (m : Priv) (b : TrapBank) : (t.setBank m b).tid = t.tid := by unfold Thread.setBank; split <;> rfl
@[simp] theorem Thread.setBank_dom (t : Thread) (m : Priv) (b : TrapBank) : (t.setBank m b).dom = t.dom := by unfold Thread.setBank; split <;> rfl
@[simp] theorem Thread.setBank_priv (t : Thread) (m : Priv) (b : TrapBank) : (t.setBank m b).priv = t.priv := by unfold Thread.setBank; split <;> rfl
@[simp] theorem Thread.setBank_gran (t : Thread) (m : Priv) (b : TrapBank) : (t.setBank m b).gran = t.gran := by unfold Thread.setBank; split <;> rfl
@[simp] theorem Thread.setBank_wbase (t : Thread) (m : Priv) (b : TrapBank) : (t.setBank m b).wbase = t.wbase := by unfold Thread.setBank; split <;> rfl
@[simp] theorem Thread.setBank_pc (t : Thread) (m : Priv) (b : TrapBank) : (t.setBank m b).pc = t.pc := by unfold Thread.setBank; split <;> rfl
@[simp] theorem Thread.setBank_regs (t : Thread) (m : Priv) (b : TrapBank) : (t.setBank m b).regs = t.regs := by unfold Thread.setBank; split <;> rfl
@[simp] theorem Thread.setBank_win (t : Thread) (m : Priv) (b : TrapBank) : (t.setBank m b).win = t.win := by unfold Thread.setBank; split <;> rfl
@[simp] theorem Thread.setBank_guards (t : Thread) (m : Priv) (b : TrapBank) : (t.setBank m b).guards = t.guards := by unfold Thread.setBank; split <;> rfl
@[simp] theorem Thread.setBank_lp0 (t : Thread) (m : Priv) (b : TrapBank) : (t.setBank m b).lp0 = t.lp0 := by unfold Thread.setBank; split <;> rfl
@[simp] theorem Thread.setBank_lp1 (t : Thread) (m : Priv) (b : TrapBank) : (t.setBank m b).lp1 = t.lp1 := by unfold Thread.setBank; split <;> rfl
@[simp] theorem Thread.setBank_lps (t : Thread) (m : Priv) (b : TrapBank) : (t.setBank m b).lps = t.lps := by unfold Thread.setBank; split <;> rfl
@[simp] theorem Thread.setBank_vv (t : Thread) (m : Priv) (b : TrapBank) : (t.setBank m b).vv = t.vv := by unfold Thread.setBank; split <;> rfl
@[simp] theorem Thread.setBank_va (t : Thread) (m : Priv) (b : TrapBank) : (t.setBank m b).va = t.va := by unfold Thread.setBank; split <;> rfl
@[simp] theorem Thread.setBank_vx (t : Thread) (m : Priv) (b : TrapBank) : (t.setBank m b).vx = t.vx := by unfold Thread.setBank; split <;> rfl
@[simp] theorem Thread.setBank_fx (t : Thread) (m : Priv) (b : TrapBank) : (t.setBank m b).fx = t.fx := by unfold Thread.setBank; split <;> rfl
@[simp] theorem Thread.setBank_oob (t : Thread) (m : Priv) (b : TrapBank) : (t.setBank m b).oob = t.oob := by unfold Thread.setBank; split <;> rfl
@[simp] theorem Thread.setBank_caller (t : Thread) (m : Priv) (b : TrapBank) : (t.setBank m b).caller = t.caller := by unfold Thread.setBank; split <;> rfl
@[simp] theorem Thread.setBank_mu (t : Thread) (m : Priv) (b : TrapBank) : (t.setBank m b).mu = t.mu := by unfold Thread.setBank; split <;> rfl
@[simp] theorem Thread.setBank_cnt (t : Thread) (m : Priv) (b : TrapBank) : (t.setBank m b).cnt = t.cnt := by unfold Thread.setBank; split <;> rfl
@[simp] theorem Thread.setBank_sel (t : Thread) (m : Priv) (b : TrapBank) : (t.setBank m b).sel = t.sel := by unfold Thread.setBank; split <;> rfl
@[simp] theorem Thread.setBank_info (t : Thread) (m : Priv) (b : TrapBank) : (t.setBank m b).info = t.info := by unfold Thread.setBank; split <;> rfl
@[simp] theorem Thread.setBank_status (t : Thread) (m : Priv) (b : TrapBank) : (t.setBank m b).status = t.status := by unfold Thread.setBank; split <;> rfl
@[simp] theorem Thread.setBank_flow (t : Thread) (m : Priv) (b : TrapBank) : (t.setBank m b).flow = t.flow := by unfold Thread.setBank; split <;> rfl
@[simp] theorem Thread.afterIssue_live (t : Thread) (p : Thread) (i : Instr) (j : Bool) : (t.afterIssue p i j).live = t.live := rfl
@[simp] theorem Thread.afterIssue_tid (t : Thread) (p : Thread) (i : Instr) (j : Bool) : (t.afterIssue p i j).tid = t.tid := rfl
@[simp] theorem Thread.afterIssue_dom (t : Thread) (p : Thread) (i : Instr) (j : Bool) : (t.afterIssue p i j).dom = t.dom := rfl
@[simp] theorem Thread.afterIssue_priv (t : Thread) (p : Thread) (i : Instr) (j : Bool) : (t.afterIssue p i j).priv = t.priv := rfl
@[simp] theorem Thread.afterIssue_gran (t : Thread) (p : Thread) (i : Instr) (j : Bool) : (t.afterIssue p i j).gran = t.gran := rfl
@[simp] theorem Thread.afterIssue_wbase (t : Thread) (p : Thread) (i : Instr) (j : Bool) : (t.afterIssue p i j).wbase = t.wbase := rfl
@[simp] theorem Thread.afterIssue_pc (t : Thread) (p : Thread) (i : Instr) (j : Bool) : (t.afterIssue p i j).pc = t.pc := rfl
@[simp] theorem Thread.afterIssue_regs (t : Thread) (p : Thread) (i : Instr) (j : Bool) : (t.afterIssue p i j).regs = t.regs := rfl
@[simp] theorem Thread.afterIssue_win (t : Thread) (p : Thread) (i : Instr) (j : Bool) : (t.afterIssue p i j).win = t.win := rfl
@[simp] theorem Thread.afterIssue_guards (t : Thread) (p : Thread) (i : Instr) (j : Bool) : (t.afterIssue p i j).guards = t.guards := rfl
@[simp] theorem Thread.afterIssue_lp0 (t : Thread) (p : Thread) (i : Instr) (j : Bool) : (t.afterIssue p i j).lp0 = t.lp0 := rfl
@[simp] theorem Thread.afterIssue_lp1 (t : Thread) (p : Thread) (i : Instr) (j : Bool) : (t.afterIssue p i j).lp1 = t.lp1 := rfl
@[simp] theorem Thread.afterIssue_lps (t : Thread) (p : Thread) (i : Instr) (j : Bool) : (t.afterIssue p i j).lps = t.lps := rfl
@[simp] theorem Thread.afterIssue_vv (t : Thread) (p : Thread) (i : Instr) (j : Bool) : (t.afterIssue p i j).vv = t.vv := rfl
@[simp] theorem Thread.afterIssue_va (t : Thread) (p : Thread) (i : Instr) (j : Bool) : (t.afterIssue p i j).va = t.va := rfl
@[simp] theorem Thread.afterIssue_vx (t : Thread) (p : Thread) (i : Instr) (j : Bool) : (t.afterIssue p i j).vx = t.vx := rfl
@[simp] theorem Thread.afterIssue_fx (t : Thread) (p : Thread) (i : Instr) (j : Bool) : (t.afterIssue p i j).fx = t.fx := rfl
@[simp] theorem Thread.afterIssue_oob (t : Thread) (p : Thread) (i : Instr) (j : Bool) : (t.afterIssue p i j).oob = t.oob := rfl
@[simp] theorem Thread.afterIssue_caller (t : Thread) (p : Thread) (i : Instr) (j : Bool) : (t.afterIssue p i j).caller = t.caller := rfl
@[simp] theorem Thread.afterIssue_sb (t : Thread) (p : Thread) (i : Instr) (j : Bool) : (t.afterIssue p i j).sb = t.sb := rfl
@[simp] theorem Thread.afterIssue_hb (t : Thread) (p : Thread) (i : Instr) (j : Bool) : (t.afterIssue p i j).hb = t.hb := rfl
@[simp] theorem Thread.afterIssue_mu (t : Thread) (p : Thread) (i : Instr) (j : Bool) : (t.afterIssue p i j).mu = t.mu := rfl
@[simp] theorem Thread.afterIssue_cnt (t : Thread) (p : Thread) (i : Instr) (j : Bool) : (t.afterIssue p i j).cnt = t.cnt := rfl
@[simp] theorem Thread.afterIssue_sel (t : Thread) (p : Thread) (i : Instr) (j : Bool) : (t.afterIssue p i j).sel = t.sel := rfl
@[simp] theorem Thread.afterIssue_info (t : Thread) (p : Thread) (i : Instr) (j : Bool) : (t.afterIssue p i j).info = t.info := rfl
@[simp] theorem Thread.counted_live (t : Thread) (p : Thread) (i : Instr) : (t.counted p i).live = t.live := by unfold Thread.counted; dsimp only; split <;> simp
@[simp] theorem Thread.counted_tid (t : Thread) (p : Thread) (i : Instr) : (t.counted p i).tid = t.tid := by unfold Thread.counted; dsimp only; split <;> simp
@[simp] theorem Thread.counted_dom (t : Thread) (p : Thread) (i : Instr) : (t.counted p i).dom = t.dom := by unfold Thread.counted; dsimp only; split <;> simp
@[simp] theorem Thread.counted_priv (t : Thread) (p : Thread) (i : Instr) : (t.counted p i).priv = t.priv := by unfold Thread.counted; dsimp only; split <;> simp
@[simp] theorem Thread.counted_gran (t : Thread) (p : Thread) (i : Instr) : (t.counted p i).gran = t.gran := by unfold Thread.counted; dsimp only; split <;> simp
@[simp] theorem Thread.counted_wbase (t : Thread) (p : Thread) (i : Instr) : (t.counted p i).wbase = t.wbase := by unfold Thread.counted; dsimp only; split <;> simp
@[simp] theorem Thread.counted_pc (t : Thread) (p : Thread) (i : Instr) : (t.counted p i).pc = t.pc := by unfold Thread.counted; dsimp only; split <;> simp
@[simp] theorem Thread.counted_regs (t : Thread) (p : Thread) (i : Instr) : (t.counted p i).regs = t.regs := by unfold Thread.counted; dsimp only; split <;> simp
@[simp] theorem Thread.counted_win (t : Thread) (p : Thread) (i : Instr) : (t.counted p i).win = t.win := by unfold Thread.counted; dsimp only; split <;> simp
@[simp] theorem Thread.counted_guards (t : Thread) (p : Thread) (i : Instr) : (t.counted p i).guards = t.guards := by unfold Thread.counted; dsimp only; split <;> simp
@[simp] theorem Thread.counted_lp0 (t : Thread) (p : Thread) (i : Instr) : (t.counted p i).lp0 = t.lp0 := by unfold Thread.counted; dsimp only; split <;> simp
@[simp] theorem Thread.counted_lp1 (t : Thread) (p : Thread) (i : Instr) : (t.counted p i).lp1 = t.lp1 := by unfold Thread.counted; dsimp only; split <;> simp
@[simp] theorem Thread.counted_lps (t : Thread) (p : Thread) (i : Instr) : (t.counted p i).lps = t.lps := by unfold Thread.counted; dsimp only; split <;> simp
@[simp] theorem Thread.counted_vv (t : Thread) (p : Thread) (i : Instr) : (t.counted p i).vv = t.vv := by unfold Thread.counted; dsimp only; split <;> simp
@[simp] theorem Thread.counted_va (t : Thread) (p : Thread) (i : Instr) : (t.counted p i).va = t.va := by unfold Thread.counted; dsimp only; split <;> simp
@[simp] theorem Thread.counted_vx (t : Thread) (p : Thread) (i : Instr) : (t.counted p i).vx = t.vx := by unfold Thread.counted; dsimp only; split <;> simp
@[simp] theorem Thread.counted_fx (t : Thread) (p : Thread) (i : Instr) : (t.counted p i).fx = t.fx := by unfold Thread.counted; dsimp only; split <;> simp
@[simp] theorem Thread.counted_oob (t : Thread) (p : Thread) (i : Instr) : (t.counted p i).oob = t.oob := by unfold Thread.counted; dsimp only; split <;> simp
@[simp] theorem Thread.counted_caller (t : Thread) (p : Thread) (i : Instr) : (t.counted p i).caller = t.caller := by unfold Thread.counted; dsimp only; split <;> simp
@[simp] theorem Thread.counted_sb (t : Thread) (p : Thread) (i : Instr) : (t.counted p i).sb = t.sb := by unfold Thread.counted; dsimp only; split <;> simp
@[simp] theorem Thread.counted_hb (t : Thread) (p : Thread) (i : Instr) : (t.counted p i).hb = t.hb := by unfold Thread.counted; dsimp only; split <;> simp
@[simp] theorem Thread.counted_mu (t : Thread) (p : Thread) (i : Instr) : (t.counted p i).mu = t.mu := by unfold Thread.counted; dsimp only; split <;> simp
@[simp] theorem Thread.counted_sel (t : Thread) (p : Thread) (i : Instr) : (t.counted p i).sel = t.sel := by unfold Thread.counted; dsimp only; split <;> simp
@[simp] theorem Thread.counted_info (t : Thread) (p : Thread) (i : Instr) : (t.counted p i).info = t.info := by unfold Thread.counted; dsimp only; split <;> simp
@[simp] theorem Thread.counted_status (t : Thread) (p : Thread) (i : Instr) : (t.counted p i).status = t.status := by unfold Thread.counted; dsimp only; split <;> simp
@[simp] theorem Thread.counted_flow (t : Thread) (p : Thread) (i : Instr) : (t.counted p i).flow = t.flow := by unfold Thread.counted; dsimp only; split <;> simp
@[simp] theorem Thread.outOfRange_live (t : Thread) (e : Nat) : (t.outOfRange e).live = t.live := by unfold Thread.outOfRange; split <;> rfl
@[simp] theorem Thread.outOfRange_tid (t : Thread) (e : Nat) : (t.outOfRange e).tid = t.tid := by unfold Thread.outOfRange; split <;> rfl
@[simp] theorem Thread.outOfRange_dom (t : Thread) (e : Nat) : (t.outOfRange e).dom = t.dom := by unfold Thread.outOfRange; split <;> rfl
@[simp] theorem Thread.outOfRange_priv (t : Thread) (e : Nat) : (t.outOfRange e).priv = t.priv := by unfold Thread.outOfRange; split <;> rfl
@[simp] theorem Thread.outOfRange_gran (t : Thread) (e : Nat) : (t.outOfRange e).gran = t.gran := by unfold Thread.outOfRange; split <;> rfl
@[simp] theorem Thread.outOfRange_wbase (t : Thread) (e : Nat) : (t.outOfRange e).wbase = t.wbase := by unfold Thread.outOfRange; split <;> rfl
@[simp] theorem Thread.outOfRange_pc (t : Thread) (e : Nat) : (t.outOfRange e).pc = t.pc := by unfold Thread.outOfRange; split <;> rfl
@[simp] theorem Thread.outOfRange_regs (t : Thread) (e : Nat) : (t.outOfRange e).regs = t.regs := by unfold Thread.outOfRange; split <;> rfl
@[simp] theorem Thread.outOfRange_win (t : Thread) (e : Nat) : (t.outOfRange e).win = t.win := by unfold Thread.outOfRange; split <;> rfl
@[simp] theorem Thread.outOfRange_guards (t : Thread) (e : Nat) : (t.outOfRange e).guards = t.guards := by unfold Thread.outOfRange; split <;> rfl
@[simp] theorem Thread.outOfRange_lp0 (t : Thread) (e : Nat) : (t.outOfRange e).lp0 = t.lp0 := by unfold Thread.outOfRange; split <;> rfl
@[simp] theorem Thread.outOfRange_lp1 (t : Thread) (e : Nat) : (t.outOfRange e).lp1 = t.lp1 := by unfold Thread.outOfRange; split <;> rfl
@[simp] theorem Thread.outOfRange_lps (t : Thread) (e : Nat) : (t.outOfRange e).lps = t.lps := by unfold Thread.outOfRange; split <;> rfl
@[simp] theorem Thread.outOfRange_vv (t : Thread) (e : Nat) : (t.outOfRange e).vv = t.vv := by unfold Thread.outOfRange; split <;> rfl
@[simp] theorem Thread.outOfRange_va (t : Thread) (e : Nat) : (t.outOfRange e).va = t.va := by unfold Thread.outOfRange; split <;> rfl
@[simp] theorem Thread.outOfRange_vx (t : Thread) (e : Nat) : (t.outOfRange e).vx = t.vx := by unfold Thread.outOfRange; split <;> rfl
@[simp] theorem Thread.outOfRange_fx (t : Thread) (e : Nat) : (t.outOfRange e).fx = t.fx := by unfold Thread.outOfRange; split <;> rfl
@[simp] theorem Thread.outOfRange_caller (t : Thread) (e : Nat) : (t.outOfRange e).caller = t.caller := by unfold Thread.outOfRange; split <;> rfl
@[simp] theorem Thread.outOfRange_sb (t : Thread) (e : Nat) : (t.outOfRange e).sb = t.sb := by unfold Thread.outOfRange; split <;> rfl
@[simp] theorem Thread.outOfRange_hb (t : Thread) (e : Nat) : (t.outOfRange e).hb = t.hb := by unfold Thread.outOfRange; split <;> rfl
@[simp] theorem Thread.outOfRange_mu (t : Thread) (e : Nat) : (t.outOfRange e).mu = t.mu := by unfold Thread.outOfRange; split <;> rfl
@[simp] theorem Thread.outOfRange_cnt (t : Thread) (e : Nat) : (t.outOfRange e).cnt = t.cnt := by unfold Thread.outOfRange; split <;> rfl
@[simp] theorem Thread.outOfRange_sel (t : Thread) (e : Nat) : (t.outOfRange e).sel = t.sel := by unfold Thread.outOfRange; split <;> rfl
@[simp] theorem Thread.outOfRange_info (t : Thread) (e : Nat) : (t.outOfRange e).info = t.info := by unfold Thread.outOfRange; split <;> rfl
@[simp] theorem Thread.outOfRange_status (t : Thread) (e : Nat) : (t.outOfRange e).status = t.status := by unfold Thread.outOfRange; split <;> rfl
@[simp] theorem Thread.outOfRange_flow (t : Thread) (e : Nat) : (t.outOfRange e).flow = t.flow := by unfold Thread.outOfRange; split <;> rfl
@[simp] theorem Thread.closeLoops_live (t : Thread) (a : Word) : (t.closeLoops a).live = t.live := by unfold Thread.closeLoops; dsimp only; split <;> [rfl; (split <;> rfl)]
@[simp] theorem Thread.closeLoops_tid (t : Thread) (a : Word) : (t.closeLoops a).tid = t.tid := by unfold Thread.closeLoops; dsimp only; split <;> [rfl; (split <;> rfl)]
@[simp] theorem Thread.closeLoops_dom (t : Thread) (a : Word) : (t.closeLoops a).dom = t.dom := by unfold Thread.closeLoops; dsimp only; split <;> [rfl; (split <;> rfl)]
@[simp] theorem Thread.closeLoops_priv (t : Thread) (a : Word) : (t.closeLoops a).priv = t.priv := by unfold Thread.closeLoops; dsimp only; split <;> [rfl; (split <;> rfl)]
@[simp] theorem Thread.closeLoops_gran (t : Thread) (a : Word) : (t.closeLoops a).gran = t.gran := by unfold Thread.closeLoops; dsimp only; split <;> [rfl; (split <;> rfl)]
@[simp] theorem Thread.closeLoops_wbase (t : Thread) (a : Word) : (t.closeLoops a).wbase = t.wbase := by unfold Thread.closeLoops; dsimp only; split <;> [rfl; (split <;> rfl)]
@[simp] theorem Thread.closeLoops_pc (t : Thread) (a : Word) : (t.closeLoops a).pc = t.pc := by unfold Thread.closeLoops; dsimp only; split <;> [rfl; (split <;> rfl)]
@[simp] theorem Thread.closeLoops_regs (t : Thread) (a : Word) : (t.closeLoops a).regs = t.regs := by unfold Thread.closeLoops; dsimp only; split <;> [rfl; (split <;> rfl)]
@[simp] theorem Thread.closeLoops_win (t : Thread) (a : Word) : (t.closeLoops a).win = t.win := by unfold Thread.closeLoops; dsimp only; split <;> [rfl; (split <;> rfl)]
@[simp] theorem Thread.closeLoops_guards (t : Thread) (a : Word) : (t.closeLoops a).guards = t.guards := by unfold Thread.closeLoops; dsimp only; split <;> [rfl; (split <;> rfl)]
@[simp] theorem Thread.closeLoops_lps (t : Thread) (a : Word) : (t.closeLoops a).lps = t.lps := by unfold Thread.closeLoops; dsimp only; split <;> [rfl; (split <;> rfl)]
@[simp] theorem Thread.closeLoops_vv (t : Thread) (a : Word) : (t.closeLoops a).vv = t.vv := by unfold Thread.closeLoops; dsimp only; split <;> [rfl; (split <;> rfl)]
@[simp] theorem Thread.closeLoops_va (t : Thread) (a : Word) : (t.closeLoops a).va = t.va := by unfold Thread.closeLoops; dsimp only; split <;> [rfl; (split <;> rfl)]
@[simp] theorem Thread.closeLoops_vx (t : Thread) (a : Word) : (t.closeLoops a).vx = t.vx := by unfold Thread.closeLoops; dsimp only; split <;> [rfl; (split <;> rfl)]
@[simp] theorem Thread.closeLoops_fx (t : Thread) (a : Word) : (t.closeLoops a).fx = t.fx := by unfold Thread.closeLoops; dsimp only; split <;> [rfl; (split <;> rfl)]
@[simp] theorem Thread.closeLoops_oob (t : Thread) (a : Word) : (t.closeLoops a).oob = t.oob := by unfold Thread.closeLoops; dsimp only; split <;> [rfl; (split <;> rfl)]
@[simp] theorem Thread.closeLoops_caller (t : Thread) (a : Word) : (t.closeLoops a).caller = t.caller := by unfold Thread.closeLoops; dsimp only; split <;> [rfl; (split <;> rfl)]
@[simp] theorem Thread.closeLoops_sb (t : Thread) (a : Word) : (t.closeLoops a).sb = t.sb := by unfold Thread.closeLoops; dsimp only; split <;> [rfl; (split <;> rfl)]
@[simp] theorem Thread.closeLoops_hb (t : Thread) (a : Word) : (t.closeLoops a).hb = t.hb := by unfold Thread.closeLoops; dsimp only; split <;> [rfl; (split <;> rfl)]
@[simp] theorem Thread.closeLoops_mu (t : Thread) (a : Word) : (t.closeLoops a).mu = t.mu := by unfold Thread.closeLoops; dsimp only; split <;> [rfl; (split <;> rfl)]
@[simp] theorem Thread.closeLoops_cnt (t : Thread) (a : Word) : (t.closeLoops a).cnt = t.cnt := by unfold Thread.closeLoops; dsimp only; split <;> [rfl; (split <;> rfl)]
@[simp] theorem Thread.closeLoops_sel (t : Thread) (a : Word) : (t.closeLoops a).sel = t.sel := by unfold Thread.closeLoops; dsimp only; split <;> [rfl; (split <;> rfl)]
@[simp] theorem Thread.closeLoops_info (t : Thread) (a : Word) : (t.closeLoops a).info = t.info := by unfold Thread.closeLoops; dsimp only; split <;> [rfl; (split <;> rfl)]
@[simp] theorem Thread.closeLoops_status (t : Thread) (a : Word) : (t.closeLoops a).status = t.status := by unfold Thread.closeLoops; dsimp only; split <;> [rfl; (split <;> rfl)]
@[simp] theorem Thread.closeLoops_flow (t : Thread) (a : Word) : (t.closeLoops a).flow = t.flow := by unfold Thread.closeLoops; dsimp only; split <;> [rfl; (split <;> rfl)]
@[simp] theorem Thread.gw_live (t : Thread) (i : Reg) (x : Word) : (t.gw i x).live = t.live := by unfold Thread.gw; split <;> simp
@[simp] theorem Thread.gw_tid (t : Thread) (i : Reg) (x : Word) : (t.gw i x).tid = t.tid := by unfold Thread.gw; split <;> simp
@[simp] theorem Thread.gw_dom (t : Thread) (i : Reg) (x : Word) : (t.gw i x).dom = t.dom := by unfold Thread.gw; split <;> simp
@[simp] theorem Thread.gw_priv (t : Thread) (i : Reg) (x : Word) : (t.gw i x).priv = t.priv := by unfold Thread.gw; split <;> simp
@[simp] theorem Thread.gw_gran (t : Thread) (i : Reg) (x : Word) : (t.gw i x).gran = t.gran := by unfold Thread.gw; split <;> simp
@[simp] theorem Thread.gw_wbase (t : Thread) (i : Reg) (x : Word) : (t.gw i x).wbase = t.wbase := by unfold Thread.gw; split <;> simp
@[simp] theorem Thread.gw_pc (t : Thread) (i : Reg) (x : Word) : (t.gw i x).pc = t.pc := by unfold Thread.gw; split <;> simp
@[simp] theorem Thread.gw_win (t : Thread) (i : Reg) (x : Word) : (t.gw i x).win = t.win := by unfold Thread.gw; split <;> simp
@[simp] theorem Thread.gw_guards (t : Thread) (i : Reg) (x : Word) : (t.gw i x).guards = t.guards := by unfold Thread.gw; split <;> simp
@[simp] theorem Thread.gw_lp0 (t : Thread) (i : Reg) (x : Word) : (t.gw i x).lp0 = t.lp0 := by unfold Thread.gw; split <;> simp
@[simp] theorem Thread.gw_lp1 (t : Thread) (i : Reg) (x : Word) : (t.gw i x).lp1 = t.lp1 := by unfold Thread.gw; split <;> simp
@[simp] theorem Thread.gw_lps (t : Thread) (i : Reg) (x : Word) : (t.gw i x).lps = t.lps := by unfold Thread.gw; split <;> simp
@[simp] theorem Thread.gw_vv (t : Thread) (i : Reg) (x : Word) : (t.gw i x).vv = t.vv := by unfold Thread.gw; split <;> simp
@[simp] theorem Thread.gw_va (t : Thread) (i : Reg) (x : Word) : (t.gw i x).va = t.va := by unfold Thread.gw; split <;> simp
@[simp] theorem Thread.gw_vx (t : Thread) (i : Reg) (x : Word) : (t.gw i x).vx = t.vx := by unfold Thread.gw; split <;> simp
@[simp] theorem Thread.gw_fx (t : Thread) (i : Reg) (x : Word) : (t.gw i x).fx = t.fx := by unfold Thread.gw; split <;> simp
@[simp] theorem Thread.gw_oob (t : Thread) (i : Reg) (x : Word) : (t.gw i x).oob = t.oob := by unfold Thread.gw; split <;> simp
@[simp] theorem Thread.gw_caller (t : Thread) (i : Reg) (x : Word) : (t.gw i x).caller = t.caller := by unfold Thread.gw; split <;> simp
@[simp] theorem Thread.gw_sb (t : Thread) (i : Reg) (x : Word) : (t.gw i x).sb = t.sb := by unfold Thread.gw; split <;> simp
@[simp] theorem Thread.gw_hb (t : Thread) (i : Reg) (x : Word) : (t.gw i x).hb = t.hb := by unfold Thread.gw; split <;> simp
@[simp] theorem Thread.gw_mu (t : Thread) (i : Reg) (x : Word) : (t.gw i x).mu = t.mu := by unfold Thread.gw; split <;> simp
@[simp] theorem Thread.gw_cnt (t : Thread) (i : Reg) (x : Word) : (t.gw i x).cnt = t.cnt := by unfold Thread.gw; split <;> simp
@[simp] theorem Thread.gw_sel (t : Thread) (i : Reg) (x : Word) : (t.gw i x).sel = t.sel := by unfold Thread.gw; split <;> simp
@[simp] theorem Thread.gw_info (t : Thread) (i : Reg) (x : Word) : (t.gw i x).info = t.info := by unfold Thread.gw; split <;> simp
@[simp] theorem Thread.gw_status (t : Thread) (i : Reg) (x : Word) : (t.gw i x).status = t.status := by unfold Thread.gw; split <;> simp
@[simp] theorem Thread.deliver_live (t : Thread) (m : Mark) (i : Reg) (x : Word) : (t.deliver m i x).live = t.live := by unfold Thread.deliver; split <;> [(try split) <;> simp; simp]
@[simp] theorem Thread.deliver_tid (t : Thread) (m : Mark) (i : Reg) (x : Word) : (t.deliver m i x).tid = t.tid := by unfold Thread.deliver; split <;> [(try split) <;> simp; simp]
@[simp] theorem Thread.deliver_dom (t : Thread) (m : Mark) (i : Reg) (x : Word) : (t.deliver m i x).dom = t.dom := by unfold Thread.deliver; split <;> [(try split) <;> simp; simp]
@[simp] theorem Thread.deliver_priv (t : Thread) (m : Mark) (i : Reg) (x : Word) : (t.deliver m i x).priv = t.priv := by unfold Thread.deliver; split <;> [(try split) <;> simp; simp]
@[simp] theorem Thread.deliver_gran (t : Thread) (m : Mark) (i : Reg) (x : Word) : (t.deliver m i x).gran = t.gran := by unfold Thread.deliver; split <;> [(try split) <;> simp; simp]
@[simp] theorem Thread.deliver_wbase (t : Thread) (m : Mark) (i : Reg) (x : Word) : (t.deliver m i x).wbase = t.wbase := by unfold Thread.deliver; split <;> [(try split) <;> simp; simp]
@[simp] theorem Thread.deliver_pc (t : Thread) (m : Mark) (i : Reg) (x : Word) : (t.deliver m i x).pc = t.pc := by unfold Thread.deliver; split <;> [(try split) <;> simp; simp]
@[simp] theorem Thread.deliver_win (t : Thread) (m : Mark) (i : Reg) (x : Word) : (t.deliver m i x).win = t.win := by unfold Thread.deliver; split <;> [(try split) <;> simp; simp]
@[simp] theorem Thread.deliver_guards (t : Thread) (m : Mark) (i : Reg) (x : Word) : (t.deliver m i x).guards = t.guards := by unfold Thread.deliver; split <;> [(try split) <;> simp; simp]
@[simp] theorem Thread.deliver_lp0 (t : Thread) (m : Mark) (i : Reg) (x : Word) : (t.deliver m i x).lp0 = t.lp0 := by unfold Thread.deliver; split <;> [(try split) <;> simp; simp]
@[simp] theorem Thread.deliver_lp1 (t : Thread) (m : Mark) (i : Reg) (x : Word) : (t.deliver m i x).lp1 = t.lp1 := by unfold Thread.deliver; split <;> [(try split) <;> simp; simp]
@[simp] theorem Thread.deliver_lps (t : Thread) (m : Mark) (i : Reg) (x : Word) : (t.deliver m i x).lps = t.lps := by unfold Thread.deliver; split <;> [(try split) <;> simp; simp]
@[simp] theorem Thread.deliver_vv (t : Thread) (m : Mark) (i : Reg) (x : Word) : (t.deliver m i x).vv = t.vv := by unfold Thread.deliver; split <;> [(try split) <;> simp; simp]
@[simp] theorem Thread.deliver_va (t : Thread) (m : Mark) (i : Reg) (x : Word) : (t.deliver m i x).va = t.va := by unfold Thread.deliver; split <;> [(try split) <;> simp; simp]
@[simp] theorem Thread.deliver_vx (t : Thread) (m : Mark) (i : Reg) (x : Word) : (t.deliver m i x).vx = t.vx := by unfold Thread.deliver; split <;> [(try split) <;> simp; simp]
@[simp] theorem Thread.deliver_fx (t : Thread) (m : Mark) (i : Reg) (x : Word) : (t.deliver m i x).fx = t.fx := by unfold Thread.deliver; split <;> [(try split) <;> simp; simp]
@[simp] theorem Thread.deliver_oob (t : Thread) (m : Mark) (i : Reg) (x : Word) : (t.deliver m i x).oob = t.oob := by unfold Thread.deliver; split <;> [(try split) <;> simp; simp]
@[simp] theorem Thread.deliver_caller (t : Thread) (m : Mark) (i : Reg) (x : Word) : (t.deliver m i x).caller = t.caller := by unfold Thread.deliver; split <;> [(try split) <;> simp; simp]
@[simp] theorem Thread.deliver_sb (t : Thread) (m : Mark) (i : Reg) (x : Word) : (t.deliver m i x).sb = t.sb := by unfold Thread.deliver; split <;> [(try split) <;> simp; simp]
@[simp] theorem Thread.deliver_hb (t : Thread) (m : Mark) (i : Reg) (x : Word) : (t.deliver m i x).hb = t.hb := by unfold Thread.deliver; split <;> [(try split) <;> simp; simp]
@[simp] theorem Thread.deliver_mu (t : Thread) (m : Mark) (i : Reg) (x : Word) : (t.deliver m i x).mu = t.mu := by unfold Thread.deliver; split <;> [(try split) <;> simp; simp]
@[simp] theorem Thread.deliver_cnt (t : Thread) (m : Mark) (i : Reg) (x : Word) : (t.deliver m i x).cnt = t.cnt := by unfold Thread.deliver; split <;> [(try split) <;> simp; simp]
@[simp] theorem Thread.deliver_sel (t : Thread) (m : Mark) (i : Reg) (x : Word) : (t.deliver m i x).sel = t.sel := by unfold Thread.deliver; split <;> [(try split) <;> simp; simp]
@[simp] theorem Thread.deliver_info (t : Thread) (m : Mark) (i : Reg) (x : Word) : (t.deliver m i x).info = t.info := by unfold Thread.deliver; split <;> [(try split) <;> simp; simp]
@[simp] theorem Thread.deliver_status (t : Thread) (m : Mark) (i : Reg) (x : Word) : (t.deliver m i x).status = t.status := by unfold Thread.deliver; split <;> [(try split) <;> simp; simp]
@[simp] theorem Thread.capture_live (t : Thread) : t.capture.live = t.live := rfl
@[simp] theorem Thread.capture_tid (t : Thread) : t.capture.tid = t.tid := rfl
@[simp] theorem Thread.capture_dom (t : Thread) : t.capture.dom = t.dom := rfl
@[simp] theorem Thread.capture_priv (t : Thread) : t.capture.priv = t.priv := rfl
@[simp] theorem Thread.capture_gran (t : Thread) : t.capture.gran = t.gran := rfl
@[simp] theorem Thread.capture_wbase (t : Thread) : t.capture.wbase = t.wbase := rfl
@[simp] theorem Thread.capture_pc (t : Thread) : t.capture.pc = t.pc := rfl
@[simp] theorem Thread.capture_regs (t : Thread) : t.capture.regs = t.regs := rfl
@[simp] theorem Thread.capture_win (t : Thread) : t.capture.win = t.win := rfl
@[simp] theorem Thread.capture_guards (t : Thread) : t.capture.guards = t.guards := rfl
@[simp] theorem Thread.capture_lp0 (t : Thread) : t.capture.lp0 = t.lp0 := rfl
@[simp] theorem Thread.capture_lp1 (t : Thread) : t.capture.lp1 = t.lp1 := rfl
@[simp] theorem Thread.capture_lps (t : Thread) : t.capture.lps = t.lps := rfl
@[simp] theorem Thread.capture_vv (t : Thread) : t.capture.vv = t.vv := rfl
@[simp] theorem Thread.capture_va (t : Thread) : t.capture.va = t.va := rfl
@[simp] theorem Thread.capture_vx (t : Thread) : t.capture.vx = t.vx := rfl
@[simp] theorem Thread.capture_fx (t : Thread) : t.capture.fx = t.fx := rfl
@[simp] theorem Thread.capture_oob (t : Thread) : t.capture.oob = t.oob := rfl
@[simp] theorem Thread.capture_caller (t : Thread) : t.capture.caller = t.caller := rfl
@[simp] theorem Thread.capture_sb (t : Thread) : t.capture.sb = t.sb := rfl
@[simp] theorem Thread.capture_hb (t : Thread) : t.capture.hb = t.hb := rfl
@[simp] theorem Thread.capture_mu (t : Thread) : t.capture.mu = t.mu := rfl
@[simp] theorem Thread.capture_cnt (t : Thread) : t.capture.cnt = t.cnt := rfl
@[simp] theorem Thread.capture_sel (t : Thread) : t.capture.sel = t.sel := rfl
@[simp] theorem Thread.capture_info (t : Thread) : t.capture.info = t.info := rfl
@[simp] theorem Thread.capture_status (t : Thread) : t.capture.status = t.status := rfl
@[simp] theorem Thread.winWrite_live (t : Thread) (o : Nat) (bs : List Byte) : (t.winWrite o bs).live = t.live := by unfold Thread.winWrite; simp
@[simp] theorem Thread.winWrite_tid (t : Thread) (o : Nat) (bs : List Byte) : (t.winWrite o bs).tid = t.tid := by unfold Thread.winWrite; simp
@[simp] theorem Thread.winWrite_dom (t : Thread) (o : Nat) (bs : List Byte) : (t.winWrite o bs).dom = t.dom := by unfold Thread.winWrite; simp
@[simp] theorem Thread.winWrite_priv (t : Thread) (o : Nat) (bs : List Byte) : (t.winWrite o bs).priv = t.priv := by unfold Thread.winWrite; simp
@[simp] theorem Thread.winWrite_gran (t : Thread) (o : Nat) (bs : List Byte) : (t.winWrite o bs).gran = t.gran := by unfold Thread.winWrite; simp
@[simp] theorem Thread.winWrite_wbase (t : Thread) (o : Nat) (bs : List Byte) : (t.winWrite o bs).wbase = t.wbase := by unfold Thread.winWrite; simp
@[simp] theorem Thread.winWrite_pc (t : Thread) (o : Nat) (bs : List Byte) : (t.winWrite o bs).pc = t.pc := by unfold Thread.winWrite; simp
@[simp] theorem Thread.winWrite_regs (t : Thread) (o : Nat) (bs : List Byte) : (t.winWrite o bs).regs = t.regs := by unfold Thread.winWrite; simp
@[simp] theorem Thread.winWrite_guards (t : Thread) (o : Nat) (bs : List Byte) : (t.winWrite o bs).guards = t.guards := by unfold Thread.winWrite; simp
@[simp] theorem Thread.winWrite_lp0 (t : Thread) (o : Nat) (bs : List Byte) : (t.winWrite o bs).lp0 = t.lp0 := by unfold Thread.winWrite; simp
@[simp] theorem Thread.winWrite_lp1 (t : Thread) (o : Nat) (bs : List Byte) : (t.winWrite o bs).lp1 = t.lp1 := by unfold Thread.winWrite; simp
@[simp] theorem Thread.winWrite_lps (t : Thread) (o : Nat) (bs : List Byte) : (t.winWrite o bs).lps = t.lps := by unfold Thread.winWrite; simp
@[simp] theorem Thread.winWrite_vv (t : Thread) (o : Nat) (bs : List Byte) : (t.winWrite o bs).vv = t.vv := by unfold Thread.winWrite; simp
@[simp] theorem Thread.winWrite_va (t : Thread) (o : Nat) (bs : List Byte) : (t.winWrite o bs).va = t.va := by unfold Thread.winWrite; simp
@[simp] theorem Thread.winWrite_vx (t : Thread) (o : Nat) (bs : List Byte) : (t.winWrite o bs).vx = t.vx := by unfold Thread.winWrite; simp
@[simp] theorem Thread.winWrite_fx (t : Thread) (o : Nat) (bs : List Byte) : (t.winWrite o bs).fx = t.fx := by unfold Thread.winWrite; simp
@[simp] theorem Thread.winWrite_oob (t : Thread) (o : Nat) (bs : List Byte) : (t.winWrite o bs).oob = t.oob := by unfold Thread.winWrite; simp
@[simp] theorem Thread.winWrite_caller (t : Thread) (o : Nat) (bs : List Byte) : (t.winWrite o bs).caller = t.caller := by unfold Thread.winWrite; simp
@[simp] theorem Thread.winWrite_sb (t : Thread) (o : Nat) (bs : List Byte) : (t.winWrite o bs).sb = t.sb := by unfold Thread.winWrite; simp
@[simp] theorem Thread.winWrite_hb (t : Thread) (o : Nat) (bs : List Byte) : (t.winWrite o bs).hb = t.hb := by unfold Thread.winWrite; simp
@[simp] theorem Thread.winWrite_mu (t : Thread) (o : Nat) (bs : List Byte) : (t.winWrite o bs).mu = t.mu := by unfold Thread.winWrite; simp
@[simp] theorem Thread.winWrite_cnt (t : Thread) (o : Nat) (bs : List Byte) : (t.winWrite o bs).cnt = t.cnt := by unfold Thread.winWrite; simp
@[simp] theorem Thread.winWrite_sel (t : Thread) (o : Nat) (bs : List Byte) : (t.winWrite o bs).sel = t.sel := by unfold Thread.winWrite; simp
@[simp] theorem Thread.winWrite_info (t : Thread) (o : Nat) (bs : List Byte) : (t.winWrite o bs).info = t.info := by unfold Thread.winWrite; simp
@[simp] theorem Thread.winWrite_status (t : Thread) (o : Nat) (bs : List Byte) : (t.winWrite o bs).status = t.status := by unfold Thread.winWrite; simp
@[simp] theorem Thread.vdeliver_live (t : Thread) (m : Mark) (i o : Nat) (bs : List Byte) : (t.vdeliver m i o bs).live = t.live := by unfold Thread.vdeliver; split <;> simp
@[simp] theorem Thread.vdeliver_tid (t : Thread) (m : Mark) (i o : Nat) (bs : List Byte) : (t.vdeliver m i o bs).tid = t.tid := by unfold Thread.vdeliver; split <;> simp
@[simp] theorem Thread.vdeliver_dom (t : Thread) (m : Mark) (i o : Nat) (bs : List Byte) : (t.vdeliver m i o bs).dom = t.dom := by unfold Thread.vdeliver; split <;> simp
@[simp] theorem Thread.vdeliver_priv (t : Thread) (m : Mark) (i o : Nat) (bs : List Byte) : (t.vdeliver m i o bs).priv = t.priv := by unfold Thread.vdeliver; split <;> simp
@[simp] theorem Thread.vdeliver_gran (t : Thread) (m : Mark) (i o : Nat) (bs : List Byte) : (t.vdeliver m i o bs).gran = t.gran := by unfold Thread.vdeliver; split <;> simp
@[simp] theorem Thread.vdeliver_wbase (t : Thread) (m : Mark) (i o : Nat) (bs : List Byte) : (t.vdeliver m i o bs).wbase = t.wbase := by unfold Thread.vdeliver; split <;> simp
@[simp] theorem Thread.vdeliver_pc (t : Thread) (m : Mark) (i o : Nat) (bs : List Byte) : (t.vdeliver m i o bs).pc = t.pc := by unfold Thread.vdeliver; split <;> simp
@[simp] theorem Thread.vdeliver_regs (t : Thread) (m : Mark) (i o : Nat) (bs : List Byte) : (t.vdeliver m i o bs).regs = t.regs := by unfold Thread.vdeliver; split <;> simp
@[simp] theorem Thread.vdeliver_guards (t : Thread) (m : Mark) (i o : Nat) (bs : List Byte) : (t.vdeliver m i o bs).guards = t.guards := by unfold Thread.vdeliver; split <;> simp
@[simp] theorem Thread.vdeliver_lp0 (t : Thread) (m : Mark) (i o : Nat) (bs : List Byte) : (t.vdeliver m i o bs).lp0 = t.lp0 := by unfold Thread.vdeliver; split <;> simp
@[simp] theorem Thread.vdeliver_lp1 (t : Thread) (m : Mark) (i o : Nat) (bs : List Byte) : (t.vdeliver m i o bs).lp1 = t.lp1 := by unfold Thread.vdeliver; split <;> simp
@[simp] theorem Thread.vdeliver_lps (t : Thread) (m : Mark) (i o : Nat) (bs : List Byte) : (t.vdeliver m i o bs).lps = t.lps := by unfold Thread.vdeliver; split <;> simp
@[simp] theorem Thread.vdeliver_vv (t : Thread) (m : Mark) (i o : Nat) (bs : List Byte) : (t.vdeliver m i o bs).vv = t.vv := by unfold Thread.vdeliver; split <;> simp
@[simp] theorem Thread.vdeliver_va (t : Thread) (m : Mark) (i o : Nat) (bs : List Byte) : (t.vdeliver m i o bs).va = t.va := by unfold Thread.vdeliver; split <;> simp
@[simp] theorem Thread.vdeliver_vx (t : Thread) (m : Mark) (i o : Nat) (bs : List Byte) : (t.vdeliver m i o bs).vx = t.vx := by unfold Thread.vdeliver; split <;> simp
@[simp] theorem Thread.vdeliver_fx (t : Thread) (m : Mark) (i o : Nat) (bs : List Byte) : (t.vdeliver m i o bs).fx = t.fx := by unfold Thread.vdeliver; split <;> simp
@[simp] theorem Thread.vdeliver_oob (t : Thread) (m : Mark) (i o : Nat) (bs : List Byte) : (t.vdeliver m i o bs).oob = t.oob := by unfold Thread.vdeliver; split <;> simp
@[simp] theorem Thread.vdeliver_caller (t : Thread) (m : Mark) (i o : Nat) (bs : List Byte) : (t.vdeliver m i o bs).caller = t.caller := by unfold Thread.vdeliver; split <;> simp
@[simp] theorem Thread.vdeliver_sb (t : Thread) (m : Mark) (i o : Nat) (bs : List Byte) : (t.vdeliver m i o bs).sb = t.sb := by unfold Thread.vdeliver; split <;> simp
@[simp] theorem Thread.vdeliver_hb (t : Thread) (m : Mark) (i o : Nat) (bs : List Byte) : (t.vdeliver m i o bs).hb = t.hb := by unfold Thread.vdeliver; split <;> simp
@[simp] theorem Thread.vdeliver_mu (t : Thread) (m : Mark) (i o : Nat) (bs : List Byte) : (t.vdeliver m i o bs).mu = t.mu := by unfold Thread.vdeliver; split <;> simp
@[simp] theorem Thread.vdeliver_cnt (t : Thread) (m : Mark) (i o : Nat) (bs : List Byte) : (t.vdeliver m i o bs).cnt = t.cnt := by unfold Thread.vdeliver; split <;> simp
@[simp] theorem Thread.vdeliver_sel (t : Thread) (m : Mark) (i o : Nat) (bs : List Byte) : (t.vdeliver m i o bs).sel = t.sel := by unfold Thread.vdeliver; split <;> simp
@[simp] theorem Thread.vdeliver_info (t : Thread) (m : Mark) (i o : Nat) (bs : List Byte) : (t.vdeliver m i o bs).info = t.info := by unfold Thread.vdeliver; split <;> simp
@[simp] theorem Thread.vdeliver_status (t : Thread) (m : Mark) (i o : Nat) (bs : List Byte) : (t.vdeliver m i o bs).status = t.status := by unfold Thread.vdeliver; split <;> simp
@[simp] theorem Thread.giveUp_live (t : Thread) : t.giveUp.live = t.live := rfl
@[simp] theorem Thread.giveUp_tid (t : Thread) : t.giveUp.tid = t.tid := rfl
@[simp] theorem Thread.giveUp_dom (t : Thread) : t.giveUp.dom = t.dom := rfl
@[simp] theorem Thread.giveUp_priv (t : Thread) : t.giveUp.priv = t.priv := rfl
@[simp] theorem Thread.giveUp_gran (t : Thread) : t.giveUp.gran = t.gran := rfl
@[simp] theorem Thread.giveUp_wbase (t : Thread) : t.giveUp.wbase = t.wbase := rfl
@[simp] theorem Thread.giveUp_regs (t : Thread) : t.giveUp.regs = t.regs := rfl
@[simp] theorem Thread.giveUp_win (t : Thread) : t.giveUp.win = t.win := rfl
@[simp] theorem Thread.giveUp_guards (t : Thread) : t.giveUp.guards = t.guards := rfl
@[simp] theorem Thread.giveUp_lp0 (t : Thread) : t.giveUp.lp0 = t.lp0 := rfl
@[simp] theorem Thread.giveUp_lp1 (t : Thread) : t.giveUp.lp1 = t.lp1 := rfl
@[simp] theorem Thread.giveUp_lps (t : Thread) : t.giveUp.lps = t.lps := rfl
@[simp] theorem Thread.giveUp_vv (t : Thread) : t.giveUp.vv = t.vv := rfl
@[simp] theorem Thread.giveUp_va (t : Thread) : t.giveUp.va = t.va := rfl
@[simp] theorem Thread.giveUp_vx (t : Thread) : t.giveUp.vx = t.vx := rfl
@[simp] theorem Thread.giveUp_fx (t : Thread) : t.giveUp.fx = t.fx := rfl
@[simp] theorem Thread.giveUp_oob (t : Thread) : t.giveUp.oob = t.oob := rfl
@[simp] theorem Thread.giveUp_caller (t : Thread) : t.giveUp.caller = t.caller := rfl
@[simp] theorem Thread.giveUp_sb (t : Thread) : t.giveUp.sb = t.sb := rfl
@[simp] theorem Thread.giveUp_hb (t : Thread) : t.giveUp.hb = t.hb := rfl
@[simp] theorem Thread.giveUp_mu (t : Thread) : t.giveUp.mu = t.mu := rfl
@[simp] theorem Thread.giveUp_cnt (t : Thread) : t.giveUp.cnt = t.cnt := rfl
@[simp] theorem Thread.giveUp_sel (t : Thread) : t.giveUp.sel = t.sel := rfl
@[simp] theorem Thread.giveUp_info (t : Thread) : t.giveUp.info = t.info := rfl
@[simp] theorem Thread.loopStep_live (t : Thread) : t.loopStep.live = t.live := by unfold Thread.loopStep; simp only; (repeat' split) <;> first | rfl | simp
@[simp] theorem Thread.loopStep_tid (t : Thread) : t.loopStep.tid = t.tid := by unfold Thread.loopStep; simp only; (repeat' split) <;> first | rfl | simp
@[simp] theorem Thread.loopStep_dom (t : Thread) : t.loopStep.dom = t.dom := by unfold Thread.loopStep; simp only; (repeat' split) <;> first | rfl | simp
@[simp] theorem Thread.loopStep_priv (t : Thread) : t.loopStep.priv = t.priv := by unfold Thread.loopStep; simp only; (repeat' split) <;> first | rfl | simp
@[simp] theorem Thread.loopStep_gran (t : Thread) : t.loopStep.gran = t.gran := by unfold Thread.loopStep; simp only; (repeat' split) <;> first | rfl | simp
@[simp] theorem Thread.loopStep_wbase (t : Thread) : t.loopStep.wbase = t.wbase := by unfold Thread.loopStep; simp only; (repeat' split) <;> first | rfl | simp
@[simp] theorem Thread.loopStep_win (t : Thread) : t.loopStep.win = t.win := by unfold Thread.loopStep; simp only; (repeat' split) <;> first | rfl | simp
@[simp] theorem Thread.loopStep_guards (t : Thread) : t.loopStep.guards = t.guards := by unfold Thread.loopStep; simp only; (repeat' split) <;> first | rfl | simp
@[simp] theorem Thread.loopStep_lps (t : Thread) : t.loopStep.lps = t.lps := by unfold Thread.loopStep; simp only; (repeat' split) <;> first | rfl | simp
@[simp] theorem Thread.loopStep_vv (t : Thread) : t.loopStep.vv = t.vv := by unfold Thread.loopStep; simp only; (repeat' split) <;> first | rfl | simp
@[simp] theorem Thread.loopStep_va (t : Thread) : t.loopStep.va = t.va := by unfold Thread.loopStep; simp only; (repeat' split) <;> first | rfl | simp
@[simp] theorem Thread.loopStep_vx (t : Thread) : t.loopStep.vx = t.vx := by unfold Thread.loopStep; simp only; (repeat' split) <;> first | rfl | simp
@[simp] theorem Thread.loopStep_fx (t : Thread) : t.loopStep.fx = t.fx := by unfold Thread.loopStep; simp only; (repeat' split) <;> first | rfl | simp
@[simp] theorem Thread.loopStep_oob (t : Thread) : t.loopStep.oob = t.oob := by unfold Thread.loopStep; simp only; (repeat' split) <;> first | rfl | simp
@[simp] theorem Thread.loopStep_caller (t : Thread) : t.loopStep.caller = t.caller := by unfold Thread.loopStep; simp only; (repeat' split) <;> first | rfl | simp
@[simp] theorem Thread.loopStep_sb (t : Thread) : t.loopStep.sb = t.sb := by unfold Thread.loopStep; simp only; (repeat' split) <;> first | rfl | simp
@[simp] theorem Thread.loopStep_hb (t : Thread) : t.loopStep.hb = t.hb := by unfold Thread.loopStep; simp only; (repeat' split) <;> first | rfl | simp
@[simp] theorem Thread.loopStep_mu (t : Thread) : t.loopStep.mu = t.mu := by unfold Thread.loopStep; simp only; (repeat' split) <;> first | rfl | simp
@[simp] theorem Thread.loopStep_cnt (t : Thread) : t.loopStep.cnt = t.cnt := by unfold Thread.loopStep; simp only; (repeat' split) <;> first | rfl | simp
@[simp] theorem Thread.loopStep_sel (t : Thread) : t.loopStep.sel = t.sel := by unfold Thread.loopStep; simp only; (repeat' split) <;> first | rfl | simp
@[simp] theorem Thread.loopStep_info (t : Thread) : t.loopStep.info = t.info := by unfold Thread.loopStep; simp only; (repeat' split) <;> first | rfl | simp
@[simp] theorem Thread.loopStep_status (t : Thread) : t.loopStep.status = t.status := by unfold Thread.loopStep; simp only; (repeat' split) <;> first | rfl | simp
@[simp] theorem Thread.stepOver_live (t : Thread) : t.stepOver.live = t.live := by simp [Thread.stepOver]
@[simp] theorem Thread.stepOver_tid (t : Thread) : t.stepOver.tid = t.tid := by simp [Thread.stepOver]
@[simp] theorem Thread.stepOver_dom (t : Thread) : t.stepOver.dom = t.dom := by simp [Thread.stepOver]
@[simp] theorem Thread.stepOver_priv (t : Thread) : t.stepOver.priv = t.priv := by simp [Thread.stepOver]
@[simp] theorem Thread.stepOver_gran (t : Thread) : t.stepOver.gran = t.gran := by simp [Thread.stepOver]
@[simp] theorem Thread.stepOver_wbase (t : Thread) : t.stepOver.wbase = t.wbase := by simp [Thread.stepOver]
@[simp] theorem Thread.stepOver_win (t : Thread) : t.stepOver.win = t.win := by simp [Thread.stepOver]
@[simp] theorem Thread.stepOver_guards (t : Thread) : t.stepOver.guards = t.guards := by simp [Thread.stepOver]
@[simp] theorem Thread.stepOver_lps (t : Thread) : t.stepOver.lps = t.lps := by simp [Thread.stepOver]
@[simp] theorem Thread.stepOver_vv (t : Thread) : t.stepOver.vv = t.vv := by simp [Thread.stepOver]
@[simp] theorem Thread.stepOver_va (t : Thread) : t.stepOver.va = t.va := by simp [Thread.stepOver]
@[simp] theorem Thread.stepOver_vx (t : Thread) : t.stepOver.vx = t.vx := by simp [Thread.stepOver]
@[simp] theorem Thread.stepOver_fx (t : Thread) : t.stepOver.fx = t.fx := by simp [Thread.stepOver]
@[simp] theorem Thread.stepOver_oob (t : Thread) : t.stepOver.oob = t.oob := by simp [Thread.stepOver]
@[simp] theorem Thread.stepOver_caller (t : Thread) : t.stepOver.caller = t.caller := by simp [Thread.stepOver]
@[simp] theorem Thread.stepOver_sb (t : Thread) : t.stepOver.sb = t.sb := by simp [Thread.stepOver]
@[simp] theorem Thread.stepOver_hb (t : Thread) : t.stepOver.hb = t.hb := by simp [Thread.stepOver]
@[simp] theorem Thread.stepOver_mu (t : Thread) : t.stepOver.mu = t.mu := by simp [Thread.stepOver]
@[simp] theorem Thread.stepOver_sel (t : Thread) : t.stepOver.sel = t.sel := by simp [Thread.stepOver]
@[simp] theorem Thread.stepOver_info (t : Thread) : t.stepOver.info = t.info := by simp [Thread.stepOver]

end Sys2Proof.Machine
end

