-- ==== Sys2Proof/Laws/Memory.lean ====
section
/-! SUPPORT. Memory: reads after writes, keyed tables, and that every operation on memory keeps its canonical form (log 5). -/

namespace Sys2Proof.Machine
open Sys2Proof

-- Keyed tables --------------------------------------------------------------------------------------------------------

@[simp] theorem lookupD_setKey_self {α : Type} (l : List (Nat × α)) (k : Nat) (x d : α) : lookupD (setKey l k x) k d = x := by
  induction l with
  | nil => simp [setKey, lookupD]
  | cons p l ih =>
    obtain ⟨j, y⟩ := p
    simp only [setKey]
    (repeat' split) <;> simp_all [lookupD]
theorem lookupD_setKey_ne {α : Type} (l : List (Nat × α)) {k j : Nat} (x d : α) (h : j ≠ k) :
    lookupD (setKey l k x) j d = lookupD l j d := by
  induction l with
  | nil => simp [setKey, lookupD, Ne.symm h]
  | cons p l ih =>
    obtain ⟨i, y⟩ := p
    simp only [setKey]
    by_cases hj : i = j
    · subst hj
      (repeat' split) <;> simp_all [lookupD]
    · (repeat' split) <;> simp_all [lookupD, Ne.symm h]
@[simp] theorem State.setTile_tile (s : State) (i : Nat) (t : Tile) : (s.setTile i t).tile i = t := by
  simp [State.tile, State.setTile]
theorem State.setTile_tile_ne (s : State) {i j : Nat} (t : Tile) (h : j ≠ i) : (s.setTile i t).tile j = s.tile j := by
  simp [State.tile, State.setTile, lookupD_setKey_ne _ _ _ h]
@[simp] theorem State.setRgs_rgs (s : State) (n : Nat) (r : Rgs) : (s.setRgs n r).rgs n = r := by simp [State.rgs, State.setRgs]
@[simp] theorem State.setVcp_vcp (s : State) (f : Nat) (v : Vcp) : (s.setVcp f v).vcp f = v := by simp [State.vcp, State.setVcp]
@[simp] theorem State.setEngine_engine (s : State) (e : Nat) (x : Engine) : (s.setEngine e x).engine e = x := by
  simp [State.engine, State.setEngine]

-- Canonical form ------------------------------------------------------------------------------------------------------

theorem cellsFrom_weaken {lo lo' : Nat} {m : List Host.Cell} (h : cellsFrom lo m = true) (hl : lo' ≤ lo) : cellsFrom lo' m = true := by
  cases m with
  | nil => rfl
  | cons c cs => simp_all [cellsFrom]; omega
theorem cellsFrom_setByte {lo a : Nat} {m : List Host.Cell} (b : Byte) (h : cellsFrom lo m = true) (ha : lo ≤ a) :
    cellsFrom lo (setByte m a b) = true := by
  induction m generalizing lo with
  | nil => simp only [setByte]; split <;> simp_all [cellsFrom]
  | cons c cs ih =>
    simp only [cellsFrom, Bool.and_eq_true, decide_eq_true_eq] at h
    simp only [setByte]
    split
    · split
      · simp_all [cellsFrom]
      · simp_all [cellsFrom]
    · split
      · split
        · exact cellsFrom_weaken h.2 (by omega)
        · simp_all [cellsFrom]
      · simp only [cellsFrom, Bool.and_eq_true, decide_eq_true_eq]
        exact ⟨h.1, ih h.2 (by omega)⟩
theorem cellsFrom_filter {lo : Nat} {m : List Host.Cell} (p : Host.Cell → Bool) (h : cellsFrom lo m = true) :
    cellsFrom lo (m.filter p) = true := by
  induction m generalizing lo with
  | nil => rfl
  | cons c cs ih =>
    simp only [cellsFrom, Bool.and_eq_true, decide_eq_true_eq] at h
    simp only [List.filter_cons]
    split
    · simp only [cellsFrom, Bool.and_eq_true, decide_eq_true_eq]
      exact ⟨h.1, ih h.2⟩
    · exact ih (cellsFrom_weaken h.2 (by omega))
/-- Writing one byte keeps the canonical form. -/
theorem cellsWf_setByte {m : List Host.Cell} (a : Nat) (b : Byte) (h : cellsWf m = true) : cellsWf (setByte m a b) = true :=
  cellsFrom_setByte b h (Nat.zero_le a)
/-- Writing bytes keeps the canonical form. -/
theorem cellsWf_writeBytes {m : List Host.Cell} (a : Nat) (bs : List Byte) (h : cellsWf m = true) :
    cellsWf (writeBytes m a bs) = true := by
  induction bs generalizing m a with
  | nil => exact h
  | cons b bs ih => exact ih (a + 1) (cellsWf_setByte a b h)
/-- Dropping entries keeps the canonical form. -/
theorem cellsWf_filter {m : List Host.Cell} (p : Host.Cell → Bool) (h : cellsWf m = true) : cellsWf (m.filter p) = true :=
  cellsFrom_filter p h
/-- Zeroing a range keeps the canonical form. -/
theorem cellsWf_clearRange {m : List Host.Cell} (lo hi : Nat) (h : cellsWf m = true) : cellsWf (clearRange m lo hi) = true :=
  cellsWf_filter _ h

-- Reads after writes --------------------------------------------------------------------------------------------------

theorem getByte_below {lo a : Nat} {m : List Host.Cell} (h : cellsFrom lo m = true) (ha : a < lo) : getByte m a = 0 := by
  induction m generalizing lo with
  | nil => rfl
  | cons c cs ih =>
    simp only [cellsFrom, Bool.and_eq_true, decide_eq_true_eq] at h
    simp only [getByte]
    rw [if_neg (by omega)]
    exact ih h.2 (by omega)
theorem getByte_setByte_from {lo a : Nat} {m : List Host.Cell} (b : Byte) (x : Nat) (h : cellsFrom lo m = true) :
    getByte (setByte m a b) x = if x = a then b else getByte m x := by
  induction m generalizing lo with
  | nil =>
    simp only [setByte]
    by_cases hx : x = a
    · subst hx
      split
      · next hb => simp [getByte, hb]
      · simp [getByte]
    · rw [if_neg hx]
      split
      · rfl
      · simp [getByte, Ne.symm hx]
  | cons c cs ih =>
    simp only [cellsFrom, Bool.and_eq_true, decide_eq_true_eq] at h
    have hb : ∀ y, y ≤ c.1 → getByte cs y = 0 := fun y hy => getByte_below h.2 (by omega)
    simp only [setByte]
    by_cases hx : x = a
    · subst hx
      simp only [if_true]
      split
      · split
        · next h1 h2 => rw [getByte, if_neg (by omega), hb x (by omega), h2]
        · simp [getByte]
      · split
        · split
          · next h2 h3 => rw [hb x (by omega), h3]
          · simp [getByte]
        · next h1 h2 => rw [getByte, if_neg (fun e => h2 e.symm), ih h.2, if_pos rfl]
    · simp only [if_neg hx]
      split
      · split
        · rfl
        · rw [getByte, if_neg (fun e => hx e.symm)]
      · split
        · split
          · next h2 h3 =>
            rw [getByte]
            split
            · next h4 => omega
            · rfl
          · next h2 h3 => rw [getByte, getByte, if_neg (fun e => hx e.symm), if_neg (by omega)]
        · next h1 h2 =>
          simp only [getByte]
          split
          · rfl
          · rw [ih h.2, if_neg hx]
/-- A byte reads back as written, and every other byte as before. -/
theorem getByte_setByte {m : List Host.Cell} (a : Nat) (b : Byte) (x : Nat) (h : cellsWf m = true) :
    getByte (setByte m a b) x = if x = a then b else getByte m x := getByte_setByte_from b x h
/-- What a byte reads as after bytes were written. -/
theorem getByte_writeBytes {m : List Host.Cell} (a : Nat) (bs : List Byte) (x : Nat) (h : cellsWf m = true) :
    getByte (writeBytes m a bs) x = if a ≤ x ∧ x < a + bs.length then bs.getD (x - a) 0 else getByte m x := by
  induction bs generalizing m a with
  | nil => rw [writeBytes, if_neg (by simp)]
  | cons b bs ih =>
    rw [writeBytes, ih (a + 1) (cellsWf_setByte a b h), getByte_setByte a b x h]
    by_cases h1 : x = a
    · subst h1
      rw [if_neg (by omega), if_pos rfl, if_pos (by simp)]
      simp
    · rw [if_neg h1]
      by_cases h2 : a + 1 ≤ x ∧ x < a + 1 + bs.length
      · rw [if_pos h2, if_pos (by simp; omega)]
        obtain ⟨k, hk⟩ : ∃ k, x - a = k + 1 := ⟨x - a - 1, by omega⟩
        rw [hk, List.getD_cons_succ]
        congr 1
        omega
      · rw [if_neg h2, if_neg (by simp; omega)]
theorem readBytes_length (m : List Host.Cell) (a n : Nat) : (readBytes m a n).length = n := by
  induction n generalizing a with
  | zero => rfl
  | succ n ih => simp [readBytes, ih]
theorem readBytes_congr {m m' : List Host.Cell} {a n : Nat} (h : ∀ x, a ≤ x → x < a + n → getByte m x = getByte m' x) :
    readBytes m a n = readBytes m' a n := by
  induction n generalizing a with
  | zero => rfl
  | succ n ih =>
    simp only [readBytes]
    rw [h a (by omega) (by omega), ih (fun x h1 h2 => h x (by omega) (by omega))]
/-- Bytes read back as written. -/
theorem readBytes_writeBytes {m : List Host.Cell} (a : Nat) (bs : List Byte) (h : cellsWf m = true) :
    readBytes (writeBytes m a bs) a bs.length = bs := by
  induction bs generalizing m a with
  | nil => rfl
  | cons b bs ih =>
    have hw := cellsWf_setByte a b h
    simp only [writeBytes, List.length_cons, readBytes]
    rw [ih (a + 1) hw, getByte_writeBytes _ _ _ hw, if_neg (by omega), getByte_setByte _ _ _ h, if_pos rfl]
/-- Bytes outside the written ones read as before. -/
theorem readBytes_writeBytes_apart {m : List Host.Cell} (a : Nat) (bs : List Byte) (x n : Nat) (h : cellsWf m = true)
    (hx : x + n ≤ a ∨ a + bs.length ≤ x) : readBytes (writeBytes m a bs) x n = readBytes m x n := by
  refine readBytes_congr (fun y h1 h2 => ?_)
  rw [getByte_writeBytes _ _ _ h, if_neg (by omega)]
theorem getByte_filter {lo : Nat} {m : List Host.Cell} (p : Host.Cell → Bool) (x : Nat) (h : cellsFrom lo m = true)
    (hp : ∀ b, p (x, b) = p (x, 0)) : getByte (m.filter p) x = if p (x, 0) then getByte m x else 0 := by
  induction m generalizing lo with
  | nil => simp [getByte]
  | cons c cs ih =>
    simp only [cellsFrom, Bool.and_eq_true, decide_eq_true_eq] at h
    obtain ⟨k, v⟩ := c
    simp only [List.filter_cons]
    by_cases hk : k = x
    · subst hk
      rw [hp v]
      split
      · next hc => simp [getByte]
      · next hc =>
        rw [ih h.2, if_neg hc]
    · split
      · simp only [getByte, if_neg hk]
        exact ih h.2
      · simp only [getByte, if_neg hk]
        exact ih h.2
/-- A zeroed range reads zero, and every other byte as before. -/
theorem getByte_clearRange {m : List Host.Cell} (lo hi x : Nat) (h : cellsWf m = true) :
    getByte (clearRange m lo hi) x = if lo ≤ x ∧ x < hi then 0 else getByte m x := by
  rw [clearRange, getByte_filter (lo := 0) _ x h (fun _ => rfl)]
  by_cases hx : lo ≤ x ∧ x < hi
  · rw [if_neg (by simp; omega), if_pos hx]
  · rw [if_pos (by simp; omega), if_neg hx]
theorem readBytes_nil (a n : Nat) : readBytes [] a n = List.replicate n 0 := by
  induction n generalizing a with
  | zero => rfl
  | succ n ih => simp [readBytes, getByte, ih, List.replicate_succ]

-- The operations on memory --------------------------------------------------------------------------------------------

theorem foldl_keeps {α β : Type} (P : α → Prop) (f : α → β → α) (l : List β) (h : ∀ a b, P a → P (f a b)) (a : α) (ha : P a) :
    P (l.foldl f a) := by
  induction l generalizing a with
  | nil => exact ha
  | cons b l ih => exact ih (f a b) (h a b ha)
/-- A plain write keeps the canonical form. -/
theorem State.write_canonical {s : State} (off : Nat) (bs : List Byte) (h : cellsWf s.ms.mem = true) :
    cellsWf (s.write off bs).ms.mem = true := cellsWf_writeBytes off bs h
theorem State.read_write (s : State) (off : Nat) (bs : List Byte) (h : cellsWf s.ms.mem = true) :
    (s.write off bs).read off bs.length = bs := readBytes_writeBytes off bs h
theorem State.read_write_apart (s : State) (off : Nat) (bs : List Byte) (x n : Nat) (h : cellsWf s.ms.mem = true)
    (hx : x + n ≤ off ∨ off + bs.length ≤ x) : (s.write off bs).read x n = s.read x n :=
  readBytes_writeBytes_apart off bs x n h hx
/-- Dropping cached lines keeps the canonical form. -/
theorem State.dropLines_canonical {s : State} (p : Nat → Bool) (d : Bool) (h : cellsWf s.ms.mem = true) :
    cellsWf (s.dropLines p d).ms.mem = true := by
  unfold State.dropLines
  dsimp only
  split
  · exact foldl_keeps (fun m => cellsWf m = true) _ _ (fun m u hm => cellsWf_writeBytes u.1 u.2 hm) _ h
  · exact h
/-- Restoring the cellar keeps the canonical form. -/
theorem State.applyCellar_canonical {s : State} (n k : Nat) (h : cellsWf s.ms.mem = true) :
    cellsWf (s.applyCellar n k).ms.mem = true := by
  unfold State.applyCellar
  refine foldl_keeps (fun s : State => cellsWf s.ms.mem = true) _ _ ?_ s h
  intro s e hs
  exact cellsWf_writeBytes e.line e.old hs
/-- Zeroing a group's scratch keeps the canonical form. -/
theorem State.zeroScratch_canonical {s : State} (n : Nat) (h : cellsWf s.ms.mem = true) : cellsWf (s.zeroScratch n).ms.mem = true := by
  unfold State.zeroScratch
  exact foldl_keeps (fun m => cellsWf m = true) _ _ (fun m b hm => cellsWf_clearRange _ _ hm) _ h
/-- Zeroing the lines of a row keeps the canonical form. -/
theorem State.zeroRow_canonical {s : State} (off : Nat) (h : cellsWf s.ms.mem = true) : cellsWf (s.zeroRow off).ms.mem = true :=
  cellsWf_filter _ h
/-- Placing a word for the fetch keeps the canonical form. -/
theorem State.withFetchWord_canonical {s : State} (n w : Nat) (h : cellsWf s.ms.mem = true) :
    cellsWf (s.withFetchWord n w).ms.mem = true := cellsWf_writeBytes fetchHome (leBytes 4 w) h

end Sys2Proof.Machine
end

