-- ==== Sys2Proof/Laws/Ops.lean ====
section
/-! SUPPORT. What the shared operations of an instruction's issue and end can do: one lemma per operation and outcome. -/

namespace Sys2Proof.Machine
open Sys2Proof

-- Issue and end -------------------------------------------------------------------------------------------------------

/-- An instruction past its checks does its effect. -/
theorem State.issue_body {s : State} {i : Instr} {f : State → Done} (h : Issues i s) : s.issue i f = s.finish i (f s) := by
  obtain ⟨h1, h2, h3⟩ := h
  unfold State.issue
  rw [h1, h2]
  cases hf : (formOf i).flush <;> simp_all
/-- A failing check is the trap. -/
theorem State.issue_trap {s : State} {i : Instr} {f : State → Done} {x : Trap} (h : s.th.precheck i = some x) :
    s.issue i f = .next (s.trapping i x) := by
  unfold State.issue
  rw [h]
  rfl
/-- An error in the registers that the instruction reads: its group rolls back, and the instruction waits for that. -/
theorem State.issue_error_group {s : State} {i : Instr} {f : State → Done} {o n : Nat} (h : s.th.precheck i = none)
    (ho : s.regFault i = some o) (hn : s.coverTile s.th.tile = some n) :
    s.issue i f = s.finish i (.hold 2 (s.postOnce (.rollback n 3 s.me (idxCoord s.th.tile)))) := by
  unfold State.issue
  rw [h, ho]
  simp only [hn]
/-- Outside every group it takes MCHECK with the window offset. -/
theorem State.issue_error {s : State} {i : Instr} {f : State → Done} {o : Nat} (h : s.th.precheck i = none)
    (ho : s.regFault i = some o) (hn : s.coverTile s.th.tile = none) :
    s.issue i f = .next (s.trapping i ⟨.mcheck, 0, BitVec.ofNat 64 o⟩) := by
  unfold State.issue
  rw [h, ho]
  simp only [hn]
  rfl
/-- A suspension point with results of its run outstanding drains them first. -/
theorem State.issue_drain {s : State} {i : Instr} {f : State → Done} (h : s.th.precheck i = none) (hr : s.regFault i = none)
    (hf : (formOf i).flush = true) (ho : s.th.flow.outs ≠ []) : s.issue i f = s.finish i (.drain s) := by
  unfold State.issue
  rw [h, hr]
  simp [hf, ho]
/-- What issuing can do: trap on a check, an error in its registers, drain, or the effect. -/
theorem State.issue_cases (s : State) (i : Instr) (f : State → Done) :
    (∃ x, s.th.precheck i = some x ∧ s.issue i f = .next (s.trapping i x)) ∨
    (s.th.precheck i = none ∧ ∃ o, s.regFault i = some o ∧
      ((∃ n, s.coverTile s.th.tile = some n ∧ s.issue i f = s.finish i (.hold 2 (s.postOnce (.rollback n 3 s.me (idxCoord s.th.tile))))) ∨
       (s.coverTile s.th.tile = none ∧ s.issue i f = .next (s.trapping i ⟨.mcheck, 0, BitVec.ofNat 64 o⟩)))) ∨
    (s.th.precheck i = none ∧ s.regFault i = none ∧ (formOf i).flush = true ∧ s.th.flow.outs ≠ [] ∧ s.issue i f = s.finish i (.drain s)) ∨
    (Issues i s ∧ s.issue i f = s.finish i (f s)) := by
  cases h : s.th.precheck i with
  | some x => exact .inl ⟨x, rfl, State.issue_trap h⟩
  | none =>
    cases hr : s.regFault i with
    | some o =>
      cases hn : s.coverTile s.th.tile with
      | some n => exact .inr (.inl ⟨rfl, o, rfl, .inl ⟨n, rfl, State.issue_error_group h hr hn⟩⟩)
      | none => exact .inr (.inl ⟨rfl, o, rfl, .inr ⟨rfl, State.issue_error h hr hn⟩⟩)
    | none =>
      by_cases hd : (formOf i).flush = true ∧ s.th.flow.outs ≠ []
      · exact .inr (.inr (.inl ⟨rfl, rfl, hd.1, hd.2, State.issue_drain h hr hd.1 hd.2⟩))
      · have hi : Issues i s := ⟨h, hr, fun hf => Classical.byContradiction (fun ho => hd ⟨hf, ho⟩)⟩
        exact .inr (.inr (.inr ⟨hi, State.issue_body hi⟩))
/-- A completing instruction retires unless it steps back from inside a chain. -/
theorem State.finish_ok {s t : State} {i : Instr} (h : NoStepBack i s t) : s.finish i (.ok t) = .next (t.retire s.th i) := by
  unfold State.finish
  dsimp only
  rw [if_neg]
  rcases h with ⟨h1, h2⟩ | h
  · simp [h1, h2]
  · simp [h]
/-- From inside a chain a step back is the transient trap. -/
theorem State.finish_back {s t : State} {i : Instr} (hc : s.th.flow.chain.isSome = true ∨ transientMark (instrMark i) = true)
    (hp : t.th.loopStep.pc ≠ t.th.pc + 4) :
    s.finish i (.ok t) = .next ((s.raise ⟨.transient, 0, s.th.pc⟩ s.th.faultPc).clock) := by
  unfold State.finish
  dsimp only
  rw [if_pos]
  rcases hc with h | h <;> simp only [h, Bool.or_true, Bool.true_or, Bool.true_and, bne_iff_ne] <;> exact hp
@[simp] theorem State.finish_trap (s : State) (i : Instr) (x : Trap) : s.finish i (.trap x) = .next (s.trapping i x) := rfl
@[simp] theorem State.finish_trapAt (s : State) (i : Instr) (x : Trap) (e : Word) : s.finish i (.trapAt x e) = .next (s.trappingAt x e) := rfl
@[simp] theorem State.finish_trapWith (s t : State) (i : Instr) (x : Trap) :
    s.finish i (.trapWith x t) = .next (t.clock.raise x s.th.faultPc) := rfl
@[simp] theorem State.finish_jump (s t : State) (i : Instr) (k : Jump) (a : Word) :
    s.finish i (.jump k a t) = .next (t.retireJump s.th i k a) := rfl
@[simp] theorem State.finish_hold (s t : State) (i : Instr) (k : Nat) : s.finish i (.hold k t) = .next (t.holding k) := rfl
@[simp] theorem State.finish_wait (s t : State) (i : Instr) (st : Status) : s.finish i (.wait st t) = .next (t.waits st) := rfl
@[simp] theorem State.finish_pass (s t : State) (i : Instr) : s.finish i (.pass t) = .next (t.passes s.th i) := rfl
@[simp] theorem State.finish_left (s t : State) (i : Instr) : s.finish i (.left t) = .next t := rfl
@[simp] theorem State.finish_refuse (s : State) (i : Instr) (r : Refusal) : s.finish i (.refuse r) = .refused r := rfl

-- The same, for a meaning that issues its effect ------------------------------------------------------------------------

/-- A meaning whose effect completes. -/
theorem completes_of {s t : State} {i : Instr} {f : State → Done} (he : exec i s = s.issue i f) (hi : Issues i s) (hf : f s = .ok t) :
    Completes i s t := by
  intro hb
  rw [he, State.issue_body hi, hf, State.finish_ok hb]
/-- A meaning whose effect is a precise trap. -/
theorem traps_of {s : State} {i : Instr} {f : State → Done} {x : Trap} (he : exec i s = s.issue i f) (hi : Issues i s)
    (hf : f s = .trap x) : Traps i s x := by
  rw [Traps, he, State.issue_body hi, hf, State.finish_trap]
/-- A meaning whose effect holds its slot. -/
theorem holds_of {s t : State} {i : Instr} {f : State → Done} {k : Nat} (he : exec i s = s.issue i f) (hi : Issues i s)
    (hf : f s = .hold k t) : exec i s = .next (t.holding k) := by
  rw [he, State.issue_body hi, hf, State.finish_hold]
/-- A meaning whose effect waits. -/
theorem waits_of {s t : State} {i : Instr} {f : State → Done} {st : Status} (he : exec i s = s.issue i f) (hi : Issues i s)
    (hf : f s = .wait st t) : exec i s = .next (t.waits st) := by
  rw [he, State.issue_body hi, hf, State.finish_wait]
/-- A meaning whose effect is a taken transfer. -/
theorem jumps_of {s t : State} {i : Instr} {f : State → Done} {k : Jump} {a : Word} (he : exec i s = s.issue i f) (hi : Issues i s)
    (hf : f s = .jump k a t) : exec i s = .next (t.retireJump s.th i k a) := by
  rw [he, State.issue_body hi, hf, State.finish_jump]
/-- A step of a unit whose conditions hold. -/
@[simp] theorem unitStep_some (s t : State) : unitStep s (some t) = .next t := rfl
/-- A step of a unit whose conditions do not hold changes nothing. -/
@[simp] theorem unitStep_none (s : State) : unitStep s none = .next s := rfl

-- Threads -------------------------------------------------------------------------------------------------------------

theorem State.thread_self {s : State} (h : s.th.live = true) : s.thread? s.th.tid = some s.th := by simp [State.thread?, h]
/-- The issuing thread is found under its number. -/
theorem Sole.thread {s : State} (h : Sole s) : s.thread? s.th.tid = some s.th := State.thread_self h.1
theorem State.focus_self {s : State} (h : s.th.live = true) : s.focus s.th.tid = s := by simp [State.focus, h]
@[simp] theorem State.focus_ms (s : State) (k : Nat) : (s.focus k).ms = s.ms := by unfold State.focus; split <;> [rfl; (split <;> rfl)]
@[simp] theorem State.focus_eng (s : State) (k : Nat) : (s.focus k).eng = s.eng := by unfold State.focus; split <;> [rfl; (split <;> rfl)]
@[simp] theorem State.focus_st (s : State) (k : Nat) : (s.focus k).st = s.st := by unfold State.focus; split <;> [rfl; (split <;> rfl)]
@[simp] theorem State.focus_pl (s : State) (k : Nat) : (s.focus k).pl = s.pl := by unfold State.focus; split <;> [rfl; (split <;> rfl)]
@[simp] theorem State.focus_inbox (s : State) (k : Nat) : (s.focus k).inbox = s.inbox := by
  unfold State.focus; split <;> [rfl; (split <;> rfl)]
@[simp] theorem State.focus_tiles (s : State) (k : Nat) : (s.focus k).tiles = s.tiles := by
  unfold State.focus; split <;> [rfl; (split <;> rfl)]
@[simp] theorem State.mapThreads_ms (s : State) (f : Thread → Thread) : (s.mapThreads f).ms = s.ms := rfl
@[simp] theorem State.mapThreads_eng (s : State) (f : Thread → Thread) : (s.mapThreads f).eng = s.eng := rfl
@[simp] theorem State.mapThreads_st (s : State) (f : Thread → Thread) : (s.mapThreads f).st = s.st := rfl
@[simp] theorem State.mapThreads_pl (s : State) (f : Thread → Thread) : (s.mapThreads f).pl = s.pl := rfl
@[simp] theorem State.mapThreads_inbox (s : State) (f : Thread → Thread) : (s.mapThreads f).inbox = s.inbox := rfl
@[simp] theorem State.mapThreads_tiles (s : State) (f : Thread → Thread) : (s.mapThreads f).tiles = s.tiles := rfl
@[simp] theorem State.grant_ms (s : State) (k : Nat) : (s.grant k).ms = s.ms := by simp [State.grant]
@[simp] theorem State.grant_eng (s : State) (k : Nat) : (s.grant k).eng = s.eng := by simp [State.grant]
@[simp] theorem State.grant_st (s : State) (k : Nat) : (s.grant k).st = s.st := by simp [State.grant]
@[simp] theorem State.grant_pl (s : State) (k : Nat) : (s.grant k).pl = s.pl := by simp [State.grant]
@[simp] theorem State.grant_inbox (s : State) (k : Nat) : (s.grant k).inbox = s.inbox := by simp [State.grant]
@[simp] theorem State.passOn_ms (s : State) (k : Nat) : (s.passOn k).ms = s.ms := by
  unfold State.passOn; (repeat' split) <;> simp
@[simp] theorem State.passOn_eng (s : State) (k : Nat) : (s.passOn k).eng = s.eng := by
  unfold State.passOn; (repeat' split) <;> simp
@[simp] theorem State.passOn_st (s : State) (k : Nat) : (s.passOn k).st = s.st := by
  unfold State.passOn; (repeat' split) <;> simp
@[simp] theorem State.passOn_pl (s : State) (k : Nat) : (s.passOn k).pl = s.pl := by
  unfold State.passOn; (repeat' split) <;> simp
@[simp] theorem State.passOn_inbox (s : State) (k : Nat) : (s.passOn k).inbox = s.inbox := by
  unfold State.passOn; (repeat' split) <;> simp
/-- A suspension changes no memory. -/
@[simp] theorem State.suspend_ms (s : State) : s.suspend.ms = s.ms := by simp [State.suspend, State.restartWatchdog]
@[simp] theorem State.suspend_eng (s : State) : s.suspend.eng = s.eng := by simp [State.suspend, State.restartWatchdog]
@[simp] theorem State.suspend_st (s : State) : s.suspend.st = s.st := by simp [State.suspend, State.restartWatchdog]
@[simp] theorem State.suspend_pl (s : State) : s.suspend.pl = s.pl := by simp [State.suspend, State.restartWatchdog]
@[simp] theorem State.suspend_inbox (s : State) : s.suspend.inbox = s.inbox := by simp [State.suspend, State.restartWatchdog]

end Sys2Proof.Machine
end

