-- ==== Sys2Proof/Tests/Slice0.lean ====
section
/-! SUPPORT. Tests of the model: ill-formed terms refused, the words of the spec's encoding tables, single steps against the rules' own
examples or hand calculation, and for every statement with hypotheses a state and operands that meet them. -/

namespace Sys2Proof.Tests
open Sys2Proof Sys2Proof.Machine

-- One theorem at a time: each kernel evaluation has a stack of its own.
set_option Elab.async false

/-- Version 1, no switch marker, not transient; and the same with T = 1. -/
def k1 : Mark := ⟨true, false, false⟩
def kt : Mark := ⟨true, false, true⟩
/-- Each word decodes to its instruction, which is well formed. -/
def decodes (l : List (Nat × Instr)) : Bool :=
  l.all (fun p => match decodeWord p.1 with | .ok i => i == p.2 && i.wellFormed | .error _ => false)
def refuses (l : List Instr) : Bool := l.all (fun i => !i.wellFormed)

-- States ----------------------------------------------------------------------------------------------------------------

/-- One thread of H mode at 0x30000 of mapped DRAM. -/
def base : State := State.reset.withFetchWord 32 0
/-- General registers set. -/
def withG (s : State) (rs : List (Nat × Nat)) : State :=
  { s with th := rs.foldl (fun t r => t.gw (BitVec.ofNat 5 r.1) (BitVec.ofNat 64 r.2)) s.th }
/-- Memory bytes set. -/
def withM (s : State) (a : Nat) (bs : List Byte) : State := s.write a bs
/-- The thread changed, its flow changed, its tile changed. -/
def withT (s : State) (f : Thread → Thread) : State := { s with th := f s.th }
def withF (s : State) (f : Flow → Flow) : State := { s with th := { s.th with flow := f s.th.flow } }
def withTile (s : State) (f : Tile → Tile) : State := s.setTile s.th.tile (f (s.tile s.th.tile))
/-- A domain partition register with banks 0 and 1 in scratch mode and the others cache. -/
def dp1 (dom : Nat) : Dp := ⟨true, dom, 1, 0xF, 0xFFFF, 0x0003, 64, 0xFE, 0⟩
/-- An S-mode thread of function 1, bound to node 1, with its domain on tile 0; page 3 of its own space mapped. -/
def part : State :=
  let s := withTile base (fun t => { t with dps := t.dps.set 0 (dp1 1) })
  { s with
    th := { s.th with dom := 1, priv := .s, gran := 8, wbase := 0 }
    ms := { s.ms with tlb := ⟨0, 1, 3, 16, 0x30000 + 0xEF, 0⟩ :: s.ms.tlb }
    st := { s.st with parts := [1], binds := [(1, 1)], bown := [(0, 0x401)] } }
/-- Another name of page 3 with bits `x` of its leaf set: 2^63 makes it an XT page, 2^56 one of class SO (17:R226). -/
def page (s : State) (vp x : Nat) : State := { s with ms := { s.ms with tlb := ⟨0, s.th.fn, vp, 16, x + 0x30000 + 0xEF, 0⟩ :: s.ms.tlb } }
/-- Another thread of tile 0, in slot 1. -/
def twin (s : State) (f : Thread → Thread) : State :=
  { s with others := [f { s.th with tid := 1, flow := { s.th.flow with holder := false }, info := { s.th.info with addr := 0x7000 } }] }
def okE {ε α : Type} (r : Except ε α) (p : α → Bool) : Bool := match r with | .ok x => p x | .error _ => false
def okH (r : Held) (p : List Byte → State → Bool) : Bool := match r with | .ok bs s => p bs s | _ => false
def errE {ε α : Type} (r : Except ε α) : Bool := match r with | .ok _ => false | .error _ => true
def okO {α : Type} (r : Option α) (p : α → Bool) : Bool := match r with | some x => p x | none => false
def steps (s : State) : Bool := s.th.loopStep.pc == s.th.pc + 4
def g (s : State) (k : Nat) : Nat := (s.th.gr (BitVec.ofNat 5 k)).toNat
/-- The step's next state, where it gives one. -/
def after (s : State) (f : State → Nat) : Nat := match step s with | .next t => f t | _ => 0xDEAD
def at_ (i : Instr) (s : State) : State := s.withFetchWord 32 ((encode i).getD 0)
/-- One term for each check of 07:R72-R78 and of the forms' own tables, refused. -/
theorem test_illformed_fields : refuses [
    .add k1 3 4 5 3, .sub k1 3 4 5 3, .mul k1 3 4 5 3, .sext k1 3 4 3, .zext k1 3 4 3, .shli k1 3 4 1 32, .shri k1 3 4 1 32,
    .srai k1 3 4 1 32, .br k1 3 0, .bc k1 3 1 0, .bc k1 0 0 0, .bcZ k1 3 1 0, .bcZ k1 0 0 0, .bg k1 3 0 0, .bgF k1 3 0 0,
    .call k1 3 0, .loop k1 0 1, .loop k1 3 0, .loop k1 3 8193, .ld k1 3 4 7 0, .st k1 3 4 4 0, .ldl k1 3 4 7 0, .stl k1 3 4 4 0,
    .ldx k1 3 4 7 5, .stx k1 3 4 4 5, .lda k1 3 4 7 0 0, .lda k1 3 4 0 7 0, .strel k1 3 4 4 0 0, .strel k1 3 4 0 7 0, .bmov k1 0 4 5,
    .bmov k1 3 0 5, .bmov k1 3 4 0, .bmov k1 3 3 5, .bmov k1 3 4 3, .bmov k1 3 4 4, .bfill k1 0 4 5, .bfill k1 3 4 0,
    .bfill k1 3 4 3, .bfill k1 3 3 5, .bfill k1 3 4 4, .vabs k1 3 4 4, .vcmp k1 3 4 6 0, .vcmp k1 3 4 15 0, .vcmp k1 3 4 23 0,
    .vcmp k1 3 4 16 3, .vred k1 3 4 6 0, .vred k1 3 4 19 0, .vred k1 3 4 16 3, .vfadd k1 3 4 5 3, .vfsub k1 3 4 5 3,
    .vfmul k1 3 4 5 3, .vfma k1 3 4 5 3, .vfmin k1 3 4 5 3, .vfmax k1 3 4 5 3, .vrcp k1 3 4 3, .vrsq k1 3 4 3, .vcvt k1 3 4 16 3,
    .vcvt k1 3 4 11 0, .vunpk k1 3 4 2 0, .vscl k1 3 4 31 0] = true := by decide +kernel
theorem test_illformed_fields_more : refuses [
    .vscl k1 3 4 7 0, .vscl k1 3 4 0 2, .mmar k1 1 0 4 5 31, .mzero k1 1 4, .mwait k1 16, .mwm k1 4 4, .mscl k1 1 4 5 4,
    .msave k1 4 4, .mrest k1 4 4, .fblk k1 3 4 31, .fblk k1 0 4 5, .fblk k1 3 0 5, .fblk k1 3 4 0, .fblk k1 3 3 5, .fblk k1 5 4 5,
    .fblk k1 3 5 5, .fblk k1 6 4 5, .fblk k1 3 6 5, .fence k1 3 0, .fence k1 0 7, .sync k1 1 4 3, .waita k1 4 5 28, .recv k1 4 5 2,
    .mfs k1 3 12, .mfs k1 3 0x13, .mfs k1 3 0x2E, .mfs k1 3 0x601, .mts k1 3 12, .mts k1 3 0x601, .hmod true 0 0 0 0,
    .hmod true 1 0 1 0, .hsched true 0 5, .hsched true 4 3] = true := by decide +kernel
/-- T = 1 in version 1 where 07:R73, R85 do not admit it. -/
theorem test_illformed_transient : refuses [
    .br kt 0 0, .bc kt 0 1 0, .bcZ kt 0 1 0, .bg kt 0 1 0, .bgF kt 0 1 0, .call kt 0 0, .callr kt 3 4, .ret kt 4, .jmpr kt 4,
    .jtab kt 3 4 0, .loop kt 3 1, .lexit kt , .yield kt , .spawn kt 3 4 1 0, .exit kt , .ld kt 3 1 0 0, .st kt 3 1 0 0,
    .ldl kt 3 1 0 0, .stl kt 3 1 0 0, .ldx kt 3 1 0 0, .stx kt 3 1 0 0, .lda kt 3 1 0 1 0, .strel kt 3 1 0 1 0, .bmov kt 3 4 5,
    .bfill kt 3 4 5, .vld kt 3 4 1 0, .vst kt 3 4 1 0, .vlds kt 3 4 1 0 0, .vsts kt 3 4 1 0 0, .vgth kt 3 4 1 0 0,
    .vsct kt 3 4 1 0 0, .vbcst kt 3 4 0, .vext kt 3 4 1 0, .mma kt 1 1 4 1 0, .mmar kt 1 1 4 1 0, .mzero kt 1 4, .mwait kt 0,
    .mwm kt 4 1, .mpln kt 4 1 1, .mscl kt 1 4 1 1, .scalemc kt 1 4 1 1, .acvt kt 1 4 1 1, .msave kt 4 1, .mrest kt 4 1,
    .capmint kt 4 1, .aadd kt 3 4 1 0 0 0, .aand kt 3 4 1 0 0 0, .aor kt 3 4 1 0 0 0, .axor kt 3 4 1 0 0 0, .aswp kt 3 4 1 0 0 0,
    .amin kt 3 4 1 0 0 0 0, .amax kt 3 4 1 0 0 0 0, .acas kt 3 4 1 0 0 0, .afadd kt 3 4 1 0 0, .fst kt 3 4 1 0, .fblk kt 3 4 5,
    .fence kt 0 1, .lbfence kt] = true := by decide +kernel
theorem test_illformed_transient_more : refuses [
    .sync kt 1 4 1, .gbar kt , .waita kt 4 1 1, .wake kt 4, .send kt 4 1, .sende kt 1 4 1, .recv kt 4 1 1, .exch kt , .sign kt 4,
    .dissolve kt , .gset kt 1 4, .gwait kt 1, .seal kt , .sealw kt 4, .job kt 1 4 1, .jobw kt 4, .jobq kt 4 1, .jobx kt 4,
    .wbind kt 4 1, .wdrop kt 4, .wstat kt 4 1, .coll kt 1 4 1, .task kt 4 1, .tdone kt , .discard kt 4 1, .cwb kt 4 1, .cinv kt 4 1,
    .trap kt 0, .svc kt 0, .eret kt , .gate kt 4, .gret kt , .ctxsv kt 3 4, .ctxld kt 3 4, .tlbiPage kt 4, .tlbiPart kt 1,
    .tlbiAll kt , .halt kt , .wdog kt 4 1, .kill kt 4, .killDom kt 4, .pcfgSplit kt 3 4 1, .pcfgMerge kt 3 4 1, .pcfgCreate kt 3 4 1,
    .pcfgDestroy kt 3 4 1, .pcfgBind kt 3 4 1, .pcfgUnbind kt 3 4 1, .vfcfg kt 3 4 1, .domcfgWrite kt 3 4 1, .domcfgAdjust kt 3 4 1,
    .domcfgClear kt 3 4 1, .l2msk kt 4 1, .clkj kt 3 4, .clkl kt 3, .memblkOffer kt 3 4 1, .memblkQuery kt 3 4 1,
    .memblkCancel kt 3 4 1, .mfs kt 3 0, .mts kt 4 0] = true := by decide +kernel
theorem test_decode_register_forms : decodes [
    (0b0_1_0_0_0000000_00011_00100_00101_0000_01, .add k1 3 4 5 1),
    (0b0_1_0_0_0000000_00011_00100_00101_0001_01, .sub k1 3 4 5 1),
    (0b0_1_0_0_0000000_00011_00100_00101_0010_01, .mul k1 3 4 5 1),
    (0b0_1_0_0_0000000_00011_00100_00101_001100, .mulh k1 3 4 5),
    (0b0_1_0_0_0000000_00011_00100_00101_010000, .mulhn k1 3 4 5),
    (0b0_1_0_0_0000000_00011_00100_00101_010100, .div k1 3 4 5),
    (0b0_1_0_0_0000000_00011_00100_00101_011000, .divn k1 3 4 5),
    (0b0_1_0_0_0000000_00011_00100_00101_011100, .rem k1 3 4 5),
    (0b0_1_0_0_0000000_00011_00100_00101_100000, .remn k1 3 4 5),
    (0b0_1_0_0_0000000_00011_00100_00101_100100, .min k1 3 4 5),
    (0b0_1_0_0_0000000_00011_00100_00101_101000, .max k1 3 4 5),
    (0b0_1_0_0_0000000_00011_00100_00101_101100, .minn k1 3 4 5),
    (0b0_1_0_0_0000000_00011_00100_00101_110000, .maxn k1 3 4 5),
    (0b0_1_0_0_0000001_00011_00100_00101_000000, .and k1 3 4 5),
    (0b0_1_0_0_0000001_00011_00100_00101_000100, .or k1 3 4 5),
    (0b0_1_0_0_0000001_00011_00100_00101_001000, .xor k1 3 4 5),
    (0b0_1_0_0_0000001_00011_00100_00101_001100, .andn k1 3 4 5),
    (0b0_1_0_0_0000001_00011_00100_00101_01000_1, .shl k1 3 4 5 1),
    (0b0_1_0_0_0000001_00011_00100_00101_01010_1, .shr k1 3 4 5 1),
    (0b0_1_0_0_0000001_00011_00100_00101_01100_1, .sra k1 3 4 5 1),
    (0b0_1_0_0_0000001_00011_00100_00101_01110_1, .rol k1 3 4 5 1),
    (0b0_1_0_0_0000001_00011_00100_0000010000_1, .clz k1 3 4 1),
    (0b0_1_0_0_0000001_00011_00100_0000010010_1, .ctz k1 3 4 1),
    (0b0_1_0_0_0000001_00011_00100_0000010100_1, .popc k1 3 4 1),
    (0b0_1_0_0_0000001_00011_00100_00101_101100, .sel k1 3 4 5),
    (0b0_1_0_0_0000001_00011_00100_00101_1100_01, .cmp k1 3 4 5 1),
    (0b0_1_0_0_0000001_00011_00100_000001101_01, .sext k1 3 4 1),
    (0b0_1_0_0_0000001_00011_00100_000001110_01, .zext k1 3 4 1),
    (0b0_1_0_0_0000001_00011_00100_00101_11110_1, .bfx k1 3 4 5 1),
    (0b0_1_0_0_0000010_00011_00100_00101_000000, .bfi k1 3 4 5)] = true := by decide +kernel
theorem test_decode_immediates : decodes [
    (0b0_1_0_0_0010000_00011_00100_00000000110, .addi k1 3 4 6),
    (0b0_1_0_0_0010001_00011_00100_00000000110, .andi k1 3 4 6),
    (0b0_1_0_0_0010010_00011_00100_00000000110, .ori k1 3 4 6),
    (0b0_1_0_0_0010011_00011_00100_00000000110, .xori k1 3 4 6),
    (0b0_1_0_0_0010100_00011_00100_0000_1_001001, .shli k1 3 4 1 9),
    (0b0_1_0_0_0010101_00011_00100_0000_1_001001, .shri k1 3 4 1 9),
    (0b0_1_0_0_0010110_00011_00100_0000_1_001001, .srai k1 3 4 1 9),
    (0b0_1_0_0_0010111_00011_00100_00000000110, .cmpi k1 3 4 6)] = true := by decide +kernel
theorem test_decode_constants : decodes [
    (0b0_1_0_0_0011000_00011_0000000000000110, .li k1 3 6),
    (0b0_1_0_0_0011001_00011_0000000000000110, .lih k1 3 6),
    (0b0_1_0_0_0011010_00011_00100_00000000110, .gadr k1 3 4 6),
    (0b0_1_0_0_0011011_00011_00100_00000000110, .ladr k1 3 4 6)] = true := by decide +kernel
theorem test_decode_branches : decodes [
    (0b0_1_0_0_0100000_01_000_0000000000000111, .br k1 1 7),
    (0b0_1_0_0_0100001_01_001_0000000000000111, .bc k1 1 1 7),
    (0b0_1_0_0_0100010_01_001_0000000000000111, .bcZ k1 1 1 7),
    (0b0_1_0_0_0100011_01_001_0000000000000111, .bg k1 1 1 7),
    (0b0_1_0_0_0100100_01_001_0000000000000111, .bgF k1 1 1 7),
    (0b0_1_0_0_0100101_01_000_0000000000000111, .call k1 1 7),
    (0b0_1_0_0_0100110_00011_00100_00000000000, .callr k1 3 4),
    (0b0_1_0_0_010011100000_00100_00000000000, .ret k1 4)] = true := by decide +kernel
theorem test_decode_transfers_and_threads : decodes [
    (0b0_1_0_0_010100000000_00100_00000000000, .jmpr k1 4),
    (0b0_1_0_0_0101001_00011_00100_00000001001, .jtab k1 3 4 9),
    (0b0_1_0_0_0101010_00011_0000000000000110, .loop k1 3 6),
    (0b0_1_0_0_0101011000000000000000000000, .lexit k1),
    (0b0_1_0_0_0101100000000000000000000000, .yield k1),
    (0b0_1_0_0_0101101_00011_00100_00101_0000_01, .spawn k1 3 4 5 1),
    (0b0_1_0_0_0101110000000000000000000000, .exit k1)] = true := by decide +kernel
theorem test_decode_scalar_memory : decodes [
    (0b0_1_0_0_0110000_00011_00101_010_00000111, .ld k1 3 5 2 7),
    (0b0_1_0_0_0110001_00011_00101_010_00000111, .st k1 3 5 2 7),
    (0b0_1_0_0_0110010_00011_00101_010_00000111, .ldl k1 3 5 2 7),
    (0b0_1_0_0_0110011_00011_00101_010_00000111, .stl k1 3 5 2 7),
    (0b0_1_0_0_0110100_00011_00101_010_00110_000, .ldx k1 3 5 2 6),
    (0b0_1_0_0_0110101_00011_00101_010_00110_000, .stx k1 3 5 2 6),
    (0b0_1_0_0_0110110_00011_00101_010_001_00111, .lda k1 3 5 2 1 7),
    (0b0_1_0_0_0110111_00011_00101_010_001_00111, .strel k1 3 5 2 1 7)] = true := by decide +kernel
theorem test_decode_block_memory : decodes [
    (0b0_1_0_0_0111000_00011_00100_00101_000000, .bmov k1 3 4 5),
    (0b0_1_0_0_0111001_00011_00100_00101_000000, .bfill k1 3 4 5)] = true := by decide +kernel
theorem test_decode_vector_1 : decodes [
    (0b0_1_0_0_1000000_00011_00100_00101_1_00000, .vld k1 3 4 5 1),
    (0b0_1_0_0_1000000_00011_00100_00101_1_00001, .vst k1 3 4 5 1),
    (0b0_1_0_0_1000000_00011_00100_00101_1_01_010, .vlds k1 3 4 5 1 1),
    (0b0_1_0_0_1000000_00011_00100_00101_1_01_011, .vsts k1 3 4 5 1 1),
    (0b0_1_0_0_1000000_00011_00100_00101_1_01_100, .vgth k1 3 4 5 1 1),
    (0b0_1_0_0_1000000_00011_00100_00101_1_01_101, .vsct k1 3 4 5 1 1),
    (0b0_1_0_0_1000000_00011_00100_00000_001_110, .vbcst k1 3 4 1),
    (0b0_1_0_0_1000000_00011_00100_00101_001_111, .vext k1 3 4 5 1),
    (0b0_1_0_0_1000001_00011_00100_00101_001_000, .vadd k1 3 4 5 1),
    (0b0_1_0_0_1000001_00011_00100_00101_001_001, .vsub k1 3 4 5 1),
    (0b0_1_0_0_1000001_00011_00100_00101_001_010, .vmul k1 3 4 5 1),
    (0b0_1_0_0_1000001_00011_00100_00101_001_011, .vmad k1 3 4 5 1),
    (0b0_1_0_0_1000001_00011_00100_00101_001_100, .vmin k1 3 4 5 1),
    (0b0_1_0_0_1000001_00011_00100_00101_001_101, .vmax k1 3 4 5 1),
    (0b0_1_0_0_1000001_00011_00100_00000_001_110, .vabs k1 3 4 1),
    (0b0_1_0_0_1000001_00011_00100_00000_001_111, .vneg k1 3 4 1),
    (0b0_1_0_0_1000010_00011_00100_00101_000000, .vand k1 3 4 5),
    (0b0_1_0_0_1000010_00011_00100_00101_000001, .vor k1 3 4 5),
    (0b0_1_0_0_1000010_00011_00100_00101_000010, .vxor k1 3 4 5),
    (0b0_1_0_0_1000010_00011_00100_00101_001_011, .vshl k1 3 4 5 1),
    (0b0_1_0_0_1000010_00011_00100_00101_001_100, .vshr k1 3 4 5 1),
    (0b0_1_0_0_1000010_00011_00100_00101_001_101, .vsra k1 3 4 5 1),
    (0b0_1_0_0_1000010_00011_00100_00001_001_110, .vcmp k1 3 4 1 1),
    (0b0_1_0_0_1000010_00011_00100_00101_000111, .vsel k1 3 4 5),
    (0b0_1_0_0_1000011_00011_00100_00101_001_000, .vperm k1 3 4 5 1),
    (0b0_1_0_0_1000011_00011_00100_00101_001_001, .vins k1 3 4 5 1),
    (0b0_1_0_0_1000011_00011_00100_00010_001_010, .vred k1 3 4 2 1),
    (0b0_1_0_0_1000011_00011_00100_00101_001_011, .vfadd k1 3 4 5 1),
    (0b0_1_0_0_1000011_00011_00100_00101_001_100, .vfsub k1 3 4 5 1),
    (0b0_1_0_0_1000011_00011_00100_00101_001_101, .vfmul k1 3 4 5 1)] = true := by decide +kernel
theorem test_decode_vector_2 : decodes [
    (0b0_1_0_0_1000011_00011_00100_00101_001_110, .vfma k1 3 4 5 1),
    (0b0_1_0_0_1000011_00011_00100_00101_001_111, .vfmin k1 3 4 5 1),
    (0b0_1_0_0_1000100_00011_00100_00101_001_000, .vfmax k1 3 4 5 1),
    (0b0_1_0_0_1000100_00011_00100_00000_001_001, .vrcp k1 3 4 1),
    (0b0_1_0_0_1000100_00011_00100_00000_001_010, .vrsq k1 3 4 1),
    (0b0_1_0_0_1000100_00011_00100_10001_001_011, .vcvt k1 3 4 17 1),
    (0b0_1_0_0_1000100_00011_00100_00101_001_100, .vpack k1 3 4 5 1),
    (0b0_1_0_0_1000100_00011_00100_00001_001_101, .vunpk k1 3 4 1 1),
    (0b0_1_0_0_1000100_00011_00100_10010_001_110, .vscl k1 3 4 18 1)] = true := by decide +kernel
theorem test_decode_matrix : decodes [
    (0b0_1_0_0_1010000_001_01_00100_00101_00010_0, .mma k1 1 1 4 5 2),
    (0b0_1_0_0_1010001_001_01_00100_00101_00010_0, .mmar k1 1 1 4 5 2),
    (0b0_1_0_0_1010010_001_00010_0000000000000, .mzero k1 1 2),
    (0b0_1_0_0_1010010000_00010_0000000000001, .mwait k1 2),
    (0b0_1_0_0_1010010000_00100_00010_00000010, .mwm k1 4 2),
    (0b0_1_0_0_1010010000_00100_00101_00001_011, .mpln k1 4 5 1),
    (0b0_1_0_0_1010010_001_00100_00101_00010_100, .mscl k1 1 4 5 2),
    (0b0_1_0_0_1010010_001_00100_00101_00001_101, .scalemc k1 1 4 5 1),
    (0b0_1_0_0_1010010_001_00100_00101_00110_110, .acvt k1 1 4 5 6),
    (0b0_1_0_0_1010010000_00100_00010_00000111, .msave k1 4 2),
    (0b0_1_0_0_1010011000_00100_00010_00000000, .mrest k1 4 2),
    (0b0_1_0_0_1010011000_00100_00101_00000001, .capmint k1 4 5)] = true := by decide +kernel
theorem test_decode_atomics_and_fences : decodes [
    (0b0_1_0_0_1011000_00011_00100_00101_11_01_1_0, .aadd k1 3 4 5 3 1 1),
    (0b0_1_0_0_1011001_00011_00100_00101_11_01_1_0, .aand k1 3 4 5 3 1 1),
    (0b0_1_0_0_1011001_00011_00100_00101_11_01_1_1, .aor k1 3 4 5 3 1 1),
    (0b0_1_0_0_1011010_00011_00100_00101_11_01_1_0, .axor k1 3 4 5 3 1 1),
    (0b0_1_0_0_1011010_00011_00100_00101_11_01_1_1, .aswp k1 3 4 5 3 1 1),
    (0b0_1_0_0_1011011_00011_00100_00101_11_01_1_1, .amin k1 3 4 5 3 1 1 1),
    (0b0_1_0_0_1011100_00011_00100_00101_11_01_1_1, .amax k1 3 4 5 3 1 1 1),
    (0b0_1_0_0_1011101_00011_00100_00101_11_01_1_0, .acas k1 3 4 5 3 1 1),
    (0b0_1_0_0_1011110_00011_00100_00101_11_01_10, .afadd k1 3 4 5 3 1),
    (0b0_1_0_0_1011111_00011_00100_00101_00_10_00, .fst k1 3 4 5 2),
    (0b0_1_0_0_1011111_00011_00100_00101_010000, .fblk k1 3 4 5),
    (0b0_1_0_0_1011111_00010_000000000010_001_0, .fence k1 2 1),
    (0b0_1_0_0_1011111000000000000000110000, .lbfence k1)] = true := by decide +kernel
theorem test_decode_synchronisation : decodes [
    (0b0_1_0_0_1100000_001_00100_00010_00000000, .sync k1 1 4 2),
    (0b0_1_0_0_1100000000000000000000000001, .gbar k1),
    (0b0_1_0_0_1100000000_00100_00101_00001_010, .waita k1 4 5 1),
    (0b0_1_0_0_1100000000_00100_0000000000011, .wake k1 4),
    (0b0_1_0_0_1100000000_00100_00101_00000100, .send k1 4 5),
    (0b0_1_0_0_1100000_001_00100_00101_00000101, .sende k1 1 4 5),
    (0b0_1_0_0_1100000000_00100_00101_00001_110, .recv k1 4 5 1),
    (0b0_1_0_0_1100000000000000000000000111, .exch k1),
    (0b0_1_0_0_1100001000_00100_0000000000000, .sign k1 4),
    (0b0_1_0_0_1100001000000000000000000001, .dissolve k1),
    (0b0_1_0_0_1100001_001_00100_0000000000010, .gset k1 1 4),
    (0b0_1_0_0_1100001_001_000000000000000011, .gwait k1 1),
    (0b0_1_0_0_1100001000000000000000000100, .seal k1),
    (0b0_1_0_0_1100001000_00100_0000000000101, .sealw k1 4),
    (0b0_1_0_0_1100010_001_00100_00101_00000000, .job k1 1 4 5),
    (0b0_1_0_0_1100010000_00100_0000000000001, .jobw k1 4),
    (0b0_1_0_0_1100010000_00100_00101_00000010, .jobq k1 4 5),
    (0b0_1_0_0_1100010000_00100_0000000000011, .jobx k1 4),
    (0b0_1_0_0_1100010000_00100_00101_00000100, .wbind k1 4 5),
    (0b0_1_0_0_1100010000_00100_0000000000101, .wdrop k1 4),
    (0b0_1_0_0_1100010000_00100_00101_00000110, .wstat k1 4 5),
    (0b0_1_0_0_1100010_001_00100_00101_00000111, .coll k1 1 4 5),
    (0b0_1_0_0_1100011000_00100_00101_00000000, .task k1 4 5),
    (0b0_1_0_0_1100011000000000000000000001, .tdone k1),
    (0b0_1_0_0_1100011000_00100_00101_00000010, .discard k1 4 5),
    (0b0_1_0_0_1100011000_00100_00101_00000011, .cwb k1 4 5),
    (0b0_1_0_0_1100011000_00100_00101_00000100, .cinv k1 4 5)] = true := by decide +kernel
theorem test_decode_system : decodes [
    (0b0_1_0_0_1101000_000000000001001_000000, .trap k1 9),
    (0b0_1_0_0_1101000_000000000001001_000100, .svc k1 9),
    (0b0_1_0_0_1101000000000000000000001000, .eret k1),
    (0b0_1_0_0_110100000000_00100_00000001100, .gate k1 4),
    (0b0_1_0_0_1101000000000000000000010000, .gret k1),
    (0b0_1_0_0_1101000_00011_00100_00000010100, .ctxsv k1 3 4),
    (0b0_1_0_0_1101000_00011_00100_00000011000, .ctxld k1 3 4),
    (0b0_1_0_0_110100000000_00100_00000011100, .tlbiPage k1 4),
    (0b0_1_0_0_11010000000000000_00101_011101, .tlbiPart k1 5),
    (0b0_1_0_0_1101000000000000000000011110, .tlbiAll k1),
    (0b0_1_0_0_1101000000000000000000100000, .halt k1),
    (0b0_1_0_0_110100000000_00100_00101_100100, .wdog k1 4 5),
    (0b0_1_0_0_110100000000_00100_00000101000, .kill k1 4),
    (0b0_1_0_0_110100000000_00100_00000101001, .killDom k1 4),
    (0b0_1_0_0_1101000_00011_00100_00101_101100, .pcfgSplit k1 3 4 5),
    (0b0_1_0_0_1101000_00011_00100_00101_110000, .vfcfg k1 3 4 5),
    (0b0_1_0_0_1101000_00011_00100_00101_110100, .domcfgWrite k1 3 4 5),
    (0b0_1_0_0_110100000000_00100_00101_111000, .l2msk k1 4 5),
    (0b0_1_0_0_1101000_00011_00100_00000111100, .clkj k1 3 4),
    (0b0_1_0_0_1101001_00011_0000000000000000, .clkl k1 3),
    (0b0_1_0_0_1101001_00011_00100_00101_000100, .memblkOffer k1 3 4 5),
    (0b0_1_0_0_1101010_00011_00000_00000000011, .mfs k1 3 3),
    (0b0_1_0_0_110101100000_00100_00000000011, .mts k1 4 3)] = true := by decide +kernel
theorem test_decode_hints : decodes [
    (0b0_1_001110000_000000000000000000110, .himm true 6),
    (0b0_1_00111000100000000000_1_0_0000_00_01, .hmod true 1 0 0 1),
    (0b0_1_0011100100000000000000_00100_100, .hsched true 4 4)] = true := by decide +kernel
/-- Words printed beside their assembly text in the spec. -/
theorem test_decode_printed_words : decodes [
    (0x4003_2141, .add k1 3 4 5 1),
    (0x4023_2172, .cmp k1 3 4 5 2),
    (0x4203_27FF, .addi k1 3 4 0x7FF),
    (0x42A3_2007, .shri k1 3 4 0 7),
    (0x4305_1234, .li k1 5 0x1234),
    (0x4346_3840, .gadr k1 6 7 0x40),
    (0x4400_FFFC, .br k1 0 0xFFFC),
    (0x4524_280C, .jtab k1 4 5 12),
    (0x4544_0003, .loop k1 4 3),
    (0x4606_3A06, .ld k1 6 7 2 6),
    (0x4665_2202, .stl k1 5 4 2 2),
    (0x4686_3B48, .ldx k1 6 7 3 9),
    (0x46C5_2264, .lda k1 5 4 2 3 4),
    (0x46E1_13A0, .strel k1 1 2 3 5 0),
    (0x4703_2140, .bmov k1 3 4 5),
    (0x4802_2021, .vst k1 2 4 0 1),
    (0x4805_5037, .vext k1 5 10 0 6),
    (0x4821_10D0, .vadd k1 1 2 3 2),
    (0x4863_2146, .vfma k1 3 4 5 0),
    (0x4A01_214C, .mma k1 0 1 4 5 6),
    (0x4A2E_4254, .mmar k1 3 2 8 9 10),
    (0x4A40_C107, .msave k1 6 1),
    (0x4A40_C33B, .mpln k1 6 3 7),
    (0x4A50_C706, .acvt k1 4 6 7 0),
    (0x4A60_A601, .capmint k1 5 6),
    (0x4B05_31D4, .aadd k1 5 6 7 1 1 0),
    (0x4B65_31C3, .amin k1 5 6 7 0 0 1 1),
    (0x4BA5_31F8, .acas k1 5 6 7 3 2 0),
    (0x4BE5_31CC, .fst k1 5 6 7 3),
    (0x4BE5_3210, .fblk k1 5 6 8),
    (0x4C10_A200, .sync k1 4 5 2),
    (0x4C00_E8B2, .waita k1 7 8 0x16),
    (0x4C08_0605, .sende k1 2 0 6),
    (0x4BE2_002A, .fence k1 2 5),
    (0x4C2C_A002, .gset k1 3 5),
    (0x4C40_E800, .job k1 0 7 8),
    (0x4C40_A604, .wbind k1 5 6),
    (0x4D00_0480, .trap k1 0x12),
    (0x4D00_280C, .gate k1 5),
    (0x4D45_0003, .mfs k1 5 3),
    (0x4D60_2803, .mts k1 5 3),
    (0x4E20_0003, .hmod true 0 0 0 3),
    (0x5008_10C8, .mul ⟨true, false, true⟩ 8 2 3 0),
    (0x600C_4A80, .add ⟨true, true, false⟩ 12 9 10 0)] = true := by decide +kernel

-- Single steps: expected values from the rules by hand calculation --------------------------------------------------------

/-- 2^64 - 1 plus 2 wraps to 1; the saturating signed sum of 2^63 - 1 and 1 stays at 2^63 - 1 and sets SAT (R106, R62). -/
theorem test_step_add :
    after (at_ (.add k1 3 4 5 0) (withG base [(4, 2 ^ 64 - 1), (5, 2)])) (g · 3) = 1 ∧
    after (at_ (.add k1 3 4 5 1) (withG base [(4, 2 ^ 63 - 1), (5, 1)])) (fun t => g t 3 * 64 + t.th.fx.toNat) =
      (2 ^ 63 - 1) * 64 + 32 := by decide +kernel
/-- Division by zero gives all ones and no flag, the remainder the dividend; -7 / 2 truncates to -3 (R106). -/
theorem test_step_div :
    after (at_ (.div k1 3 4 5) (withG base [(4, 7)])) (fun t => g t 3 + t.th.fx.toNat) = 2 ^ 64 - 1 ∧
    after (at_ (.rem k1 3 4 5) (withG base [(4, 7)])) (g · 3) = 7 ∧
    after (at_ (.div k1 3 4 5) (withG base [(4, 2 ^ 64 - 7), (5, 2)])) (g · 3) = 2 ^ 64 - 3 := by decide +kernel
/-- The product's upper half of (-1) * (-1) is 0 signed and 2^64 - 2 unsigned (R106). -/
theorem test_step_mulh :
    after (at_ (.mulh k1 3 4 4) (withG base [(4, 2 ^ 64 - 1)])) (g · 3) = 0 ∧
    after (at_ (.mulhn k1 3 4 4) (withG base [(4, 2 ^ 64 - 1)])) (g · 3) = 2 ^ 64 - 2 := by decide +kernel
/-- A .w32 rotation takes its amount mod 32 and zero-extends; .w32 SRA sign-extends (R107). -/
theorem test_step_shifts :
    after (at_ (.rol k1 3 4 5 1) (withG base [(4, 0xFFFFFFFF80000001), (5, 33)])) (g · 3) = 3 ∧
    after (at_ (.sra k1 3 4 5 1) (withG base [(4, 0x80000000), (5, 31)])) (g · 3) = 2 ^ 64 - 1 := by decide +kernel
/-- BFX of 8 bits from bit 60 reads zeros above bit 63; BFI of 8 bits at bit 60 is cut at bit 63 (R108). -/
theorem test_step_fields :
    after (at_ (.bfx k1 3 4 5 1) (withG base [(4, 0xF000000000000000), (5, 8 * 64 + 60)])) (g · 3) = 15 ∧
    after (at_ (.bfi k1 3 4 5) (withG base [(3, 1), (4, 0xFF), (5, 8 * 64 + 60)])) (g · 3) = 0xF000000000000001 := by decide +kernel
/-- `li g5, 0x3_4567_89AB`: HIMM 0x3_4567 then LI 0x89AB, the example of R81; LIH keeps the low 48 bits (R109). -/
theorem test_step_constants :
    after (withF (at_ (.li k1 5 0x89AB) base) (fun f => { f with group := some ⟨0x2FFFC, [.himm true 0x34567]⟩ })) (g · 5) = 0x3456789AB ∧
    after (at_ (.li k1 5 0x89AB) base) (g · 5) = 2 ^ 64 - 0x7655 ∧
    after (at_ (.lih k1 5 0x8000) (withG base [(5, 2 ^ 64 - 1)])) (g · 5) = 0x8000FFFFFFFFFFFF := by decide +kernel
/-- g0 reads zero and discards writes (R90). -/
theorem test_step_g0 : after (at_ (.addi k1 0 4 1) (withG base [(4, 6)])) (fun t => g t 0 + t.th.pc.toNat) = 0x30004 := by decide +kernel
/-- A taken and a passed branch, a call and its link (R112). -/
theorem test_step_branches :
    after (at_ (.br k1 0 0xFFFF) base) (·.th.pc.toNat) = 0x2FFFC ∧
    after (at_ (.bc k1 0 4 3) (withG base [(4, 1)])) (·.th.pc.toNat) = 0x3000C ∧
    after (at_ (.bc k1 0 4 3) base) (·.th.pc.toNat) = 0x30004 ∧
    after (at_ (.call k1 0 2) base) (fun t => g t 31 * 2 ^ 32 + t.th.pc.toNat) = 0x30004 * 2 ^ 32 + 0x30008 := by decide +kernel
/-- A loop of zero turns skips its body; the last word of a body with a count of 2 goes back (R117-R118). -/
theorem test_step_loops :
    after (at_ (.loop k1 3 4) base) (·.th.pc.toNat) = 0x30014 ∧
    after (withT (at_ (.addi k1 4 4 1) (withG base [(3, 2)]))
      (fun t => { t with lps := 0x2FFF8, lp0 := ⟨true, 3, 0, 2⟩ })) (fun t => g t 3 * 2 ^ 32 + t.th.pc.toNat) =
      1 * 2 ^ 32 + 0x2FFF8 := by decide +kernel
/-- ST of four bytes changes those four alone, little-endian (R126, R236). -/
theorem test_step_store :
    after (at_ (.st k1 5 6 2 1) (withG base [(5, 0x1122334455667788), (6, 0x30100)])) (fun t =>
      leNat (t.read 0x30100 16)) = 0x5566778800000000 := by decide +kernel
/-- LDL past the scratch range reads zero and records the first such address in TS.OOB (R129). -/
theorem test_step_ldl :
    after (at_ (.ldl k1 5 6 3 0) (withG base [(5, 9), (6, 0x17FFF9)])) (fun t => g t 5 * 2 ^ 64 + t.th.oob.toNat) = 2 ^ 63 + 0x17FFF9 := by
  decide +kernel
/-- AADD writes the sum (R168). -/
theorem test_step_aadd :
    after (at_ (.aadd k1 5 6 7 0 0 0) (withM (withG base [(6, 0x30100), (7, 5)]) 0x30100 [0xFF])) (fun t => leNat (t.read 0x30100 8)) =
      0x104 := by decide +kernel
/-- An instruction in S mode of function 1, with an H vector. -/
def inS (i : Instr) : State :=
  let s := withT (at_ i part) (fun t => { t with dom := 1, priv := .s })
  { s with st := { s.st with htvec := 0x8000 } }
/-- TRAP enters H with the restart point of the TRAP itself, SVC from S with the word after it, and in H it is an illegal state (R207-R208). -/
theorem test_step_traps :
    let s := { base with st := { base.st with htvec := 0x8000 } }
    after (at_ (.trap k1 0x12) s) (fun t => t.th.pc.toNat) = 0x8000 ∧
    after (at_ (.trap k1 0x12) s) (fun t => t.th.hb.epc.toNat) = 0x30000 ∧
    after (at_ (.trap k1 0x12) s) (fun t => t.th.hb.tval.toNat * 256 + t.th.hb.cause.toNat) = 0x120D ∧
    after (at_ (.trap k1 0x12) s) (fun t => t.th.hb.estat.toNat) = 6 ∧
    after (at_ (.svc k1 3) s) (fun t => t.th.hb.epc.toNat * 256 + t.th.hb.cause.toNat) = 0x30000 * 256 + 2 ∧
    after (inS (.svc k1 3)) (fun t => t.th.hb.epc.toNat * 256 + t.th.hb.cause.toNat) = 0x30004 * 256 + 0x0E := by decide +kernel
/-- ERET goes to EPC in mode PPRIV and clears BUSY (R209). -/
theorem test_step_eret :
    let s := withT base (fun t => { t with hb := ⟨0x9000, 6, 0x0D, 0, 0⟩ })
    after (at_ (.eret k1) s) (fun t => t.th.pc.toNat * 16 + t.th.hb.estat.toNat) = 0x9000 * 16 + 2 := by decide +kernel
/-- MTS and MFS of TS.FX; a reserved bit is refused (R204, R62). -/
theorem test_step_state_registers :
    after (at_ (.mts k1 5 3) (withG base [(5, 0x21)])) (·.th.fx.toNat) = 0x21 ∧
    after (at_ (.mfs k1 5 3) (withT base (fun t => { t with fx := 9 }))) (g · 5) = 9 ∧
    after (at_ (.mts k1 5 3) (withG { base with st := { base.st with htvec := 0x8000 } } [(5, 0x40)]))
      (fun t => t.th.hb.cause.toNat * 2 ^ 32 + t.th.pc.toNat) = 2 * 2 ^ 32 + 0x8000 := by decide +kernel
/-- A misaligned acquire traps with its address; HALT in S takes the privilege trap with its word, which goes to
H as NOVEC while S has no vector (R128, R203, R207). -/
theorem test_step_refused_forms :
    let s := { base with st := { base.st with htvec := 0x8000 } }
    after (at_ (.lda k1 5 6 3 3 0) (withG s [(6, 0x30104)])) (fun t => t.th.hb.tval.toNat * 256 + t.th.hb.cause.toNat) = 0x3010406 ∧
    after (inS (.halt k1)) (fun t => t.th.hb.tval.toNat * 256 + t.th.hb.cause.toNat) = 0x4D00002014 := by decide +kernel
/-- GSET (R183). -/
theorem test_step_gset :
    after (at_ (.gset k1 3 5) (withG base [(5, 2)])) (fun t => if t.th.gst 3 = .tru then 1 else 0) = 1 := by decide +kernel
/-- A three-word operation on vectors at window byte 256: lanes of i8 wrap each on its own (R140). -/
theorem test_step_vadd :
    let s := withT base (fun t => { t with gran := 4, vv := 256 + 3 * 65536, win := [(256, 0xFF), (257, 1), (384, 2)] })
    after (at_ (.vadd k1 2 0 1 0) s) (fun t => leNat (t.th.winRead 512 4)) = 0x101 := by decide +kernel

-- Witnesses ---------------------------------------------------------------------------------------------------------------

theorem test_witness_StepRunsDecodedWord :
    let s := withM base 0x30000 (leBytes 4 0x40032140)
    s.inbox = [] ∧ s.pl.fwSt = 1 ∧ s.clocked = true ∧ s.progress = none ∧ (∃ u, s.turn = some u ∧
      (u.noteGuards).th.due = none ∧ (u.noteGuards).th.heldHere = none ∧ (u.noteGuards).stopDue (u.noteGuards).th = false ∧
      (u.noteGuards).th.status = .ready ∧ (u.noteGuards).credit.2 = true ∧
      (okH ((u.noteGuards).credit.1.fetchAt (u.noteGuards).credit.1.th.pc) (fun bs s' =>
        (match decodeWord (leNat bs) with | .ok i => i == .add k1 3 4 5 0 | .error _ => false) &&
        !(u.noteGuards).credit.1.th.flow.jumped && okE (s'.afterHint (u.noteGuards).credit.1.th.pc) (!·))) = true) := by
  refine ⟨by decide +kernel, by decide +kernel, by decide +kernel, by decide +kernel, _, rfl, ?_⟩
  decide +kernel
/-- The clause of a word that does not decode. -/
theorem test_witness_StepRunsDecodedWord_error :
    okH ((withM base 0x30000 (leBytes 4 0x80000000)).fetchAt 0x30000) (fun bs _ =>
      match decodeWord (leNat bs) with | .ok _ => false | .error _ => true) = true := by decide +kernel
theorem test_witness_RetireChanges : Sole base := by unfold Sole; decide +kernel

theorem test_witness_ArithmeticResults :
    let s := withG base [(4, 0x8000000000000000), (5, 0xFFFFFFFFFFFFFFFF)]
    let i := Instr.div k1 3 4 5
    ∃ r, arithRule i s.th = some r ∧ i.wellFormed = true ∧ Issues i s ∧ NoStepBack i s ((s.deliver r.1 r.2.1 r.2.2.1).setfx r.2.2.2) := by
  refine ⟨_, rfl, ?_⟩; unfold Issues NoStepBack; decide +kernel
theorem test_witness_LogicResults :
    let s := withG base [(4, 1), (5, 63)]
    let i := Instr.rol k1 3 4 5 1
    ∃ r, logicRule i s.th = some r ∧ i.wellFormed = true ∧ Issues i s ∧ NoStepBack i s (s.deliver r.1 r.2.1 r.2.2) := by
  refine ⟨_, rfl, ?_⟩; unfold Issues NoStepBack; decide +kernel
theorem test_witness_ImmediateResults :
    let s := withG base [(4, 1)]
    let i := Instr.srai k1 3 4 1 31
    ∃ r, immediateRule i s.th = some r ∧ i.wellFormed = true ∧ Issues i s ∧ NoStepBack i s (s.deliver r.1 r.2.1 r.2.2) := by
  refine ⟨_, rfl, ?_⟩; unfold Issues NoStepBack; decide +kernel
theorem test_witness_TileAddresses :
    Issues (.gadr k1 3 4 0) (withG base [(4, 23)]) ∧ coordIdx (23 % 32768 % 2048) = some 23 ∧ NoStepBack (.gadr k1 3 4 0) base base ∧
    Issues (.gadr k1 3 4 0) (withG base [(4, 24)]) ∧ coordIdx (24 % 32768 % 2048) = none ∧
    Issues (.ladr k1 3 4 0) base ∧ NoStepBack (.ladr k1 3 4 0) base base := by
  unfold Issues NoStepBack; decide +kernel
theorem test_witness_Hints :
    base.th.hints.length < 2 ∧ base.th.lp0.act = false ∧ base.th.lp1.act = false ∧ base.th.hints = [] ∧
    (formOf (.himm true 1)).major = 0x70 ∧
    2 ≤ (withF base (fun f => { f with group := some ⟨0x2FFF8, [.himm true 1, .himm true 2]⟩ })).th.hints.length := by decide +kernel

def q1 (v : Guard) : State := withT base (·.setGuard 1 v)
theorem test_witness_Branches :
    let n := NoStepBack
    Issues (.br k1 0 0x7FFF) base ∧ Issues (.bc k1 0 4 0) (withG base [(4, 1)]) ∧ (withG base [(4, 1)]).th.gr 4 ≠ 0 ∧
    Issues (.bc k1 0 4 0) base ∧ base.th.gr 4 = 0 ∧ n (.bc k1 0 4 0) base base ∧ Issues (.bcZ k1 0 4 0) base ∧
    n (.bcZ k1 0 4 0) (withG base [(4, 1)]) (withG base [(4, 1)]) ∧
    (∀ v ∈ [Guard.tru, .fls, .pend], (q1 v).th.gst 1 = v ∧ Issues (.bg k1 0 1 0) (q1 v) ∧ Issues (.bgF k1 0 1 0) (q1 v) ∧
      n (.bg k1 0 1 0) (q1 v) (q1 v) ∧ n (.bgF k1 0 1 0) (q1 v) (q1 v)) := by
  unfold Issues NoStepBack; decide +kernel
theorem test_witness_CallsJumpsTables :
    let a := withG base [(4, 0x30004)]
    let b := withG base [(4, 0x30001)]
    let t := withG base [(3, 1), (4, 0x30008)]
    let u := withG base [(3, 1), (4, 0x30009)]
    Issues (.call k1 0 2) base ∧ Issues (.callr k1 4 4) a ∧ Issues (.ret k1 4) a ∧ Issues (.jmpr k1 4) a ∧ (a.th.gr 4).toNat % 4 = 0 ∧
    Issues (.callr k1 4 4) b ∧ Issues (.ret k1 4) b ∧ Issues (.jmpr k1 4) b ∧ (b.th.gr 4).toNat % 4 ≠ 0 ∧
    Issues (.jtab k1 3 4 1) t ∧ t.th.uimm 1 11 ≤ (t.th.gr 3).toNat ∧ NoStepBack (.jtab k1 3 4 1) t t ∧
    Issues (.jtab k1 3 4 2) t ∧ (t.th.gr 3).toNat < t.th.uimm 2 11 ∧ (t.th.gr 4 + 4 * t.th.gr 3).toNat % 4 = 0 ∧
    okH (t.ldHeld t.th.acc .read (t.th.gr 4 + 4 * t.th.gr 3) 4) (fun _ _ => true) = true ∧
    Issues (.jtab k1 3 4 2) u ∧ (u.th.gr 4 + 4 * u.th.gr 3).toNat % 4 ≠ 0 := by
  unfold Issues NoStepBack; decide +kernel

/-- LP0 over the words 0x30004 to 0x30010, at `pc`; and LP1 inside it over 0x30008 to 0x30010. -/
def lp (pc : Nat) (n0 : Nat) : State :=
  withG (withT base (fun t => { t with pc := BitVec.ofNat 64 pc, lps := 0x30004, lp0 := ⟨true, 3, 0, 3⟩ })) [(3, n0)]
def lp2 (pc n0 n1 : Nat) : State := withG (withT (lp pc n0) (fun t => { t with lp1 := ⟨true, 4, 1, 2⟩ })) [(4, n1)]
theorem test_witness_LoopsAndBranches :
    (lp 0x30004 2).th.loop0 = (0x30004, 0x30010) ∧ (lp2 0x30004 2 2).th.loop1 = (0x30008, 0x30010) ∧
    Issues (.loop k1 3 1) base ∧ base.th.lp0.act = false ∧ base.th.gr 3 = 0 ∧ Issues (.loop k1 3 1) (withG base [(3, 1)]) ∧
    NoStepBack (.loop k1 3 1) base (withT base (fun t => { t with lp0 := ⟨true, 3, 0, 1⟩, lps := t.pc + 4 })) ∧
    Issues (.loop k1 4 3) (withG (lp 0x30004 2) [(4, 1)]) ∧ (lp 0x30004 2).th.lp1.act = false ∧
    (lp 0x30004 2).th.loop0.1 ≤ ((lp 0x30004 2).th.pc + 4).toNat ∧ (lp 0x30004 2).th.pc.toNat + 4 * 3 ≤ (lp 0x30004 2).th.loop0.2 ∧
    Issues (.loop k1 4 3) (withG (lp 0x30004 2) [(4, 0)]) ∧ (withG (lp 0x30004 2) [(4, 0)]).th.gr 4 = 0 ∧
    ¬ ((lp 0x30004 2).th.pc.toNat + 4 * 4 ≤ (lp 0x30004 2).th.loop0.2) ∧ Issues (.loop k1 4 4) (lp 0x30004 2) ∧
    Issues (.loop k1 4 1) (lp2 0x30008 2 2) ∧ Issues (.lexit k1) (lp 0x30004 2) ∧ NoStepBack (.lexit k1) (lp 0x30004 2) (lp 0x30004 2) := by
  unfold Issues NoStepBack; decide +kernel
/-- A target at each end of the bodies and one word outside them; the end words with count 2 and count 1. -/
theorem test_witness_LoopsAndBranches_steps :
    let a := (lp2 0x30004 2 2).th
    (a.loop0.1 ≤ 0x30004 ∧ ¬ a.loop1.1 ≤ 0x30004) ∧ (0x30010 ≤ a.loop0.2 ∧ 0x30010 ≤ a.loop1.2) ∧ ¬ (0x30014 ≤ a.loop0.2) ∧
    (lp2 0x30010 2 2).th.pc.toNat = a.loop1.2 ∧ 1 < ((lp2 0x30010 2 2).th.gr 4).toNat ∧ ((lp2 0x30010 2 1).th.gr 4).toNat ≤ 1 ∧
    (lp2 0x30010 2 1).th.pc.toNat = (lp2 0x30010 2 1).th.loop0.2 ∧ (lp2 0x30010 2 1).th.lp0.creg ≠ (lp2 0x30010 2 1).th.lp1.creg ∧
    1 < ((lp2 0x30010 2 1).th.gr 3).toNat ∧ (lp 0x30010 2).th.pc.toNat = (lp 0x30010 2).th.loop0.2 ∧
    ((lp 0x30010 1).th.gr 3).toNat ≤ 1 ∧ (lp 0x3000C 2).th.pc.toNat ≠ (lp 0x3000C 2).th.loop0.2 ∧
    (withT (lp2 0x3000C 2 1) (fun t => { t with lp1 := ⟨true, 4, 1, 1⟩ })).th.loop1.2 = 0x3000C := by
  decide +kernel

/-- Three words of a SPAWN: record at 0x30400, save area at 0x30800, pc 0x30004. -/
def sp (r v p : Nat) : State := withG base [(3, v), (4, r), (5, p)]
/-- A fabric with one live peer, package 3, and page 5 of the tile's own space mapped on it. -/
def farPage (s : State) : State :=
  { s with ms := { s.ms with tlb := ⟨0, s.th.fn, 5, 16, 3 * 2 ^ 48 + 0x50000 + 0xEF, 0⟩ :: s.ms.tlb }
           pl := { s.pl with en := true, trained := true, joined := true, peers := [(3, ⟨1, 0, [45, 46, 47], 0, []⟩)] } }
theorem test_witness_ThreadInstructions :
    let s := sp 0x30400 0x30800 0x30004
    let f := withF (farPage (sp 0x50400 0x30800 0x30004)) (fun f => { f with heldReads := [⟨3 * 2 ^ 48 + 0x50400, 64, 9, 0, some (.done, [])⟩] })
    let p : State := { s with ms := { s.ms with pins := [⟨0x30400 / 192 * 192, 5, none, 0, 0, 0, false, false, false⟩] } }
    let w := withF s (fun f => { f with outs := [⟨7, [], .parts [.wait 1 0 8 0 0] (.scalar 3 0), none, 0⟩] })
    Issues (.yield k1) base ∧ Issues (.spawn k1 3 4 5 1) s ∧ (s.th.gr 4).toNat % 64 = 0 ∧ (s.th.gr 3).toNat % 1024 = 0 ∧
    (s.th.gr 5).toNat % 4 = 0 ∧
    okE (s.pieces s.th.acc .write (s.th.gr 4) 64) (fun r => (r.1.findSome? (r.2.refusal s.th.acc)).isNone && !r.2.accessWaits s.th.acc r.1 &&
      (r.2.storeBlock s.th.acc r.1).isNone && (r.1.find? (r.2.held s.th.acc)).isNone && (r.1.find? (r.2.postedPiece s.th.acc)).isNone &&
      (let e := (storePieces s.th.acc r.1 (spawnRecord s.th (s.th.gr 5) (s.th.gr 3) 1) r.2).enqueue ⟨dieOf s.th.tile, s.th.dom, 1, s.th.gr 4⟩
       e.th.loopStep.pc == e.th.pc + 4)) = true ∧ s.mayRelease s.th = true ∧ Issues (.spawn k1 3 4 5 1) w ∧ w.mayRelease w.th = false ∧
    Issues (.spawn k1 3 4 5 1) f ∧ f.mayRelease f.th = true ∧
    okE (f.pieces f.th.acc .write (f.th.gr 4) 64) (fun r => (r.1.findSome? (r.2.refusal f.th.acc)).isNone && !r.2.accessWaits f.th.acc r.1 &&
      (r.2.storeBlock f.th.acc r.1).isNone && (r.1.find? (r.2.held f.th.acc)).isNone && okO (r.1.find? (r.2.postedPiece f.th.acc)) (fun q => r.2.pkgLive q.pkg &&
        f.th.flow.heldReads.find? (fun h => h.pa == q.pa && h.n == 64) == some ⟨3 * 2 ^ 48 + 0x50400, 64, 9, 0, some (.done, [])⟩)) = true ∧
    (∀ x ∈ [sp 0x30420 0x30800 0x30004, sp 0x30400 0x30A00 0x30004, sp 0x30400 0x30800 0x30002, sp 0x60000 0x30800 0x30004, p],
      Issues (.spawn k1 3 4 5 1) x) ∧
    errE (base.pieces base.th.acc .write 0x60000 64) = true ∧
    okE (p.pieces p.th.acc .write 0x30400 64) (fun r => (r.1.findSome? (r.2.refusal p.th.acc)).isSome) = true ∧
    Issues (.exit k1) base ∧ base.memberOf base.th.tid = none := by
  unfold Issues; decide +kernel

/-- A record on an XT page: the larder takes it, holds it, has had it refused, and has made it. -/
theorem test_witness_ThreadInstructions_held :
    let s := withG (page part 9 (2 ^ 63)) [(3, 0x30800), (4, 0x90400), (5, 0x30004)]
    let asked : State := { s with ms := { s.ms with larder := [⟨0, 1, 1, 0, 1, 0x90400, 0x30400, [], 9, some s.th.who, none, true, none, false⟩] } }
    let ended (x : Option Trap) : State := { s with st := { s.st with pendSpawn := [(s.th.who, 0x90400, x)] } }
    let at_ (u : State) (f : State → Piece → Bool) : Prop := Issues (.spawn k1 3 4 5 1) u ∧ (u.th.gr 4).toNat % 64 = 0 ∧
      (u.th.gr 3).toNat % 1024 = 0 ∧ (u.th.gr 5).toNat % 4 = 0 ∧ u.mayRelease u.th = true ∧
      okE (u.pieces u.th.acc .write (u.th.gr 4) 64) (fun r => (r.1.findSome? (r.2.refusal u.th.acc)).isNone && !r.2.accessWaits u.th.acc r.1 &&
        okO (r.1.find? (r.2.held u.th.acc)) (f r.2)) = true
    let mine (u : State) : Option ((Nat × Word) × Word × Option Trap) := u.st.pendSpawn.find? (fun x => x.1 == u.th.who && x.2.1 == u.th.gr 4)
    let inside (u : State) : Bool := u.ms.larder.any (fun l => l.spawn && l.who == some u.th.who && l.va == u.th.gr 4)
    at_ s (fun u q => (mine u).isNone && !inside u && u.larderFits u.th.acc [q]) ∧ at_ asked (fun u _ => (mine u).isNone && inside u) ∧
    at_ (ended (some ⟨.domain, 0, 0x90400⟩)) (fun u _ => okO (mine u) (·.2.2.isSome)) ∧
    at_ (ended none) (fun u _ => okO (mine u) (fun x => x.2.2.isNone &&
      steps (State.enqueue { u with st := { u.st with pendSpawn := u.st.pendSpawn.erase x } } ⟨dieOf u.th.tile, u.th.dom, 1, u.th.gr 4⟩))) := by
  unfold Issues; decide +kernel

/-- A load or store whose pieces, budget and cellar let it go. -/
def accessOk (s : State) (k : AccKind) (ea : Word) (n : Nat) (ord : Bool) : Bool :=
  okE (s.pieces s.th.acc k ea n ord) (fun r => !r.2.accessWaits s.th.acc r.1 && (r.2.storeBlock s.th.acc r.1).isNone &&
    r.1.all (fun p => (r.2.refusal s.th.acc p).isNone) && r.2.irrFirst.isNone && (let l := loadPieces s.th.acc r.1 r.2
      l.2.2.1.isNone && l.2.2.2.th.loopStep.pc == l.2.2.2.th.pc + 4))
/-- A thread behind an acquire whose value has not come. -/
def acquiring (s : State) : State := withF s (fun f => { f with outs := [⟨7, [], .parts [.wait 1 0 8 0 0] (.scalar 3 0), none, 2⟩] })
/-- LDA at its alignment's edges: 0x3FFF8 is the last doubleword of the page, 0x3FFFC is misaligned; 0x40000 is not mapped; an
address that crosses the page's end faults. -/
theorem test_witness_LoadsComplete :
    let s := withG base [(4, 0x3FFF8)]
    let u := withG base [(4, 0x3FFFC)]
    let v := withG base [(4, 0x40000)]
    Issues (.ld k1 3 4 3 0) s ∧ Issues (.ldx k1 3 4 3 5) s ∧ Issues (.lda k1 3 4 3 0 0) s ∧ (s.th.gr 4).toNat % szBytes 3 = 0 ∧
    accessOk s .read 0x3FFF8 8 false = true ∧ accessOk s .read 0x3FFF8 8 true = true ∧ s.th.countsBy 3 = false ∧
    (let c := withT s (fun t => { t with lps := 0x2FFFC, lp0 := ⟨true, 3, 0, 1⟩ })
     Issues (.ld k1 3 4 3 0) c ∧ c.th.countsBy 3 = true) ∧
    (let q := acquiring s
     Issues (.ld k1 3 4 3 0) q ∧ q.th.countsBy 3 = false ∧ okE (q.pieces q.th.acc .read 0x3FFF8 8) (fun r => r.2.accessWaits q.th.acc r.1) = true) ∧
    Issues (.lda k1 3 4 3 0 0) u ∧ (u.th.gr 4).toNat % szBytes 3 ≠ 0 ∧ Issues (.ld k1 3 4 3 0) v ∧
    errE (v.pieces v.th.acc .read 0x40000 8) = true ∧ errE (u.pieces u.th.acc .read 0x3FFFC 8) = true := by
  unfold Issues; decide +kernel
/-- A load across two lines of an SO page while a line is pinned is read in turn: with the pin elsewhere, on one of its lines, which
defers that read, on a page homed on another package, and on one that is not there. -/
theorem test_witness_LoadsComplete_turns :
    let s (l : Nat) : State := let u := withG (page (farPage base) 9 (2 ^ 56)) [(4, 0x900BC)]
      { u with ms := { u.ms with pins := [⟨l, 5, none, 0, 0, 0, false, false, false⟩] } }
    let far (p : Plat) : State :=
      { base with ms := { base.ms with tlb := ⟨0, 0, 8, 16, 2 ^ 56 + 3 * 2 ^ 48 + 0x50000 + 0xEF, 0⟩ :: base.ms.tlb }, pl := p }
    let turn (u : State) (va : Word) (f : State → Held → Bool) : Bool := okE (u.pieces u.th.acc .read va 8) (fun r =>
      !u.th.countsBy 3 && !r.2.accessWaits u.th.acc r.1 && r.2.inTurn r.1 && f r.2 (r.2.heldInTurn u.th.acc r.1))
    (∀ l ∈ [0x30000, 0x300C0, 0x30300], Issues (.ld k1 3 4 3 0) (s l)) ∧
    (∀ p ∈ [base.pl, (farPage base).pl], Issues (.ld k1 3 4 3 0) (withG (far p) [(4, 0x800FC)])) ∧
    turn (s 0x30300) 0x900BC (fun _ h => okH h (fun bs u => steps (u.await ⟨3, [], .parts [.have bs] (.scalar 3 0), none, 1⟩))) = true ∧
    turn (far base.pl) 0x800FC (fun u h => (match h with | .trap x => steps (u.await ⟨3, [], .parts [.have []] (.scalar 3 0), some x, 1⟩) | _ => false)) = true ∧
    (∀ l ∈ [0x30000, 0x300C0], turn (s l) 0x900BC (fun _ h => match h with | .hold _ => true | _ => false) = true) ∧
    turn (far (farPage base).pl) 0x800FC (fun _ h => match h with | .hold _ => true | _ => false) = true := by
  unfold Issues; decide +kernel
theorem test_witness_StoresComplete :
    let s := withG base [(4, 0x3FFF8)]
    let u := withG base [(4, 0x3FFFC)]
    let w := withF s (fun f => { f with outs := [⟨7, [], .parts [.wait 1 0 8 0 0] (.scalar 3 0), none, 0⟩] })
    Issues (.st k1 3 4 3 0) s ∧ Issues (.stx k1 3 4 3 5) s ∧ Issues (.strel k1 3 4 3 0 0) s ∧ s.mayRelease s.th = true ∧
    accessOk s .write 0x3FFF8 8 false = true ∧ accessOk s .write 0x3FFF8 8 true = true ∧
    (let q := acquiring s
     Issues (.st k1 3 4 3 0) q ∧ okE (q.pieces q.th.acc .write 0x3FFF8 8) (fun r => r.2.accessWaits q.th.acc r.1) = true) ∧
    Issues (.strel k1 3 4 3 0 0) w ∧ w.mayRelease w.th = false ∧ okE (w.pieces w.th.acc .write 0x3FFF8 8 true) (fun _ => true) = true ∧
    Issues (.strel k1 3 4 3 0 0) u ∧ (u.th.gr 4).toNat % szBytes 3 ≠ 0 ∧
    errE ((withG base [(4, 0x40000)]).pieces base.th.acc .write 0x40000 8) = true ∧
    NoStepBack (.st k1 3 4 3 0) s s := by
  unfold Issues NoStepBack; decide +kernel
theorem test_witness_StoreFrame :
    let p : Piece := ⟨0x30000, 0x30000, 8, 0⟩
    let h : Piece := ⟨0x30000, Config.hostSpace, 8, 0⟩
    Canonical base ∧ Sole base ∧ base.th.tid = base.th.acc.tid ∧ p.pkg = base.me ∧ base.nodeOf base.th.acc.dom = none ∧
    regionOf p.off = .dram ∧ lineOf p.off = some 0x30000 ∧ base.pinOfHome 0x30000 = none ∧ (∀ w ∈ base.ms.waits, w.line ≠ 0x30000) ∧
    h.pkg = base.me ∧ regionOf h.off = .host ∧ base.ms.waits = [] ∧ base.held base.th.acc p = false ∧ base.held base.th.acc h = false ∧
    (match base.tagged 0 0x30000 (base.storeRin base.th.acc p) 0x30000 (base.memberOf 0).isSome with | .ok _ => true | _ => false) = true := by
  unfold Canonical Sole; decide +kernel
/-- A store of group work, whose line goes to the cellar. -/
theorem test_witness_StoreFrame_tagged :
    let p : Piece := ⟨0x30000, 0x30000, 8, 0xEF⟩
    let s := part.setRgs 1 { Rgs.reset with ccap := 8 }
    Canonical s ∧ Sole s ∧ s.th.tid = s.th.acc.tid ∧ p.pkg = s.me ∧ s.nodeOf s.th.dom = some 1 ∧ s.held s.th.acc p = false ∧
    s.storeRin s.th.acc p = 1 ∧ s.pinOfHome 0x30000 = none ∧ s.ms.waits = [] ∧
    (match s.tagged 1 0x30000 1 0x30000 (s.memberOf 0).isSome with | .ok u => u.ms.cellar.length == 1 | _ => false) = true := by
  unfold Canonical Sole; decide +kernel
/-- Banks 0 and 1 hold scratch, the others cache; the last bytes of SRAM, and one past them. -/
def loc (e : Nat) : State := withG part [(4, e)]
theorem test_witness_LocalAccesses :
    (∀ e ∈ [0, 0x2FFF8], (loc e).localCheck (loc e).th e 8 e = .ok ∧ Issues (.ldl k1 3 4 3 0) (loc e) ∧ Issues (.stl k1 3 4 3 0) (loc e) ∧
      (loc e).matrixReads (loc e).th e 8 = false ∧ (loc e).th.ordered 2 = false ∧ NoStepBack (.ldl k1 3 4 3 0) (loc e) (loc e)) ∧
    Issues (.ldl k1 3 4 3 0) (loc 0x17FFF9) ∧ Config.sramSize < 0x17FFF9 + 8 ∧ ¬ Config.sramSize < 0x17FFF8 + 8 ∧
    (loc 0).localCheck { (loc 0).th with dom := 2 } 0 8 0 = .trap ⟨.domain, 0, 0⟩ ∧ base.localCheck base.th 8 8 8 = .trap ⟨.domain, 0, 8⟩ ∧
    (let m := withF (loc 0x100) (fun f => { f with mq := [⟨.mscl 0 0x100 1, 0, 0, 0⟩] })
     Issues (.stl k1 3 4 3 0) m ∧ m.localCheck m.th 0x100 8 0x100 = .ok ∧ m.matrixReads m.th 0x100 8 = true) ∧
    Issues (.ldl k1 3 4 3 0) (withG base [(4, 8)]) ∧ part.bankGranted part.th.tile 2 0 = false ∧ (part.th.oob = 0) ∧
    ((part.th.outOfRange 0x180000).oob.toNat / 2 ^ 63 % 2 = 1) := by
  unfold Issues NoStepBack; decide +kernel
theorem test_witness_BlockMoves :
    let s := withG base [(3, 0x3FFFF), (4, 0xAB), (5, 1)]
    base.th.gr 5 = 0 ∧ Issues (.bmov k1 3 4 5) base ∧ NoStepBack (.bmov k1 3 4 5) base base ∧ Issues (.bfill k1 3 4 5) base ∧
    NoStepBack (.bfill k1 3 4 5) base base ∧ Issues (.bfill k1 3 4 5) s ∧ s.th.gr 5 ≠ 0 ∧ accessOk s .write 0x3FFFF 1 false = true ∧
    (let m := withG base [(3, 0x3FFFF), (4, 0x30000), (5, 1)]
     Issues (.bmov k1 3 4 5) m ∧ okH (m.ldHeld m.th.acc .read 0x30000 1) (fun _ u => accessOk u .write 0x3FFFF 1 false) = true) ∧
    (let x := withG base [(3, 0x60000), (4, 0x30000), (5, 1)]
     Issues (.bmov k1 3 4 5) x ∧ Issues (.bfill k1 3 4 5) x ∧ errE (x.pieces x.th.acc .write 0x60000 1) = true ∧
     okH (x.ldHeld x.th.acc .read 0x30000 1) (fun _ u => errE (u.pieces u.th.acc .write 0x60000 1)) = true) ∧
    (let x := withG base [(3, 0x30000), (4, 0x60000), (5, 1)]
     Issues (.bmov k1 3 4 5) x ∧ (match x.ldHeld x.th.acc .read 0x60000 1 with | .trap _ => true | _ => false) = true) := by
  unfold Issues NoStepBack; decide +kernel
theorem test_witness_ScalarLoadResults :
    let s := withF base (fun f => { f with outs := [⟨3, [], .parts [.have [0x80]] (.scalar 4 0), none, 0⟩] })
    s.th.flow.outs = [⟨3, [], .parts [.have [0x80]] (.scalar 4 0), none, 0⟩] ∧ (3 : Reg) ≠ 0 ∧ (4 : Reg) ≠ 3 := by decide +kernel

def atomicOk (s : State) (a : Nat) (n : Nat) (f : AOp) (y c : Nat) : Bool :=
  okE (s.atomicPieces s.th.acc (BitVec.ofNat 64 a) n false) (fun r => !r.2.accessWaits s.th.acc r.1 && (r.2.storeBlock s.th.acc r.1).isNone &&
    (match r.1 with
      | [p] => p.pkg == r.2.me && (r.2.refusal s.th.acc p).isNone &&
          okE (r.2.atomicPiece s.th.acc p (fun v => f.eval n v y c)) (fun x => x.2.th.loopStep.pc == x.2.th.pc + 4)
      | _ => false))
/-- One on a pinned line, and one on another package. -/
def atomicElse (s : State) (a : Nat) (far : Bool) : Bool :=
  okE (s.atomicPieces s.th.acc (BitVec.ofNat 64 a) 8 false) (fun r => !r.2.accessWaits s.th.acc r.1 && (r.2.storeBlock s.th.acc r.1).isNone &&
    (match r.1 with
      | [p] => if far then p.pkg != r.2.me && (r.2.pinOfFar p.pa).isNone && r.2.pkgLive p.pkg
               else p.pkg == r.2.me && (r.2.refusal s.th.acc p).isSome
      | _ => false))
theorem test_witness_AtomicsComplete :
    let s := withG base [(4, 0x3FFF8), (5, 7)]
    let w := withG base [(4, 0x3FFFC), (5, 7)]
    let o := withF s (fun f => { f with outs := [⟨7, [], .parts [.wait 1 0 8 0 0] (.scalar 3 0), none, 0⟩] })
    let p : State := { s with ms := { s.ms with pins := [⟨0x3FFF8 / 192 * 192, 5, none, 0, 0, 0, false, false, false⟩] } }
    let f := farPage (withG base [(4, 0x50400), (5, 7)])
    (∀ i ∈ [Instr.aadd k1 3 4 5 2 0 0, .aand k1 3 4 5 2 0 0, .aor k1 3 4 5 2 0 0, .axor k1 3 4 5 2 0 0, .aswp k1 3 4 5 2 0 0,
      .amin k1 3 4 5 2 0 0 1, .amax k1 3 4 5 2 0 0 0, .acas k1 3 4 5 2 0 0, .afadd k1 3 4 5 2 0], Issues i s ∧ Issues i p ∧ Issues i f ∧ Issues i o) ∧
    (∀ f ∈ [AOp.add, .and, .or, .xor, .swp, .min true, .max false, .cas], atomicOk s 0x3FFF8 8 f 7 0 = true) ∧
    atomicOk w 0x3FFFC 4 .fadd 7 0 = true ∧ s.th.countsBy 3 = false ∧ s.mayRelease s.th = true ∧
    atomicElse p 0x3FFF8 false = true ∧ atomicElse f 0x50400 true = true ∧ (f.th.gr 4).toNat % 8 = 0 ∧ o.mayRelease o.th = false ∧
    okE (o.atomicPieces o.th.acc 0x3FFF8 8 false) (fun _ => true) = true ∧ bitOf (2 : BitVec 2).toNat 1 = true ∧
    Issues (.aadd k1 3 4 5 2 0 0) w ∧ (w.th.gr 4).toNat % 8 ≠ 0 ∧ lineOf 0x30000 = some 0x30000 ∧ base.pinOfHome 0x30000 = none ∧
    (match base.tagged 0 0x30000 (base.storeRin base.th.acc ⟨0x30000, 0x30000, 8, 0⟩) 0x30000 ((base.memberOf 0).isSome || base.th.acc.who.isNone) with
      | .ok _ => true | _ => false) = true ∧ Issues (.aadd k1 0 4 5 0 0 0) f ∧ bitOf (0 : BitVec 2).toNat 0 = false ∧
    base.ms.waits = [] ∧ okE (base.atomicPiece base.th.acc ⟨0x30000, 0x30000, 8, 0⟩ (fun v => AOp.add.eval 8 v 7 0)) (fun _ => true) = true := by
  unfold Issues; decide +kernel
/-- A flagged store is made. -/
def flagOk (s : State) (dst n flag : Nat) (bs : List Byte) : Bool :=
  okE (s.flagChecks (BitVec.ofNat 64 dst) n (BitVec.ofNat 64 flag)) (fun r => r.2.2.irrFirst.isNone &&
    !r.2.2.accessWaits r.2.2.th.acc (r.1 ++ r.2.1) && (r.2.2.storeBlock r.2.2.th.acc (r.1 ++ r.2.1)).isNone && match r.2.2.flagged r.1 r.2.1 bs with
    | .ok e => e.th.loopStep.pc == e.th.pc + 4
    | _ => false)
/-- FBLK of g3, g4, g8, g9 is made, or waits. -/
def blkOk (s : State) (go : Bool) : Bool :=
  okE (s.flagChecks (s.th.gr 3) (s.th.gr 9).toNat (s.th.gr 8) (some (s.th.gr 4))) (fun r =>
    okH (r.2.2.ldHeld s.th.acc .read (s.th.gr 4) (s.th.gr 9).toNat) (fun bs u => u.irrFirst.isNone &&
      u.accessWaits u.th.acc (r.1 ++ r.2.1) != go && (!go || ((u.storeBlock u.th.acc (r.1 ++ r.2.1)).isNone && match u.flagged r.1 r.2.1 bs true with
        | .ok e => steps e
        | _ => false))))
theorem test_witness_FlaggedStores :
    let s := withG base [(3, 5), (4, 0x30100), (5, 0x30208)]
    let v := withG base [(3, 0x30100), (4, 0x30140), (8, 0x30208), (9, 16)]
    Issues (.fst k1 3 4 5 3) s ∧ (s.th.gr 4).toNat % 8 = 0 ∧ (s.th.gr 5).toNat % 8 = 0 ∧ flagOk s 0x30100 8 0x30208 (leBytes 8 5) = true ∧
    (let q := acquiring s
     Issues (.fst k1 3 4 5 3) q ∧ okE (q.flagChecks 0x30100 8 0x30208) (fun r => r.2.2.irrFirst.isNone && r.2.2.accessWaits r.2.2.th.acc (r.1 ++ r.2.1)) = true) ∧
    Issues (.fst k1 3 4 5 3) (withG base [(4, 0x30104)]) ∧ Issues (.fst k1 3 4 5 3) (withG base [(4, 0x30100), (5, 0x30204)]) ∧
    (let q := withG base [(4, 0x30100), (5, 0x60000)]
     Issues (.fst k1 3 4 5 3) q ∧ errE (q.flagChecks 0x30100 8 0x60000) = true) ∧
    Issues (.fblk k1 3 4 8) v ∧ (v.th.gr 9).toNat ≤ 0x100000 ∧ (v.th.gr 8).toNat % 8 = 0 ∧ blkOk v true = true ∧
    (let q := withF (withG (page v 9 (2 ^ 56)) [(3, 0x90100)]) (fun f => { f with outs := [⟨7, [], .parts [.wait 1 0 8 0 0] (.scalar 3 0), none, 1⟩] })
     Issues (.fblk k1 3 4 8) q ∧ blkOk q false = true) ∧
    (∀ f ∈ [0x3020C, 0x60000], Issues (.fblk k1 3 4 8) (withG v [(8, f)])) ∧ errE (v.flagChecks 0x30100 16 0x60000 (some 0x30140)) = true ∧
    (let q : State := withG { base with ms := { base.ms with tlb := ⟨0, 0, 8, 16, 3 * 2 ^ 48 + 0x50000 + 0xEF, 0⟩ :: base.ms.tlb } }
       [(3, 0x30100), (4, 0x80000), (8, 0x30208), (9, 16)]
     Issues (.fblk k1 3 4 8) q ∧ okE (q.flagChecks 0x30100 16 0x30208 (some 0x80000)) (fun r =>
       match r.2.2.ldHeld q.th.acc .read 0x80000 16 with | .trap _ => true | _ => false) = true) ∧
    Issues (.fblk k1 3 4 8) (withG base [(9, 0x100001)]) ∧ 0x100000 < ((withG base [(9, 0x100001)]).th.gr 9).toNat := by
  unfold Issues; decide +kernel
theorem test_witness_Fences :
    let w := withF base (fun f => { f with outs := [⟨7, [], .parts [.wait 1 0 8 0 0] (.scalar 3 0), none, 0⟩] })
    let d : State := { w with ms := { w.ms with defer := [⟨0, 8, 1, 0, none, 0⟩] } }
    (∀ k ∈ [(0 : BitVec 5), 1, 2], Issues (.fence k1 k 0) base ∧ NoStepBack (.fence k1 k 0) base base ∧ Issues (.fence k1 k 0) w) ∧
    (∀ b ∈ [false, true], let a : State := { base with pl := { base.pl with posted := [{ Posted.of 9 0 0 (3 * 2 ^ 48) false 0 with atom := b }] } }
      Issues (.fence k1 1 0) a ∧ (a.th.loadsDone && !a.pl.posted.any (fun p => p.tid == a.th.tid && p.atom)) = !b) ∧
    base.th.loadsDone = true ∧ base.mayRelease base.th = true ∧ w.th.loadsDone = false ∧ w.mayRelease w.th = false ∧
    Issues (.lbfence k1) base ∧ NoStepBack (.lbfence k1) base base ∧ base.localReads base.th = false ∧
    Issues (.lbfence k1) d ∧ d.localReads d.th = true := by
  unfold Issues NoStepBack; decide +kernel

/-- Handlers at 0x40000 (S, of function 1) and 0x50000 (H). -/
def vec (s : State) : State := { s with st := { s.st with htvec := 0x50000, cfgs := [(1, { VfCfg.reset with svec := 0x40000 })] } }
def busyS (s : State) : State := withT s (fun t => { t with sb := { t.sb with estat := 4 } })
def busyH (s : State) : State := withT s (fun t => { t with hb := { t.hb with estat := 4 } })
theorem test_witness_TakingAnException :
    Sole (vec part) ∧ (vec part).redirect (vec part).th ⟨.align, 0, 7⟩ = .ok (⟨.align, 0, 7⟩, .s) ∧ (vec part).th.flow.outs = [] := by
  unfold Sole; decide +kernel
theorem test_witness_TrapRedirection :
    let s := vec part
    let n : State := { part with st := { part.st with htvec := 0x50000 } }
    Cause.target .align s.th.priv = .s ∧ s.th.busy .s = false ∧ s.tvec .s s.th.dom ≠ 0 ∧
    (busyS s).th.busy .s = true ∧ (busyS s).th.busy .h = false ∧ (busyS s).tvec .h s.th.dom ≠ 0 ∧
    n.th.busy .s = false ∧ n.tvec .s n.th.dom = 0 ∧ n.th.busy .h = false ∧ n.tvec .h n.th.dom ≠ 0 ∧
    Cause.target .domain (busyH s).th.priv = .h ∧ (busyH s).th.busy .h = true := by decide +kernel
theorem test_witness_PrivilegeTraps :
    (Instr.halt k1).isWord = true ∧ (formOf (.halt k1)).major < 0x70 ∧ groupError (formOf (.halt k1)) part.th.hints 0 = none ∧
    part.th.transientBad (.halt k1) = false ∧ privRank part.th.priv < privRank (formOf (.halt k1)).priv := by decide +kernel
def bankH (epc estat : Nat) : State := withT base (fun t => { t with hb := ⟨BitVec.ofNat 64 epc, BitVec.ofNat 64 estat, 0, 0, 0⟩ })
def bankS (epc estat : Nat) : State := withT part (fun t => { t with sb := ⟨BitVec.ofNat 64 epc, BitVec.ofNat 64 estat, 0, 0, 0⟩ })
theorem test_witness_SystemCallsAndReturns :
    base.th.flow.chain = none ∧ Issues (.trap k1 5) base ∧ Issues (.svc k1 5) part ∧ part.th.priv ≠ .h ∧ Issues (.svc k1 5) base ∧ base.th.priv = .h ∧
    (∀ e ∈ [0, 1, 2], Issues (.eret k1) (bankH 0x30004 (4 + e)) ∧ ((bankH 0x30004 (4 + e)).th.bank .h).estat.toNat % 4 ≤ privRank .h) ∧
    ((bankH 0x30004 6).th.bank .h).epc.toNat % 4 = 0 ∧ Issues (.eret k1) (bankH 0x30004 7) ∧ ((bankH 0x30004 7).th.bank .h).estat.toNat % 4 = 3 ∧
    Issues (.eret k1) (bankS 0x30004 6) ∧ privRank .s < ((bankS 0x30004 6).th.bank .s).estat.toNat % 4 ∧
    Issues (.eret k1) (bankH 0x30002 6) ∧ ((bankH 0x30002 6).th.bank .h).epc.toNat % 4 ≠ 0 ∧ Issues (.halt k1) base := by
  unfold Issues; decide +kernel

/-- A compact of one member on tile 0, whose thread is the issuing one, in superstep 1. -/
def mem0 : Member := ⟨0, 0, 0, none, [], [[⟨8, 0, 0, 0, 64, false, 0, 0⟩]], 0, false, none, false, false, []⟩
def comp (mb : Member) (ss : Nat) : Compact := ⟨0x30400, 1, 1, 0, [(0, [])], [mb], ss, [], [], false, 0, 0, 1, false⟩
def signed (mb : Member) (ss : Nat) : State := { part with eng := { part.eng with compacts := [(5, comp mb ss)] } }
theorem test_witness_Compacts :
    let s := signed mem0 1
    Issues (.sync k1 1 4 2) s ∧ s.memberThread s.th = some (5, comp mem0 1, mem0) ∧ s.th.gst 1 ≠ .pend ∧
    Issues (.exch k1) s ∧ NoStepBack (.exch k1) s s ∧ mem0.exchDone = false ∧ (comp mem0 1).superstep ≠ 0 := by
  unfold Issues NoStepBack; decide +kernel
/-- A second EXCH of a superstep, and one before the first. -/
theorem test_witness_Compacts_exch : ∀ p ∈ [({ mem0 with exchDone := true }, 1), (mem0, 0)], let s := signed p.1 p.2
    Issues (.exch k1) s ∧ s.memberThread s.th = some (5, comp p.1 p.2, p.1) ∧ (p.1.exchDone = true ∨ (comp p.1 p.2).superstep = 0) := by
  unfold Issues; decide +kernel
theorem test_witness_Compacts_dissolve :
    let s := signed mem0 1
    let d := withF s (fun f => { f with synced := true })
    let e := withF s (fun f => { f with ddone := true })
    Issues (.dissolve k1) d ∧ d.th.flow.ddone = false ∧ mem0.dissolving = false ∧ d.th.flow.synced = true ∧
    d.memberThread d.th = some (5, comp mem0 1, mem0) ∧ Issues (.dissolve k1) e ∧ e.th.flow.ddone = true ∧ NoStepBack (.dissolve k1) e e ∧
    part.memberThread part.th = none ∧ part.th.flow.ddone = false ∧ Issues (.sync k1 1 4 2) part ∧ Issues (.exch k1) part ∧
    Issues (.dissolve k1) part ∧ Issues (.sign k1 4) (withG part [(4, 0x30420)]) := by
  unfold Issues NoStepBack; decide +kernel
/-- A SYNC whose guard was pending before, and the same SYNC once it has voted; a DISSOLVE that has arrived, and one after no SYNC. -/
theorem test_witness_Compacts_again :
    let s := signed mem0 1
    let p := withT s (·.setGuard 1 .pend)
    let again := withT (signed { mem0 with vote := some (0, 2, s.th.resultTag 1) } 1) (·.setGuard 1 .pend)
    let l := withF (signed { mem0 with dissolving := true } 1) (fun f => { f with synced := true })
    Issues (.sync k1 1 4 2) p ∧ p.th.gst 1 = .pend ∧ mem0.vote.isNone = true ∧
    Issues (.sync k1 1 4 2) again ∧ (again.memberThread again.th).any (fun m => m.2.2.vote.map (·.2.2) == some (again.th.resultTag 1)) = true ∧
    Issues (.dissolve k1) l ∧ (l.memberThread l.th).any (·.2.2.dissolving) = true ∧ Issues (.dissolve k1) s ∧ s.th.flow.synced = false := by
  unfold Issues; decide +kernel
/-- A record of one member at 0x30400 on tile 0 of node 1, with no range or one of a line with its home at `home`, its plan at 0x30800 of one empty variant. -/
def signable (ranges home : Nat) : State :=
  let w (a x : Nat) (s : State) : State := withM s a (leBytes 8 x)
  withG (w 0x30440 (ranges * 2 ^ 15) (w 0x30460 home (w 0x30468 1 (w 0x30800 1 (w 0x30448 0x30800 (w 0x30400 (5 * 2 ^ 32 + 2 ^ 16 + 1) part)))))) [(4, 0x30400)]
/-- The hypotheses of SIGN's completion, in turn; of the illegal state that is left after the pins; of a check that fails. -/
def signOk (s : State) (bad ill : Bool) : Bool :=
  let t := s.th
  let r := t.gr 4
  okH (s.ldAll t.acc [(r, 64)]) (fun h s1 =>
    okH (s1.ldAll t.acc [(r, 64 + 288 * Nat.min (bits (wordAt h 0) 15 0) 24576)]) (fun bs s2 =>
      okO ((List.range (Nat.min (bits (wordAt h 0) 15 0) 24576)).find? (fun i =>
        match s2.coordOf (bits (wordAt bs 0) 25 16) (bits (wordAt (memberBytes bs i) 0) 14 0) with
        | some (k, p, x) => k ≤ 1 && p == s2.me && x == t.tile
        | none => false)) (fun i =>
        let plan := BitVec.ofNat 64 (wordAt (memberBytes bs i) 1)
        okH (s2.ldAll t.acc [(plan, 64)]) (fun ph s3 =>
          okH (s3.ldAll t.acc (match planCounts ph with
            | some ns => (List.range ns.length).map (fun v => (plan + BitVec.ofNat 64 (64 + 8192 * v), 32 * ns.getD v 0))
            | none => [])) (fun tb s4 =>
            match s4.signChecks t r bs (ph ++ tb) with
            | .error _ => bad && !s4.th.flow.heldReads.any (·.n == 0)
            | .ok (x, s5) =>
              let far := x.lines.filter (fun l => l.piece.pkg != s5.me && regionOf l.piece.off == .dram && s5.pkgLive l.piece.pkg)
              let fb := far.flatMap (fun l => ((((s5.th.pinAsked l).bind (·.reply)).map (·.2)).getD []).take 192)
              !bad && far.isEmpty && !s5.th.flow.heldReads.any (·.n == 0) && x.ill.isSome == ill && (ill || steps (s5.signed s5.th r x fb)))))))
theorem test_witness_Compacts_sign :
    (∀ p ∈ [(0, 0), (1, 0x60000), (1, 8)], let s := signable p.1 p.2
      Issues (.sign k1 4) s ∧ (s.th.gr 4).toNat % 64 = 0 ∧ s.th.pinsPending = false) ∧ signOk (signable 0 0) false false = true ∧
    signOk (signable 1 0x60000) true false = true ∧ signOk (signable 1 8) false true = true := by
  unfold Issues; decide +kernel
theorem test_witness_WaitsAndWakes :
    let s := withG base [(4, 0x3FFF8), (5, 0)]
    let n := withG base [(4, 0x3FFF8), (5, 1)]
    let u := withG base [(4, 0x3FFFC)]
    let gang := withT base (fun t => { t with info := { t.info with kind := 1, gang := 1, gsize := 1 } })
    let gd := withF gang (fun f => { f with gdone := true })
    let sw := withT s (fun t => { t with status := .waiting })
    Issues (.gbar k1) gd ∧ gd.th.flow.gdone = true ∧ gang.th.flow.gdone = false ∧ base.th.flow.gdone = false ∧
    Issues (.waita k1 4 5 1) sw ∧ okH (sw.ldHeld sw.th.acc .read 0x3FFF8 8) (fun _ e => e.th.status == .waiting) = true ∧
    Issues (.gbar k1) gang ∧ gang.th.info.kind = 1 ∧ Issues (.gbar k1) base ∧ base.th.info.kind ≠ 1 ∧
    Issues (.waita k1 4 5 1) s ∧ Issues (.waita k1 4 5 1) n ∧ (s.th.gr 4).toNat % 8 = 0 ∧
    okE (s.pieces s.th.acc .read (s.th.gr 4) 8 true) (fun _ => true) = true ∧
    okH (s.ldHeld s.th.acc .read (s.th.gr 4) 8) (fun bs e => waitCond 1 (BitVec.ofNat 64 (leNat bs)) (s.th.gr 5) &&
      !waitCond 1 (BitVec.ofNat 64 (leNat bs)) (n.th.gr 5) && e.th.status != .waiting && e.th.loopStep.pc == e.th.pc + 4) = true ∧
    Issues (.wake k1 4) s ∧ okE (s.pieces s.th.acc .read (s.th.gr 4) 8) (fun r => r.1.length == 1 &&
      r.1.all (fun p => p.pkg == r.2.me && (r.2.wakeLine (waitLine p.off)).th.loopStep.pc == s.th.pc + 4)) = true ∧
    Issues (.waita k1 4 5 1) u ∧ Issues (.wake k1 4) u ∧ (u.th.gr 4).toNat % 8 ≠ 0 := by
  unfold Issues; decide +kernel
def pkt (n : Nat) : State := withF base (fun f => { f with packet := some ⟨0, List.replicate n 0, 1⟩ })
def egr (n : Nat) : State := withF (withG part [(4, 1)]) (fun f => { f with egress := List.replicate n ⟨0, [0], 1⟩ })
/-- The 64th beat and the one after it; three and four unaccepted packets. -/
theorem test_witness_Packets :
    let r := withTile part (fun t => { t with rxq := [[⟨7, 1⟩], [], [], []] })
    Issues (.send k1 0 5) (pkt 63) ∧ (∃ p, (pkt 63).th.addBeat 0 5 0 = some p) ∧ NoStepBack (.send k1 0 5) (pkt 63) (pkt 64) ∧
    Issues (.send k1 0 5) (pkt 64) ∧ (pkt 64).th.addBeat 0 5 0 = none ∧
    Issues (.sende k1 1 4 5) (egr 3) ∧ (∃ p, (egr 3).th.addBeat 4 5 1 = some p) ∧ (egr 3).unaccepted (egr 3).th < 4 ∧
    (egr 3).mayRelease (egr 3).th = true ∧ NoStepBack (.sende k1 1 4 5) (egr 3) (egr 4) ∧
    Issues (.sende k1 1 4 5) (egr 4) ∧ (∃ p, (egr 4).th.addBeat 4 5 1 = some p) ∧ 4 ≤ (egr 4).unaccepted (egr 4).th ∧
    Issues (.sende k1 1 4 5) (pkt 64) ∧ (pkt 64).th.addBeat 4 5 ((pkt 64).th.resultTag 1) = none ∧
    Issues (.recv k1 4 5 1) r ∧ (r.tile r.th.tile).dp? r.th.dom = some (0, dp1 1) ∧ (r.tile r.th.tile).rxq.getD 0 [] = [⟨7, 1⟩] ∧
    NoStepBack (.recv k1 4 5 1) r r ∧ Issues (.recv k1 4 5 0) part ∧ Issues (.recv k1 4 5 1) part ∧
    (part.tile part.th.tile).rxq.getD 0 [] = [] ∧ NoStepBack (.recv k1 4 5 0) part part := by
  unfold Issues NoStepBack
  refine ⟨by decide +kernel, ⟨_, rfl⟩, by decide +kernel, by decide +kernel, by decide +kernel, by decide +kernel, ⟨_, rfl⟩, by decide +kernel,
    by decide +kernel, by decide +kernel, by decide +kernel, ⟨_, rfl⟩, ?_⟩
  decide +kernel
theorem test_witness_Guards :
    (∀ v ∈ [Guard.tru, .fls], (q1 v).th.gst 1 ≠ .pend ∧ Issues (.gset k1 1 4) (q1 v) ∧ NoStepBack (.gset k1 1 4) (q1 v) (q1 v) ∧
      Issues (.gwait k1 1) (q1 v) ∧ (q1 v).th.status ≠ .waiting ∧
      (let w := withT (q1 v) (fun t => { t with status := .waiting })
       w.th.gst 1 ≠ .pend ∧ Issues (.gwait k1 1) w ∧ w.th.status = .waiting ∧ NoStepBack (.gwait k1 1) w w)) ∧
    (q1 .pend).th.gst 1 = .pend ∧ Issues (.gset k1 1 4) (q1 .pend) ∧ Issues (.gwait k1 1) (q1 .pend) ∧
    base.th.guards.length = 7 ∧ (1 ≤ 7 ∧ 7 ≤ 7) ∧ Issues (.gwait k1 0) base ∧ base.th.gst 0 = .tru := by
  unfold Issues NoStepBack; decide +kernel

/-- Four vector registers at 256 and one accumulator at 1024; scratch addresses and a DRAM line in registers. -/
def view : State := withG (withT part (fun t => { t with vv := 0x40100, va := 0x10400 })) [(4, 0x30000), (6, 0x80), (7, 0x2FF80)]
def okD (d : Done) (p : State → Bool) : Bool := match d with | .ok s => p s | _ => false
def trapD (d : Done) : Bool := match d with | .trap _ => true | _ => false
/-- The v registers lie over the rows of an accumulator, of which `n` are final. -/
def accView (n : Nat) : State := withT view (fun t => { t with vv := 0x40400, mu := { t.mu with wm := t.mu.wm.set 0 n } })
/-- The accumulator is being cleared. -/
def clearing (s : State) : State := withTile s (fun t => { t with mrun := [⟨⟨.mzero 0 1024, 0, 0, 0⟩, [], [], 0, 0, 0⟩] })
theorem test_witness_VectorAccesses :
    let s := view
    let far := withG view [(4, 0x60000)]
    let es := (List.range 32).map (fun j => s.th.gr 6 + BitVec.ofNat 64 4 * BitVec.ofNat 64 (sextN 32 64 (lane (s.th.vread 2 512) 4 j)))
    (∀ i ∈ [Instr.vld k1 3 4 0 0, .vlds k1 3 7 6 1 2, .vgth k1 3 6 2 1 2, .vst k1 3 4 0 0, .vsts k1 3 7 6 1 2, .vsct k1 3 6 2 1 2], Issues i s) ∧
    s.th.vo 3 = some 640 ∧ s.th.vo 4 = none ∧ s.th.vo 2 = some 512 ∧ s.th.accPending 512 = false ∧ s.th.accPending 640 = false ∧
    okD (s.vload 640 false false 0 [s.th.gr 4 + s.th.gr 0]) steps = true ∧ trapD (far.vload 640 false false 0 [far.th.gr 4]) = true ∧
    okD (s.vload 640 true true 4 es) steps = true ∧
    okD (s.vstore false true 128 [s.th.gr 4 + s.th.gr 0] (s.th.vread 3 640)) steps = true ∧
    okD (s.vstore true false 4 es (s.th.vread 3 640)) steps = true ∧ trapD (far.vstore false true 128 [far.th.gr 4] (s.th.vread 3 640)) = true ∧
    Issues (.vld k1 4 4 0 0) s ∧ Issues (.vst k1 4 4 0 0) s ∧ Issues (.vld k1 3 4 0 0) far ∧ Issues (.vst k1 3 4 0 0) far := by
  unfold Issues; decide +kernel
/-- A vector access behind an acquire, one on bytes of a window that is filling, and a store of accumulator rows that are to come. -/
theorem test_witness_VectorAccesses_waits :
    let q := acquiring view
    let w := withTile view (fun t => { t with wins := [(0, ⟨1, 0, 0, 0, 0, 0x2F, true, false, false, [⟨32, 32, 1, 0⟩, ⟨32, 32, 32, 0⟩], false, 0, 16, 1, .s, false⟩)] })
    let a := accView 0
    (∀ i ∈ [Instr.vld k1 3 4 0 0, .vst k1 3 4 0 0], Issues i q) ∧ (∀ i ∈ [Instr.vld k1 3 6 0 1, .vst k1 3 6 0 1], Issues i w) ∧
    (match q.vload 640 false false 0 [q.th.gr 4 + q.th.gr 0] with | .hold _ _ => true | _ => false) = true ∧
    (match q.vstore false true 128 [q.th.gr 4 + q.th.gr 0] (q.th.vread 3 640) with | .hold _ _ => true | _ => false) = true ∧
    (match w.vload 640 true false 0 [w.th.gr 6 + w.th.gr 0] with | .wait _ _ => true | _ => false) = true ∧
    (match w.vstore true true 128 [w.th.gr 6 + w.th.gr 0] (w.th.vread 3 640) with | .wait _ _ => true | _ => false) = true ∧
    Issues (.vst k1 3 4 0 0) a ∧ a.th.vo 3 = some 1408 ∧ a.th.accPending 1408 = true := by
  unfold Issues; decide +kernel
theorem test_witness_VectorFormsComplete :
    let s := view
    let i := Instr.vmad k1 3 1 2 4
    Issues i s ∧ s.th.vo 3 = some 640 ∧ s.th.vo 1 = some 384 ∧ s.th.vo 2 = some 512 ∧
    s.th.meetsAcc 640 128 = false ∧ s.th.meetsAcc 384 128 = false ∧ s.th.meetsAcc 512 128 = false ∧ s.writeWaits s.th 640 128 = false ∧
    NoStepBack i s s ∧ s.th.vo 4 = none ∧ Issues (.vmad k1 4 1 2 4) s ∧ Issues (.vabs k1 3 1 0) s := by
  unfold Issues NoStepBack; decide +kernel
/-- Forms that read accumulator rows through their views, final ones and rows to come; one whose rows are being cleared. -/
theorem test_witness_VectorFormsComplete_late :
    (∀ n ∈ [0, 32], let s := accView n
      Issues (.vmad k1 3 1 2 4) s ∧ s.th.vo 3 = some 1408 ∧ s.th.vo 1 = some 1152 ∧ s.th.vo 2 = some 1280 ∧ s.th.meetsAcc 1408 128 = true ∧
      s.th.meetsAcc 1152 128 = true ∧ (s.th.bypassed true 1).isNone = true ∧ s.writeWaits s.th 1408 128 = false ∧
      NoStepBack (.vmad k1 3 1 2 4) s s ∧ Issues (.vext k1 4 3 6 0) s ∧ Issues (.vins k1 3 4 6 0) s ∧ s.th.bypassed true 3 = none ∧
      s.th.countsBy 4 = false ∧ NoStepBack (.vext k1 4 3 6 0) s s ∧ NoStepBack (.vins k1 3 4 6 0) s s) ∧
    (let c := clearing (accView 0)
     Issues (.vmad k1 3 1 2 4) c ∧ c.writeWaits c.th 1408 128 = true ∧ transientMark k1 = false) ∧
    (let l := withT (accView 32) (fun t => { t with lps := 0x2FFFC, lp0 := ⟨true, 4, 0, 1⟩ })
     Issues (.vext k1 4 3 6 0) l ∧ l.th.countsBy 4 = true) := by
  unfold Issues NoStepBack; decide +kernel
theorem test_witness_VectorFormsComplete_shapes :
    vecShape (.vmad k1 3 1 2 4) = some (k1, 3, true, 1, some 2) ∧ vecShape (.vmad k1 4 1 2 4) = some (k1, 4, true, 1, some 2) ∧
    vecShape (.vabs k1 3 1 0) = some (k1, 3, false, 1, none) := ⟨rfl, rfl, rfl⟩
theorem test_witness_LaneMovement :
    let s := view
    Issues (.vbcst k1 3 4 0) s ∧ Issues (.vext k1 4 3 6 0) s ∧ Issues (.vins k1 3 4 6 0) s ∧ s.th.vo 3 = some 640 ∧
    s.writeWaits s.th 640 128 = false ∧ s.th.meetsAcc 640 128 = false ∧ NoStepBack (.vbcst k1 3 4 0) s s ∧ NoStepBack (.vext k1 4 3 6 0) s s ∧
    NoStepBack (.vins k1 3 4 6 0) s s ∧ s.th.vo 4 = none ∧ Issues (.vbcst k1 4 3 0) s ∧ Issues (.vext k1 3 4 6 0) s ∧ Issues (.vins k1 4 3 6 0) s := by
  unfold Issues NoStepBack; decide +kernel
theorem test_witness_Lanes :
    (Instr.vabs k1 3 4 3).wellFormed = true ∧ (intLaneRule (.vabs k1 3 4 3)).isSome = true ∧ (List.replicate 128 (0 : Byte)).length = 128 ∧
    15 < 128 / 2 ^ ((3 : BitVec 3).toNat % 4) ∧ 127 < 128 := by decide +kernel

/-- Two present windows of 8-bit plane integers, 32 by 32, at SRAM lines 0 and 16. -/
def win (sl : Nat) : Win :=
  ⟨2, 0, 0, 0, 0, 0x2F, true, false, false, [⟨32, 32, 1, 0⟩, ⟨32, 32, 32, 0⟩], false, sl, 16, 1, .s, false⟩
def mats : State := withG (withTile view (fun t => { t with wins := [(0, win 0), (1, win 16)] })) [(4, 0), (5, 1), (3, 32), (6, 0x2FFC0), (7, 1)]
def full (n : Nat) (s : State) : State := withF s (fun f => { f with mq := List.replicate n ⟨.mzero 0 1024, 0, 0, 0⟩ })
theorem test_witness_MatrixCommandsQueue :
    let s := mats
    Issues (.mma k1 1 0 4 5 3) s ∧ s.th.viewTrap 0 = none ∧ s.windowTrap s.th [0, 1] = none ∧ s.th.capTrap 0 = none ∧
    okE ((s.tile s.th.tile).operands (s.th.gr 4) (s.th.gr 5) (s.th.gr 3)) (fun r => r.1.2.state == 2 && r.2.2.state == 2) = true ∧
    Issues (.mzero k1 1 0) s ∧ Issues (.mscl k1 1 6 7 0) s ∧ 1 ≤ (s.th.gr 7).toNat ∧ (s.th.gr 7).toNat ≤ 64 ∧ (s.th.gr 6).toNat % 64 = 0 ∧
    s.entryCheck s.th (s.th.gr 6).toNat (64 * (s.th.gr 7).toNat) = .ok true ∧ s.th.flow.mq.length < 8 ∧
    (full 7 s).th.flow.mq.length < 8 ∧ 8 ≤ (full 8 s).th.flow.mq.length ∧ Issues (.mzero k1 1 0) (full 8 s) ∧
    NoStepBack (.mma k1 1 0 4 5 3) s s ∧ s.th.viewTrap 1 = some ⟨.illstate, 0, s.th.pc⟩ ∧ Issues (.mma k1 1 1 4 5 3) s ∧
    Issues (.mzero k1 1 1) s ∧ Issues (.mscl k1 1 6 7 1) s := by
  unfold Issues NoStepBack; decide +kernel
theorem test_witness_MatrixWaitsAndImages :
    let s := withG mats [(4, 0x30040)]
    let w := full 1 s
    Issues (.mwait k1 1) (withT s (fun t => { t with status := .waiting })) ∧ s.th.status ≠ .waiting ∧
    Issues (.mwait k1 1) s ∧ s.accBusy s.th false 0 = false ∧ s.th.mu.wm.getD 0 32 = 32 ∧ NoStepBack (.mwait k1 1) s s ∧
    Issues (.mwait k1 0) w ∧ w.accBusy w.th false 0 = true ∧ Issues (.mwm k1 3 0) s ∧ s.th.ao 0 = some 1024 ∧ s.th.countsBy 3 = false ∧
    NoStepBack (.mwm k1 3 0) s s ∧ Issues (.mwm k1 3 1) s ∧ s.th.ao 1 = none ∧
    (let c := withT s (fun t => { t with lps := 0x2FFFC, lp0 := ⟨true, 3, 0, 1⟩ })
     Issues (.mwm k1 3 0) c ∧ c.th.countsBy 3 = true) := by
  unfold Issues NoStepBack; decide +kernel
theorem test_witness_MatrixWaitsAndImages_images :
    let s := withG mats [(4, 0x30040)]
    let u := withG mats [(4, 0x30020)]
    let o := withT s (fun t => { t with mu := t.mu.setOwn 0 2 })
    Issues (.msave k1 4 0) o ∧ o.th.ao 0 = some 1024 ∧ (o.th.gr 4).toNat % 64 = 0 ∧ o.th.mu.own.getD 0 0 ≤ o.th.priv.code + 1 ∧ o.accDrained o.th 0 = true ∧
    okE (o.pieces o.th.acc .write (o.th.gr 4) 4160) (fun r => (r.2.storeBlock o.th.acc r.1).isNone && (r.1.findSome? (r.2.refusal o.th.acc)).isNone &&
      !r.2.accessWaits o.th.acc r.1) = true ∧
    (let p : State := { o with ms := { o.ms with pins := [⟨0x31000 / 192 * 192, 5, none, 0, 0, 0, false, false, false⟩] } }
     Issues (.msave k1 4 0) p ∧ okE (p.pieces p.th.acc .write (p.th.gr 4) 4160) (fun r => (r.1.findSome? (r.2.refusal p.th.acc)).isSome) = true) ∧
    NoStepBack (.msave k1 4 0) o o ∧
    Issues (.mrest k1 4 0) s ∧ s.th.capTrap 0 = none ∧ okE (s.pieces s.th.acc .read (s.th.gr 4) 4160) (fun _ => true) = true ∧
    okH (s.ldHeld s.th.acc .read (s.th.gr 4) 4160) (fun bs e => leNat ((bs.drop 4096).take 8) == 0 &&
      !(bs.drop 4104).any (· != 0) && e.accDrained s.th 0 && steps e) = true ∧
    Issues (.msave k1 4 0) u ∧ Issues (.mrest k1 4 0) u ∧ (u.th.gr 4).toNat % 64 ≠ 0 := by
  unfold Issues NoStepBack; decide +kernel
/-- Rows 31 to 31 of accumulator 0 as f16, and a capability for tile 0 in g8. -/
def cvt : State := withG mats [(4, 0x1000), (5, 0x20 * 2 ^ 19 + 1 * 2 ^ 13 + 31 * 2 ^ 8), (6, 0x2F), (8, 2 ^ 40)]
theorem test_witness_MatrixConversions :
    let s := { cvt with tiles := (withTile cvt (fun t => { t with wins := [] })).tiles }
    s.th.ordered 2 = false ∧ Issues (.mpln k1 4 3 6) s ∧ s.th.vo 3 = some 640 ∧ (s.th.gr 6).toNat < 64 ∧
    okO (mfcUpTo 0x2F (s.th.gr 6).toNat) (fun f =>
      let bs := planeGroup f ((List.range 32).map (lane (s.th.vread 3 640) f.bytes))
      s.localCheck s.th (s.th.gr 4).toNat bs.length (s.th.gr 4).toNat == .ok && !s.matrixReads s.th (s.th.gr 4).toNat bs.length &&
        steps (s.tileStore s.th.tile (s.th.gr 4).toNat bs)) = true ∧ (s.th.gr 4).toNat % 4 = 0 ∧ s.th.accPending 640 = false ∧
    Issues (.acvt k1 1 4 5 0) s ∧ okO (acvtCtl (s.th.gr 5)) (fun k =>
      s.localCheck s.th (s.th.gr 4).toNat k.size (s.th.gr 4).toNat == .ok && (s.th.accTrap k.acc).isNone && !s.accBusy s.th false k.acc &&
      s.th.rowsDone k && (let r := s.th.acvtRows ((s.th.ao k.acc).getD 0) k
        s.localCheck s.th (s.th.gr 4).toNat r.1.length (s.th.gr 4).toNat == .ok && !s.matrixReads s.th (s.th.gr 4).toNat r.1.length &&
        steps (s.tileStore s.th.tile (s.th.gr 4).toNat r.1))) = true ∧
    Issues (.acvt k1 1 4 5 8) s ∧ (8 : BitVec 5) ≠ 0 ∧ NoStepBack (.acvt k1 1 4 5 8) s s := by
  unfold Issues NoStepBack; decide +kernel
/-- A thread of a launch with a scale server at 0x2000 of 256 bytes, entries for tile 0 only. -/
def loft : State :=
  let s := withTile part (fun t => { t with loft := BitVec.ofNat 64 (2 ^ 63 + 256 * 2 ^ 24 + 0x2000), loftDom := 1 })
  let q : Queue := { Queue.reset with cmds := [⟨2, 0, [0], [], 0, some 0, 0⟩] }
  withG { s with st := { s.st with vcps := [(1, Vcp.reset.setQueue 0 q)] } } [(4, 192), (5, 1), (6, 1)]
theorem test_witness_RemoteMatrix :
    let s := loft
    let n := withG part [(5, 0x7FF)]
    Issues (.mmar k1 1 0 4 5 6) s ∧ NoStepBack (.mmar k1 1 0 4 5 6) s s ∧ Issues (.scalemc k1 1 4 5 6) s ∧ s.ofLoftLaunch s.th = true ∧ s.th.ordered 2 = false ∧
    1 ≤ (s.th.gr 5).toNat ∧ (s.th.gr 5).toNat ≤ 64 ∧ (s.th.gr 4).toNat % 64 = 0 ∧
    (s.th.gr 4).toNat + 64 * (s.th.gr 5).toNat = bits (s.tile s.th.tile).loft.toNat 44 24 ∧ bits (s.th.gr 6).toNat 63 32 = 0 ∧
    s.entryCheck s.th (0x2000 + 192) 64 = .ok true ∧ bits (s.tile s.th.tile).loft.toNat 23 0 = 0x2000 ∧ NoStepBack (.scalemc k1 1 4 5 6) s s ∧
    Issues (.capmint k1 4 5) n ∧ bits (n.th.gr 5).toNat 63 11 = 0 ∧ (n.tile n.th.tile).dp? n.th.dom = some (0, dp1 1) ∧
    NoStepBack (.capmint k1 4 5) n n := by
  unfold Issues NoStepBack; decide +kernel
theorem test_witness_NumberRules :
    tcOf 0 = .inl (8, true) ∧ (∃ f, tcOf 8 = .inr f) ∧ 254 < 255 ∧ (Num.nan false).isNan = true ∧ (Num.fin false 1 0).isNan = false ∧
    (Num.fin true 0 0).eqv (.fin false 0 0) = true ∧ (Num.fin true 0 0).neg? = true ∧ (Num.fin false 1 0).lt (.fin false 1 1) = true := by
  refine ⟨by decide +kernel, ⟨_, rfl⟩, by decide +kernel⟩
/-- Eight-byte words laid from an address. -/
def words (s : State) (a : Nat) (ws : List Nat) : State := withM s a (ws.flatMap (leBytes 8))
/-- Function 1's translation tables, for the units: page 3 of its space is 0x30000. -/
def mapped (s : State) : State :=
  let s := words (words (words (words s 0x31000 [0x32001]) 0x32000 [0x33001]) 0x33000 [0x34001]) 0x34018 [0x300EF]
  { s with st := { s.st with tcrs := [(1, ⟨0x31001, 0, []⟩)] } }
def jobAt (stage st : Nat) : JobEntry :=
  { cls := 0, jid := 5, card := 0x30100, tid := 0, tile := 0, who := (1025, 0), dom := 1, priv := .s, guard := 0, win := none, graph := 0
    reads := [], writes := [], preds := [], acts := [], orphan := false, early := false, stage := stage, todo := [], esz := 1, st := st
    code := 1, fx := 0, faddr := 0, rin := 0 }
def jobs (stage st : Nat) : State := withG (part.setEngine 0 ⟨[jobAt stage st], 6, [], 0⟩) [(4, 5)]
theorem test_witness_Jobs :
    let s := withG part [(5, 0x30100)]
    let u := withG part [(5, 0x30180)]
    let v := withG part [(5, 0x60000)]
    let f := s.setEngine 0 ⟨List.replicate 64 (jobAt 0 1), 6, [], 0⟩
    let q := s.setEngine 0 ⟨[], 0, [{ jobAt 0 0 with win := some 3 }], 5⟩
    let w := withF s (fun f => { f with outs := [⟨7, [], .parts [.wait 1 0 8 0 0] (.scalar 3 0), none, 0⟩] })
    (∀ x ∈ [s, u, v, f, q, w], Issues (.job k1 1 3 5) x ∧ Issues (.coll k1 1 3 5) x) ∧ (s.th.gr 5).toNat % 256 = 0 ∧ (u.th.gr 5).toNat % 256 ≠ 0 ∧
    okE (s.pieces s.th.acc .read (s.th.gr 5) 256) (fun r => r.2.mayRelease s.th && !r.2.engineFull 0 && !r.2.engineFull 192 &&
      !r.2.outranked 0 0 && !r.2.outranked 192 0) = true ∧
    okE (f.pieces f.th.acc .read (f.th.gr 5) 256) (fun r => r.2.engineFull 0) = true ∧
    okE (q.pieces q.th.acc .read (q.th.gr 5) 256) (fun r => r.2.outranked 0 0) = true ∧
    okE (w.pieces w.th.acc .read (w.th.gr 5) 256) (fun r => !r.2.mayRelease w.th) = true ∧
    errE (v.pieces v.th.acc .read (v.th.gr 5) 256) = true ∧ copyEngine s.th.tile = 0 := by
  unfold Issues; decide +kernel
theorem test_witness_Jobs_handles :
    let s := withG part [(5, 0x30100)]
    let h := withG part [(4, 2 ^ 26), (5, 2 ^ 26)]
    let c := withT s (fun t => { t with lps := 0x2FFFC, lp0 := ⟨true, 4, 0, 1⟩ })
    Issues (.jobw k1 4) h ∧ Issues (.jobx k1 4) h ∧ Issues (.jobq k1 4 5) h ∧ handleEngine (h.th.gr 4) = none ∧
    handleEngine (s.th.gr 4) ≠ none ∧ s.job? (s.th.gr 4) s.th.who = none ∧ Issues (.jobw k1 4) s ∧ Issues (.jobx k1 4) s ∧
    Issues (.jobq k1 4 4) s ∧ s.th.countsBy 4 = false ∧ Issues (.jobq k1 4 4) c ∧ c.th.countsBy 4 = true ∧ s.th.status ≠ .waiting ∧
    Issues (.jobw k1 4) (withT s (fun t => { t with status := .waiting })) ∧
    (∀ p ∈ [(1, 2), (2, 4), (2, 3)], (jobs p.1 p.2).job? 5 (jobs p.1 p.2).th.who = some (0, jobAt p.1 p.2) ∧ (jobs p.1 p.2).th.gr 4 = 5 ∧
      Issues (.jobw k1 4) (jobs p.1 p.2) ∧ Issues (.jobx k1 4) (jobs p.1 p.2)) := by
  unfold Issues; decide +kernel
/-- A window card at 0x30100 with its layout at 0x30240: u8 elements, one dimension of 32, on line 0; PREFETCH as given. -/
def wcard (pre : Nat) : State :=
  let s := words part 0x30100 [2 * 2 ^ 60]
  let s := words s 0x301C0 [0x30240, 1, pre]
  let s := words s 0x30240 [0x30400, 2 ^ 9, 32 * 2 ^ 32 + 32 * 2 ^ 16, 2 ^ 32]
  withG s [(4, 31), (5, 0x30100)]
def wbindOk (s : State) : Bool :=
  okH (s.ldHeld s.th.acc .read (s.th.gr 5) 256) (fun c s1 => (cardBreaches 2 c).isEmpty && (windowBreaches c).isEmpty &&
    okH (s1.ldHeld s.th.acc .read (BitVec.ofNat 64 (cardWord c 192)) 128) (fun l s2 =>
      let x := windowOf (s.th.gr 5) l (bits (cardWord c 200) 28 16) (bits (cardWord c 200) 13 0) s.th.fn s.th.priv
      let w := (s.th.gr 4).toNat
      s1.th == s.th && (layoutBreaches l).isEmpty && (s2.windowBank s.th.tile s.th.dom x).isNone && w < 32 && !(s2.tile s.th.tile).windowBad w x &&
        !((s2.tile s.th.tile).win? w).any (·.state == 1) && bitOf (cardWord c 208) 0 == (s.th.gr 6 == 1) && s2.mayRelease s.th && !s2.engineFull (copyEngine s.th.tile)))
/-- JOBX of a job whose stores are under way, and of one without. -/
theorem test_witness_Jobs_cancel :
    ∀ b ∈ [false, true], let x : State := { mapped (jobs 1 2) with pl := { part.pl with posted := if b then [.of 1 (jobTid 0 5) 0 0 false 0] else [] } }
      Issues (.jobx k1 4) x ∧ x.job? (x.th.gr 4) x.th.who = some (0, jobAt 1 2) ∧ x.jobPosted (jobTid 0 5) = b ∧
      (x.writeStatus (jobAt 1 2).acc (jobTid 0 5) 0x30100 6 0 0 5 0).2.2 = [] := by
  unfold Issues; decide +kernel
/-- What WBIND of window g4 with the card at g5 meets: a breach of the card, a bank, a breach of the layout, a window over 31, one that does
not fit, one that is filling, no room for its fill, or nothing. -/
def wbindKind (s : State) : Nat :=
  match s.ldHeld s.th.acc .read (s.th.gr 5) 256 with
  | .ok c s1 =>
    if !(cardBreaches 2 c ++ windowBreaches c).isEmpty then 1
    else match s1.ldHeld s.th.acc .read (BitVec.ofNat 64 (cardWord c 192)) 128 with
      | .ok l s2 =>
        let x := windowOf (s.th.gr 5) l (bits (cardWord c 200) 28 16) (bits (cardWord c 200) 13 0) s.th.fn s.th.priv
        let w := (s.th.gr 4).toNat
        if s1.th != s.th then 0
        else if (s2.windowBank s.th.tile s.th.dom x).isSome then 2
        else if !(layoutBreaches l).isEmpty then 3
        else if 32 ≤ w then 4
        else if (s2.tile s.th.tile).windowBad w x then 5
        else if ((s2.tile s.th.tile).win? w).any (·.state == 1) then 6
        else if bitOf (cardWord c 208) 0 && (!s2.mayRelease s.th || s2.engineFull (copyEngine s.th.tile)) then 7 else 8
      | _ => 0
  | _ => 0
def bound (st : Nat) : State := withG (withTile part (fun t => { t with wins := [(31, { win 0 with state := st })] })) [(4, 31)]
theorem test_witness_Windows :
    (∀ p ∈ [0, 1], Issues (.wbind k1 4 5) (withG (wcard p) [(6, p)]) ∧ wbindOk (withG (wcard p) [(6, p)]) = true) ∧
    ((wcard 0).th.gr 5).toNat % 256 = 0 ∧ part.windowBank 0 2 (win 0) = some 0 ∧
    Issues (.wbind k1 4 5) (withG part [(5, 0x30180)]) ∧ ((withG part [(5, 0x30180)]).th.gr 5).toNat % 256 ≠ 0 ∧
    Issues (.wdrop k1 4) (withG part [(4, 32)]) ∧ Issues (.wdrop k1 4) (withG part [(4, 31)]) ∧ (part.tile 0).win? 31 = none ∧
    (∀ st ∈ [1, 2], Issues (.wdrop k1 4) (bound st) ∧ ((bound st).tile 0).win? 31 = some { win 0 with state := st }) ∧
    Issues (.wstat k1 4 5) part ∧ part.th.countsBy 4 = false ∧
    (let c := withT part (fun t => { t with lps := 0x2FFFC, lp0 := ⟨true, 4, 0, 1⟩ })
     Issues (.wstat k1 4 5) c ∧ c.th.countsBy 4 = true) := by
  unfold Issues; decide +kernel
/-- A card or a layout that breaks its map, for a window up to 31 and one above; lines in a bank of another domain; bits [63:5] of the
window; lines of another window; a window that is filling; a prefetch without room in its engine, or before the thread's loads. -/
theorem test_witness_Windows_refused :
    let w (n : Nat) (s : State) : State := withG s [(4, n)]
    let nl := words (wcard 0) 0x301C8 [0]
    let lay := words (wcard 0) 0x30248 [0]
    let bank := withTile (wcard 0) (fun t => { t with dps := t.dps.set 0 { dp1 1 with banks := 0xFFFE } })
    let lap := withTile (wcard 0) (fun t => { t with wins := [(0, win 0)] })
    let fill := withTile (wcard 0) (fun t => { t with wins := [(31, { win 0 with state := 1 })] })
    let room := (wcard 1).setEngine 0 ⟨List.replicate 64 (jobAt 0 1), 6, [], 0⟩
    let load := withF (wcard 1) (fun f => { f with outs := [⟨7, [], .parts [.wait 1 0 8 0 0] (.scalar 3 0), none, 0⟩] })
    (∀ p ∈ [(1, nl), (1, w 32 nl), (2, bank), (3, lay), (3, w 32 lay), (4, w 32 (wcard 0)), (5, lap), (6, fill), (7, room), (7, load), (8, wcard 1)],
      Issues (.wbind k1 4 5) p.2 ∧ wbindKind p.2 = p.1) := by
  unfold Issues; decide +kernel
/-- A task card at 0x30100, its kernel header at 0x30240 for a U-mode kernel. -/
def tcard : State :=
  let s := words part 0x30100 [4 * 2 ^ 60]
  let s := words s 0x301C0 [0x30240, 0, 0x30400, 0x30800]
  let s := words s 0x30240 [0x434C5846 * 2 ^ 32 + 1, 0x40]
  withG s [(5, 0x30100)]
def node : TaskNode :=
  { die := 0, id := 0, card := 0x30100, dom := 1, priv := .s, counter := 0, preds := [], started := true, graph := 0, reads := [], writes := []
    acts := [], kern := ⟨0, 1, 0, 0, 0, .u, 0, 0⟩, arg := 0, recA := 0x30400, save := 0, aff := none, pri := 0, stage := 0, code := 0
    fail := none }
def tasked (st : Nat) : State :=
  { withT (mapped part) (fun t => { t with info := { t.info with kind := 2, addr := 0x30400 } }) with
    eng := { part.eng with tasks := [{ node with stage := st }] } }
theorem test_witness_Tasks :
    let s := tcard
    let w := withF s (fun f => { f with outs := [⟨7, [], .parts [.wait 1 0 8 0 0] (.scalar 3 0), none, 0⟩] })
    Issues (.task k1 4 5) s ∧ Issues (.task k1 4 5) w ∧ w.mayRelease w.th = false ∧ (s.th.gr 5).toNat % 256 = 0 ∧
    okH (s.ldHeld s.th.acc .read (s.th.gr 5) 256) (fun c s1 =>
      (cardBreaches 4 c).isEmpty && (taskBreaches c).isEmpty && (let kh := BitVec.ofNat 64 (cardWord c 192)
        okH (s1.ldHeld s.th.acc .read kh 64) (fun h s2 => (headerErrors h).isEmpty && privRank (kernOf kh h).priv ≤ privRank s.th.priv &&
          s2.mayRelease s.th && s2.eng.tasks.isEmpty))) = true ∧
    Issues (.task k1 4 5) (withG part [(5, 0x30180)]) := by
  unfold Issues; decide +kernel
/-- TDONE before and after its actions, with a store of the node unacknowledged, with accesses outstanding, and of no node. -/
theorem test_witness_Tasks_done :
    let x := tasked 0
    let p : State := { x with pl := { x.pl with posted := [.of 1 (nodeTid 0 0) 0 0 false 0] } }
    let w := withF x (fun f => { f with outs := [⟨7, [], .parts [.wait 1 0 8 0 0] (.scalar 3 0), none, 0⟩] })
    (∀ y ∈ [x, tasked 2, p, w], Issues (.tdone k1) y ∧ (y.nodeOfThread y.th).isSome = true ∧ y.th.info.kind = 2 ∧ y.th.flow.tdone = false) ∧
    x.nodeOfThread x.th = some node ∧ x.mayRelease x.th = true ∧ x.jobPosted (nodeTid 0 0) = false ∧ p.jobPosted (nodeTid 0 0) = true ∧
    w.mayRelease w.th = false ∧ node.fail = none ∧
    (let r := x.runActs (node.acc x.th) (nodeTid 0 0) node.acts node.code
     r.2.1 = [] ∧ r.2.2.2 = none ∧ r.1.jobPosted (nodeTid 0 0) = false ∧
     (let v := r.1.writeStatus (node.acc r.1.th) (nodeTid 0 0) node.card 3 r.2.2.1 0 node.id 0
      v.2.1 = none ∧ v.2.2 = [] ∧ v.1.jobPosted (nodeTid 0 0) = false)) ∧
    Issues (.tdone k1) part ∧ part.nodeOfThread part.th = none := by
  unfold Issues; decide +kernel
/-- A line pinned by another compact, and by the member's own; a range that wraps, and one on a page that is not there. -/
theorem test_witness_CacheMaintenance :
    let s := withG base [(4, 0x300C0), (5, 192)]
    let w := withG base [(4, 0xFFFFFFFFFFFFFFFF), (5, 2)]
    let x := withG base [(4, 0x40000), (5, 1)]
    let p : State := { s with ms := { s.ms with pins := [⟨0x300C0, 1, none, 5, 0, 0, false, false, false⟩] } }
    let a := acquiring s
    let o : State := { withG (signed mem0 1) [(4, 0x300C0), (5, 192)] with
      ms := { part.ms with pins := [⟨0x300C0, 5, none, 0, 0, 0, false, false, false⟩] } }
    let one (r : List Piece × List Piece × State) (f : State → Piece → Bool) : Bool := r.2.1.length == 1 && r.2.1.all (f r.2.2)
    let near (u : State) (l : Piece) : Bool := l.pkg == u.me && (u.pinOf l).isNone
    wraps (w.th.gr 4) (w.th.gr 5) = true ∧ wraps (s.th.gr 4) (s.th.gr 5) = false ∧
    (∀ i ∈ [Instr.discard k1 4 5, .cwb k1 4 5, .cinv k1 4 5], ∀ y ∈ [s, w, x, p, a, o], Issues i y) ∧
    errE (x.pieces x.th.acc .write 0x40000 1) = true ∧ errE (x.pieces x.th.acc .read 0x40000 1) = true ∧
    okE (s.rangeLines .write 0x300C0 192) (fun r => one r near && !r.2.2.accessWaits s.th.acc r.1 && (r.2.2.storeBlock s.th.acc r.2.1).isNone) = true ∧
    okE (s.rangeLines .read 0x300C0 192) (fun r => one r near && !r.2.2.accessWaits s.th.acc r.1) = true ∧
    okE (a.rangeLines .read 0x300C0 192) (fun r => r.2.2.accessWaits a.th.acc r.1) = true ∧
    okE (a.rangeLines .write 0x300C0 192) (fun r => r.2.2.accessWaits a.th.acc r.1) = true ∧
    okE (p.rangeLines .write 0x300C0 192) (fun r => one r (fun u l => (u.pinOf l).isSome) && !r.2.2.accessWaits p.th.acc r.1) = true ∧
    (let m := withG p [(4, 0x30000), (5, 384)]
     Issues (.cwb k1 4 5) m ∧ wraps (m.th.gr 4) (m.th.gr 5) = false ∧ okE (m.rangeLines .read 0x30000 384) (fun r => !r.2.2.accessWaits m.th.acc r.1 &&
       r.2.1.map (fun l => (r.2.2.pinOf l).isSome) == [false, true] && r.2.1.all (fun l => l.pkg == r.2.2.me &&
         (match r.2.2.pinOf l with | some q => !r.2.2.ownsPin m.th.tid q | none => true))) = true) ∧
    okE (o.rangeLines .read 0x300C0 192) (fun r => !r.2.2.accessWaits o.th.acc r.1 && one r (fun u l => l.pkg == u.me &&
      okO (u.pinOf l) (fun q => u.ownsPin o.th.tid q &&
        !(u.writeBackPin 1 ((u.nodeOf 1).getD 0) q false).pl.posted.any (·.tid == 2 ^ 60 + q.bar)))) = true ∧
    base.cellarNode 0 0x300C0 = none := by
  unfold Issues; decide +kernel
/-- The record at 0x30400 and save area at 0x30800 of the thread, for its checkpoint. -/
def recd (s : State) : State := withT s (fun t => { t with gran := 1, info := { t.info with addr := 0x30400, save := 0x30800 } })
theorem test_witness_Seals :
    let s := mapped (recd part)
    let o := withF s (fun f => { f with egress := [⟨0, [0], 1⟩] })
    Issues (.seal k1) s ∧ s.nodeOf s.th.dom = some 1 ∧ (s.memberOf s.th.tid).isNone = true ∧ s.leaveReady s.th = true ∧ s.th.caller = none ∧
    (((s.setRgs 1 { s.rgs 1 with sealing := true }).tellGroup 1 8).checkpoint (s.th.loopStep.countEv 2 1) s.th.loopStep.pc).2 = true ∧
    (let b := withT s (fun t => { t with info := { t.info with save := 0x60000 } })
     Issues (.seal k1) b ∧ b.leaveReady b.th = true ∧
       (((b.setRgs 1 { b.rgs 1 with sealing := true }).tellGroup 1 8).checkpoint (b.th.loopStep.countEv 2 1) b.th.loopStep.pc).2 = false) ∧
    (let c := withT s (fun t => t.enterGate 0 ⟨0x30800, 0x1000, 64, 1, 1, 0, 3, 1, .s⟩ 64)
     Issues (.seal k1) c ∧ c.nodeOf c.th.dom = some 1 ∧ (c.memberOf c.th.tid).isNone = true ∧ c.leaveReady c.th = true ∧ c.th.caller.isSome = true) ∧
    Issues (.seal k1) base ∧ base.nodeOf base.th.dom = none ∧ Issues (.seal k1) o ∧ o.leaveReady o.th = false ∧
    Issues (.sealw k1 4) (withG part [(4, 0)]) ∧ sealedPast (part.rinOf part.th.dom) 0 = true ∧
    Issues (.sealw k1 4) (withG part [(4, 1)]) ∧ sealedPast (part.rinOf part.th.dom) 1 = false := by
  unfold Issues; decide +kernel
/-- A gate table of one valid descriptor at 0x30100: entry 0x30800 in domain 2, one granule, three registers passed. -/
def gated (pass : Nat) : State :=
  let s := withTile part (fun t => { t with dps := t.dps.set 1 { dp1 2 with banks := 0, scrb := 0, rbase := 64 } })
  let s := words s 0x30100 [0x30800, 0x1000, 64, 2 * 2 ^ 54 + 2 ^ 47 + pass * 2 ^ 33 + 2 ^ 28 + 1]
  { s with st := { s.st with cfgs := [(1, { VfCfg.reset with gtab := 0x30100, gcnt := 1 })] } }
def called : State := withT (gated 3) (fun t => t.enterGate 0 ⟨0x30800, 0x1000, 64, 2, 1, 0, 3, 1, .u⟩ 64)
def gateRead (s : State) (p : List Byte → State → Bool) : Bool :=
  okH (s.ldHeld { s.th.acc with fn := 0, priv := .h } .read ((s.cfg s.th.dom).gtab + 32 * s.th.gr 4) 32) p
theorem test_witness_Gates :
    let s := gated 29
    let z := words (gated 3) 0x30118 [0]
    Issues (.gate k1 4) s ∧ (s.th.gr 4).toNat < (s.cfg s.th.dom).gcnt ∧ gateRead s (fun bs u => okO (gateOf bs) (fun d =>
      d.pass ≤ 29 && (match (u.tile s.th.tile).dp? d.tdom with | some (_, e) => d.woff + d.gran ≤ e.rlen | none => false) && u.th == s.th &&
      !(u.tile s.th.tile).gates.contains (s.th.dom, 0) && !u.atRest d.tdom)) = true ∧
    s.th.caller = none ∧ Issues (.gate k1 4) (withG s [(4, 1)]) ∧
    (s.cfg s.th.dom).gcnt ≤ ((withG s [(4, 1)]).th.gr 4).toNat ∧ Issues (.gate k1 4) z ∧ gateRead z (fun bs _ => (gateOf bs).isNone) = true ∧
    (let n := withT z (fun t => { t with caller := called.th.caller })
     Issues (.gate k1 4) n ∧ n.th.caller.isSome = true) ∧
    Issues (.gret k1) called ∧ called.th.caller.isSome = true ∧ Issues (.gret k1) (withF called (fun f => { f with outs := [⟨7, [], .parts [.wait 1 0 8 0 0] (.scalar 3 0), none, 0⟩] })) ∧
    Issues (.gret k1) part ∧ part.th.caller = none := by
  unfold Issues; decide +kernel
/-- The gate is in a call, or the callee's group rolls back. -/
theorem test_witness_Gates_busy :
    let rest : State := let s := gated 29
      { s.setRgs 1 { Rgs.reset with roll := some ⟨1, 0, 0⟩ } with st := { (s.setRgs 1 { Rgs.reset with roll := some ⟨1, 0, 0⟩ }).st with binds := [(1, 1), (2, 1)] } }
    ∀ s ∈ [withTile (gated 29) (fun t => { t with gates := [(1, 0)] }), rest],
    Issues (.gate k1 4) s ∧ (s.th.gr 4).toNat < (s.cfg s.th.dom).gcnt ∧ s.th.caller = none ∧
    gateRead s (fun bs u => okO (gateOf bs) (fun d =>
      okO ((u.tile s.th.tile).dp? d.tdom) (fun e => decide (d.woff + d.gran ≤ e.2.rlen)) &&
      ((u.tile s.th.tile).gates.contains (s.th.dom, (s.th.gr 4).toNat) || u.atRest d.tdom))) = true := by
  unfold Issues; decide +kernel
/-- A record of function 1 with one granule, RUNNABLE, with its empty save area. -/
def stored (st : Nat) : State :=
  let t := { Thread.empty with dom := 1, pc := 0x30000, priv := .u, info := { RecInfo.zero with addr := 0x30400, save := 0x30800 } }
  let s := mapped part
  withG (withM (withM s 0x30400 (t.record st)) 0x30800 (t.image ++ t.block)) [(4, 0x30400)]
def slot (n : Nat) : State := withG part [(4, n)]
def pair (d : Nat) : State := withG (twin part (fun t => { t with dom := d })) [(4, 1)]
def saved : State := withF part (fun f => { f with ctx := some (1, 0x7000, true) })
theorem test_witness_ContextsAndKills :
    (∀ s ∈ [slot 15, slot 16, slot 0, pair 1, pair 2], Issues (.ctxsv k1 3 4) s ∧ s.th.flow.ctx = none) ∧
    15 < ((slot 16).th.gr 4).toNat ∧ ((slot 15).th.gr 4).toNat ≤ 15 ∧ (slot 0).th.tile * 16 + ((slot 0).th.gr 4).toNat = (slot 0).th.tid ∧
    (slot 15).th.tile * 16 + 15 ≠ (slot 15).th.tid ∧ (slot 15).thread? 15 = none ∧
    (∃ u, (pair 1).thread? 1 = some u ∧ u.home = (pair 1).th.dom) ∧ (pair 1).memberOf 1 = none ∧ (pair 2).th.priv = .s ∧
    (∃ u, (pair 2).thread? 1 = some u ∧ u.home ≠ (pair 2).th.dom) ∧
    Issues (.ctxsv k1 3 4) saved ∧ saved.th.flow.ctx = some (1, 0x7000, true) ∧ saved.thread? 1 = none ∧
    saved.threads.any (fun u => u.tile == saved.th.tile && u.tid != saved.th.tid && (u.flow.preempt == 2 || u.flow.leave == 4)) = false := by
  unfold Issues
  refine ⟨by decide +kernel, by decide +kernel, by decide +kernel, by decide +kernel, by decide +kernel, by decide +kernel,
    ⟨_, rfl, by decide +kernel⟩, by decide +kernel, by decide +kernel, ⟨_, rfl, by decide +kernel⟩, ?_⟩
  decide +kernel
def okL (l : Load) : Bool := match l with | .ok _ => true | _ => false
/-- A free slot of the domain, and none. -/
def crowded : State :=
  { stored 1 with others := (List.range 3).map (fun k => { (stored 1).th with tid := k + 1 }) }
theorem test_witness_ContextsAndKills_load :
    Issues (.ctxld k1 3 4) (stored 1) ∧ ((stored 1).th.gr 4).toNat % 64 = 0 ∧
    okH ((stored 1).ldHeld (stored 1).th.acc .read 0x30400 64) (fun rb u => u.th == (stored 1).th && bits (wordAt rb 1) 11 2 == 1 &&
      bits (wordAt rb 6) 63 62 != 1 && (u.freeSlots 0 1).head? == some 1 && okL (u.loadRecord 1 0x30400 1)) = true ∧
    Issues (.ctxld k1 3 4) crowded ∧ okH (crowded.ldHeld crowded.th.acc .read 0x30400 64) (fun _ u => (u.freeSlots 0 1).head?.isNone) = true ∧
    (stored 1).atRest 1 = false ∧ Issues (.ctxld k1 3 4) (withG part [(4, 0x30420)]) ∧ Issues (.ctxld k1 3 4) (withG part [(4, 0x60000)]) ∧
    (match part.ldHeld part.th.acc .read 0x60000 64 with | .trap x => x.cause != .mcheck | _ => false) = true ∧
    (let s := withF (farPage (withG part [(4, 0x50400)])) (fun f => { f with heldReads := [⟨3 * 2 ^ 48 + 0x50400, 64, 9, 0, some (.lost, [])⟩] })
     Issues (.ctxld k1 3 4) s ∧ (match s.ldHeld s.th.acc .read 0x50400 64 with | .trap x => x.cause == .mcheck | _ => false) = true) := by
  unfold Issues; decide +kernel
def killing (posted : Bool) : State :=
  let s := withF base (fun f => { f with ctx := some (2 ^ 20, 0, true) })
  { s with pl := { s.pl with posted := if posted then [.of 1 0 0 0 false 0] else [] } }
theorem test_witness_ContextsAndKills_kill :
    Issues (.kill k1 4) (stored 1) ∧ (stored 1).th.flow.ctx = none ∧ okH ((stored 1).ldHeld (stored 1).th.acc .read 0x30400 64) (fun rb _ =>
      bits (wordAt rb 1) 11 2 == (stored 1).th.dom && bits (wordAt rb 6) 63 62 != 1) = true ∧ (stored 1).th.info.addr ≠ 0x30400 ∧
    (withT (stored 1) (fun t => { t with info := { t.info with addr := 0x30400 } })).th.home = 1 ∧ (stored 1).th.priv = .s ∧
    (withT (stored 1) (fun t => { t with dom := 2 })).th.dom ≠ 1 ∧
    Issues (.killDom k1 4) (withG base [(4, 512)]) ∧ base.th.dom = 0 ∧ ((withG base [(4, 512)]).th.gr 4).toNat ≤ 512 ∧
    Issues (.killDom k1 4) (withG base [(4, 513)]) ∧ 512 < ((withG base [(4, 513)]).th.gr 4).toNat ∧
    Issues (.kill k1 4) (killing false) ∧ Issues (.killDom k1 4) (killing false) ∧ (killing false).th.flow.ctx.isSome = true ∧
    (killing false).killWaits (killing false).th.tid = false := by
  unfold Issues; decide +kernel
theorem test_witness_TlbiAndWatchdog :
    let w := withF base (fun f => { f with outs := [⟨7, [], .parts [.wait 1 0 8 0 0] (.scalar 3 0), none, 0⟩] })
    let b := withG { base with st := { base.st with parts := [1] } } [(5, 1)]
    let v (k e : Nat) : State := withG base [(4, k), (5, e)]
    (∀ i ∈ [Instr.tlbiPage k1 4, .tlbiPart k1 0, .tlbiAll k1, .tlbiPart k1 5], Issues i base ∧ Issues i b) ∧ base.th.flow.ctx = none ∧
    base.mayRelease base.th = true ∧ base.olderAccess base.fresh = false ∧ w.mayRelease w.th = false ∧ b.isPart (bits (b.th.gr 5).toNat 6 0) = true ∧
    Issues (.tlbiPart k1 5) (withG part [(5, 1)]) ∧ part.th.priv = .s ∧ base.isPart (bits (base.th.gr 5).toNat 6 0) = false ∧
    (∀ m ∈ [0xFFFF, 0x7FFF], let s := withG (withTile part (fun t => { t with dps := t.dps.set 0 { dp1 1 with tslot := m } })) [(4, 15), (5, 16)]
      Issues (.wdog k1 4 5) s ∧ s.th.priv = .s ∧ okO ((s.tile s.th.tile).dp? s.th.dom) (fun d => bitOf d.2.tslot 15 == (m == 0xFFFF)) = true) ∧
    (∀ p ∈ [(15, 16), (15, 32), (0, 0), (16, 16), (15, 15), (15, 33)], Issues (.wdog k1 4 5) (v p.1 p.2) ∧ ((v p.1 p.2).th.gr 4).toNat = p.1 ∧
      ((v p.1 p.2).th.gr 5).toNat = p.2) := by
  unfold Issues; decide +kernel
def afadd : State := withF base (fun f => { f with outs := [⟨3, [], .parts [.wait 1 0 4 0 0] (.afadd 0), none, 0⟩] })
theorem test_witness_StateRegisters :
    Issues (.mfs k1 5 3) base ∧ regMode 3 base.th.priv ≠ 0 ∧ base.foreignDp 3 = false ∧ base.th.awaitsFlags = false ∧
    Issues (.mfs k1 5 0) base ∧ Issues (.mfs k1 5 3) afadd ∧ afadd.th.awaitsFlags = true ∧ base.acvtOut base.th = false ∧
    base.accRunning base.th 0 = false ∧
    Issues (.mfs k1 5 0x4A) part ∧ regMode 0x4A part.th.priv = 0 ∧
    (∀ s ∈ [full 1 mats, clearing mats], Issues (.mfs k1 5 0x24) s ∧ s.foreignDp 0x24 = false ∧ regMode 0x24 s.th.priv ≠ 0 ∧
      s.accRunning s.th 0 = ((s.tile 0).mrun != [])) := by
  unfold Issues; decide +kernel
theorem test_witness_StateRegisters_writes :
    Issues (.mts k1 4 0x4A) part ∧ regMode 0x4A part.th.priv = 0 ∧ base.th.awaitsFlags = false ∧ base.acvtOut base.th = false ∧
    afadd.th.awaitsFlags = true ∧ Issues (.mts k1 4 0) base ∧ regMode 0 base.th.priv = 1 ∧ base.foreignDp 0 = false ∧
    (∀ x ∈ [63, 64], Issues (.mts k1 4 3) (withG base [(4, x)]) ∧ Issues (.mts k1 4 3) afadd) ∧ ((withG base [(4, 63)]).th.gr 4).toNat < 64 ∧
    Issues (.mts k1 4 0x10) (withG base [(4, 0)]) ∧ regMode 0x10 base.th.priv = 2 ∧ base.foreignDp 0x10 = false ∧
    ((withG base [(4, 0)]).regWrite 0x10 0).isSome = true ∧ ((withG base [(4, 0x10001)]).regWrite 0x10 0x10001) = none ∧
    Issues (.mts k1 4 0x10) (withG base [(4, 0x10001)]) := by
  unfold Issues; decide +kernel

def pc (c n : Nat) : State := withG { base with st := { base.st with parts := [1], binds := [] } } [(4, n), (5, c)]
/-- The largest function and one past it; each reserved field. -/
theorem test_witness_PartitionsAndGroups :
    (∀ i ∈ [Instr.pcfgSplit k1 3 4 5, .pcfgMerge k1 3 4 5, .pcfgCreate k1 3 4 5, .pcfgDestroy k1 3 4 5, .pcfgBind k1 3 4 5, .pcfgUnbind k1 3 4 5],
      Issues i (pc 0 1) ∧ Issues i (pc (512 * 1024 + 5) 1) ∧ Issues i (pc (513 * 1024 + 4) 1)) ∧
    (4 ≤ bits (513 * 1024 + 4) 3 0 ∧ 512 < bits (513 * 1024 + 4) 19 10) ∧ bits (512 * 1024 + 5) 19 10 ≤ 512 ∧ bits (2 ^ 20) 63 20 ≠ 0 ∧
    bits 16 9 4 ≠ 0 ∧ 6 ≤ bits 6 3 0 ∧ bits (512 * 1024 + 5) 63 20 = 0 ∧ bits (512 * 1024 + 5) 9 4 = 0 ∧ bits (512 * 1024 + 5) 3 0 < 6 ∧
    (pc 0 1).isPart 1 = true ∧ (pc 0 1).nodeOf 7 = none ∧ (pc 0 1).isPart 2 = false := by
  unfold Issues; decide +kernel
def vfc (f : Nat) : State :=
  withG (words { base with st := { base.st with parts := [1], binds := [(f, 1)] } } 0x30100 [2 ^ 32 + 2 ^ 24 + 1]) [(4, f), (5, 0x30100)]
def grouped (g : Option Nat) (a : Nat) : State := withG { base with pl := { base.pl with group := g } } [(4, a)]
theorem test_witness_PartitionsAndGroups_more :
    Issues (.vfcfg k1 3 4 5) (vfc 512) ∧ ((vfc 512).th.gr 5).toNat % 64 = 0 ∧ ((vfc 512).th.gr 4).toNat ≤ 512 ∧
    okH ((vfc 512).ldHeld (vfc 512).th.acc .read 0x30100 64) (fun bs u => (match cfgOf bs with | some (n, _) => n == 1 | none => false) &&
      u.nodeOf 512 == some 1) = true ∧
    Issues (.vfcfg k1 3 4 5) (withG base [(5, 0x30120)]) ∧
    (∀ p ∈ [(512, 65535), (513, 0), (0, 65536)], Issues (.l2msk k1 4 5) (withG base [(4, p.1), (5, p.2)])) := by
  unfold Issues; decide +kernel
/-- A join of the thread under way. -/
def joining (g : Option Nat) (w : Word) : State := { grouped g 1 with pl := { (grouped g 1).pl with joins := [(0, w)] } }
theorem test_witness_PartitionsAndGroups_clocks :
    (∀ a ∈ [0, 1, 65535, 65536], ∀ g ∈ [none, some 7], Issues (.clkj k1 3 4) (grouped g a) ∧
      (grouped g a).pl.joins.find? (·.1 == (grouped g a).th.tid) = none) ∧ (grouped (some 7) 1).pl.group.isSome = true ∧
    (let s := joining none 0x100000001
     Issues (.clkj k1 3 4) s ∧ s.pl.joins.find? (·.1 == s.th.tid) = some (0, 0x100000001) ∧ bits (0x100000001 : Word).toNat 33 32 = 1) := by
  unfold Issues; decide +kernel
theorem test_witness_PartitionsAndGroups_joins :
    (∀ p ∈ [(none, 0x200000001, 1), (some 7, 0x200000001, 1), (none, 1, 0), (some 7, 1, 0)], let s := joining p.1 p.2.1
      Issues (.clkj k1 3 4) s ∧ s.pl.joins.find? (·.1 == s.th.tid) = some (0, p.2.1) ∧ bits p.2.1.toNat 32 32 = 0 ∧
      bits p.2.1.toNat 33 33 = p.2.2) ∧
    (∀ b ∈ [false, true], let s : State := { grouped (some 7) 0 with
        pl := { (grouped (some 7) 0).pl with autoJoin := true }, eng := { base.eng with compacts := [(5, { comp mem0 1 with clk := b })] } }
     Issues (.clkl k1 3) s ∧ s.pl.group.isSome = true ∧ s.eng.compacts.any (·.2.clk) = b) ∧
    Issues (.clkl k1 3) (grouped none 0) ∧ Issues (.clkl k1 3) (grouped (some 7) 0) ∧ (grouped (some 7) 0).pl.autoJoin = false := by
  unfold Issues; decide +kernel
/-- Tile 0 with a domain that has threads and one that has none, and a descriptor of a third at 0x30100. -/
def doms (x : Nat) : State :=
  let s := withTile base (fun t => { t with dps := [{ dp1 0 with rbase := 0 }, ⟨true, 2, 1, 0, 0, 0, 8, 0, 64⟩, .reset, .reset] })
  let s := words s 0x30100 [2 ^ 63 + 3 * 2 ^ 47 + 5 * 2 ^ 39, 0, 8 * 2 ^ 32 + 100]
  withG { s with st := { s.st with parts := [1], binds := [(3, 1)] } } [(4, x), (5, 0x30100)]
theorem test_witness_DomainsAndBlocks :
    (∀ i ∈ [Instr.domcfgWrite k1 3 4 5, .domcfgAdjust k1 3 4 5, .domcfgClear k1 3 4 5],
      ∀ x ∈ [0x1000, 0x3000, 0x2800, 0x4000, 0x4800, 0x5000, 0x6000, 0xC000, 0x4018], Issues i (doms x) ∧ ((doms x).th.gr 4).toNat = x) ∧
    bits 0x4000 14 13 = 2 ∧ bits 0x4000 63 15 = 0 ∧ coordIdx (bits 0x4000 10 0) = some 0 ∧ (doms 0).retired 0 = false ∧
    (doms 0).domainBusy 0 (((doms 0).tile 0).dps.getD 0 .reset) = true ∧ (doms 0).domainBusy 0 (((doms 0).tile 0).dps.getD 1 .reset) = false ∧
    bits 0x4800 12 11 = 1 ∧ bits 0x5000 12 11 = 2 ∧ (((doms 0).tile 0).dps.getD 2 .reset).v = false ∧ bits 0xC000 63 15 ≠ 0 ∧
    coordIdx (bits 0x4018 10 0) = none ∧ bits 0x6000 14 13 = 3 ∧ bits 0x2800 14 13 = 1 ∧ bits 0x2800 12 11 = 1 ∧
    okH ((doms 0).ldHeld (doms 0).th.acc .read 0x30100 32) (fun bs u => !u.retired 0 &&
      (let q : Dp := { (u.tile 0).dps.getD 1 .reset with weight := (dpOf bs).weight, cway := (dpOf bs).cway }
       q.weight != 0 && ((u.tile 0).otherDps 1).all (waysApart q)) && !dpReserved bs && (u.tile 0).dpOk 2 (dpOf bs) &&
      (u.nodeOf (dpOf bs).dom).any (fun j => nodeTile j 0)) = true ∧
    ({ doms 0 with st := { (doms 0).st with retired := [0] } } : State).retired 0 = true ∧
    Issues (.domcfgWrite k1 3 4 5) (withG (doms 0) [(5, 0x30110)]) ∧ ((withG (doms 0) [(5, 0x30110)]).th.gr 5).toNat % 32 ≠ 0 := by
  unfold Issues; decide +kernel
/-- Block 287 and 288; each reserved field; an offer with its deadline and node. -/
theorem test_witness_DomainsAndBlocks_moves :
    (∀ i ∈ [Instr.memblkOffer k1 3 4 5, .memblkQuery k1 3 4 5, .memblkCancel k1 3 4 5],
      ∀ p ∈ [(287, 0x10004), (288, 1), (0, 2 ^ 32 + 1), (0, 0x201), (0, 3), (0, 0x10000), (0, 4), (287, 2)], Issues i (withG base [(4, p.1), (5, p.2)])) ∧
    (bits 0x10004 1 0 = 0 ∧ bits 0x10004 31 16 ≠ 0 ∧ bits 0x10004 8 2 ≠ 0 ∧ bits 0x10004 15 9 = 0) ∧ bits 0x201 15 9 ≠ 0 ∧ bits 3 1 0 = 3 ∧
    bits 0x10000 8 2 = 0 ∧ bits 4 31 16 = 0 ∧ (base.move 0).state ≠ 1 ∧
    ({ base with st := { base.st with moves := [(0, ⟨1, 0, 1, 9⟩)] } } : State).move 0 = ⟨1, 0, 1, 9⟩ := by
  unfold Issues; decide +kernel
theorem test_witness_ContextsAndKills_waits :
    let s : State := { killing false with pl := { (killing false).pl with posted := [.of 1 (2 ^ 60) 0 0 false 0] } }
    s.th.flow.ctx.isSome = true ∧ s.killWaits s.th.tid = true ∧ Issues (.kill k1 4) s ∧ Issues (.killDom k1 4) s := by
  unfold Issues; decide +kernel
def parked (done : Bool) : State :=
  withT (withF base (fun f => { f with outs := [⟨3, [], .parts [if done then .have [7] else .wait 1 0 1 0 0] (.scalar 0 0), none, 0⟩] }))
    (fun t => { t with status := .parked })
def arrival : Arrival := ⟨0, 1, 77, 2, 9, [5]⟩
def waiting : State := withT (withF part (fun f => { f with waitVa := some 0x30008, waitAt := some 0x30000 })) (fun t => { t with status := .waiting })
def ganged : State :=
  withF (withT base (fun t => { t with status := .gbar, info := { t.info with kind := 1, gang := 7 } })) (fun f => { f with gba := true })
def leaver (k : Nat) (out : Bool) : State :=
  withT (withF (mapped (recd part)) (fun f => { f with leave := k, egress := if out then [⟨0, [0], 1⟩] else [] })) (fun t => { t with status := .leaving })
theorem test_witness_ThreadSteps :
    let p := parked true
    let a := withF (vec part) (fun f => { f with asyncs := [⟨.record, 0, 0⟩] })
    let h := withF base (fun f => { f with held := [(⟨.align, 0, 0⟩, base.th.pc)] })
    let st (out : Bool) := withF (mapped (recd part)) (fun f => { f with preempt := 1, egress := if out then [⟨0, [0], 1⟩] else [] })
    okO (p.thread? 0) (fun _ => (p.focus 0).th.status == .parked && (p.focus 0).th.outsDone) = true ∧
    okO (a.thread? 0) (fun _ => (a.focus 0).th.heldHere.isNone && (a.focus 0).th.due.isSome && (a.focus 0).th.flow.outs.isEmpty) = true ∧
    okO (h.thread? 0) (fun _ => (h.focus 0).th.heldHere == some (⟨.align, 0, 0⟩, base.th.pc)) = true ∧
    (∀ b ∈ [false, true], okO ((st b).thread? 0) (fun _ => let u := (st b).focus 0
      let v : State := { u with th := { u.th.giveUp with flow := { u.th.giveUp.flow with leave := 3 } } }
      u.stopDue u.th && u.th.flow.outs.isEmpty && u.stopKind u.th == 1 && v.mayLeave v.th == !b) = true) := by
  decide +kernel
theorem test_witness_ThreadSteps_slots :
    let wd := withF (pkt 1) (fun f => { f with wdog := true })
    let sm := withF part (fun f => { f with holder := true })
    let bad := withT base (fun t => { t with pc := 0x40000 })
    let lar := withF part (fun f => { f with hold := 3 })
    okO ((leaver 1 false).thread? 0) (fun t => t.status == .leaving && (leaver 1 false).mayLeave t && t.flow.leave < 3) = true ∧
    okO ((leaver 3 false).thread? 0) (fun t => t.status == .leaving && (leaver 3 false).mayLeave t && t.flow.leave == 3) = true ∧
    okO ((leaver 6 false).thread? 0) (fun t => t.status == .leaving && (leaver 6 false).mayLeave t && 6 ≤ t.flow.leave) = true ∧
    okO ((leaver 3 true).thread? 0) (fun t => t.status == .leaving && !(leaver 3 true).mayLeave t) = true ∧
    okO (sm.thread? 0) (fun t => t.flow.holder && t.priv != .h && t.status == .ready && t.flow.hold != 3) = true ∧
    okO (base.thread? 0) (fun t => t.priv == .h) = true ∧
    okO (wd.thread? 0) (fun t => t.flow.wdog && t.flow.packet.isSome) = true ∧
    okO (waiting.thread? 0) (fun t => t.status == .waiting && t.flow.waitVa.isSome && t.flow.waitAt.isSome && t.info.kind != 1 && t.caller.isNone &&
      (waiting.nodeOf t.home).isSome && (waiting.memberOf 0).isNone && waiting.leaveReady { t with flow := { t.flow with leave := 2 } }) = true ∧
    okO (lar.thread? 0) (fun t => t.flow.hold == 3 && lar.larderUsed (dieOf t.tile) < 2097152 && t.flow.holder && lar.canRun t) = true ∧
    (∀ k ∈ [1, 3], let s := leaver k false
      let t := { s.th with info := { s.th.info with ckv := false, rin := 0 } }
      let w := s.putLines t.home 1100 t.info.save (t.image ++ t.block)
      s.th.flow.leave = k ∧ w.2 = none ∧ (w.1.putLines t.home 2 t.info.addr (t.record (if k = 1 then 4 else 1))).2 = none) ∧
    base.th.live = true ∧ bad.th.live = true ∧ (match bad.fetchAt bad.th.pc with | .trap _ => true | _ => false) = true := by
  decide +kernel
/-- A walk that the TLB meets, one that fills it, and one that ends in a fault; cached and scratch bytes. -/
theorem test_witness_ThreadSteps_memory :
    let s : State := { mapped part with ms := { (mapped part).ms with tlb := [] } }
    (okO (base.thread? 0) (fun t => okO (base.tlb? t.tile t.fn 0x3FFFF) (fun x => (permError x.leaf t.priv .write).isNone &&
      (x.leaf ||| needBits .write) == x.leaf))) = true ∧ canonical 0x3FFFF = true ∧
    (okO (s.thread? 0) (fun t => (s.tlb? t.tile t.fn 0x30000).isNone && bitOf (s.rootOf t.fn) 0 && s.pkgLive (bits (s.rootOf t.fn) 51 48) &&
      okE (s.walkFrom 0x30000 walkLevels (bits (s.rootOf t.fn) 51 8 * 256) []) (fun r =>
        (leafError r.2.1 r.2.2.1 0x30000).isNone && (permError r.2.1 t.priv .read).isNone))) = true ∧
    (let u := words s 0x34018 [0x300E9]
     okE (u.walkFrom 0x30000 walkLevels (bits (u.rootOf 1) 51 8 * 256) []) (fun r => (permError r.2.1 .s .read).isSome)) = true ∧
    lineOf (0x30000 % 2 ^ 48) = some 0x30000 ∧ regionOf (0x30000 % 2 ^ 48) = .dram ∧ base.pinOfHome 0x30000 = none ∧
    (match base.tagged 0 0x30000 (base.rinOf 0) 0x30000 false with | .ok _ => true | _ => false) = true ∧
    (∀ o ∈ [0, 0x2FFFF], (part.retired 0 = false ∧ o < Config.sramSize ∧ part.bankGranted 0 1 (o / Config.bankSize) = true) ∧
      part.bankScratch 0 (o / Config.bankSize) = true ∧ part.pinOfSram 0 (o / 192) = none ∧ part.badAt (sramAddr 0 o) 1 = false) := by
  decide +kernel
/-- Claims of a record that is well formed, of one that is not, and of one on a page that is not there; a gang at its barrier; packets of
this package and of another, to a domain that is there and to one that is not; an answer. -/
def claiming (a : Nat) (w : Nat) : State :=
  let s := words (stored 1) 0x30420 (if w = 0 then [] else [w])
  { s with st := { s.st with runq := [⟨0, 1, 3, BitVec.ofNat 64 a⟩] } }
def claimOk (s : State) (f : Load → Bool) : Bool :=
  (s.thread? 1).isNone && !s.retired 0 && !s.slicedOut 1 && !s.atRest 1 && (s.nodeOf 1).isSome &&
    ((s.tile 0).dps.filter (fun d => d.v && bitOf d.tslot 1)).length == 1 &&
    (match s.runList 0 1 3 with
      | [e] => f (s.loadRecord e.dom e.recA 1) && (match s.recGang e with | some (1, _, _) => false | _ => true)
      | _ => false)
theorem test_witness_ThreadSteps_queues :
    claimOk (claiming 0x30400 0) okL = true ∧
    claimOk (claiming 0x30400 0x8000000000000000) (fun l => match l with | .invalid _ => true | _ => false) = true ∧
    claimOk (claiming 0x60000 0) (fun l => match l with | .cut _ => true | _ => false) = true ∧
    okO (ganged.threads.find? (fun t => t.tile == 0 && t.info.kind == 1 && t.info.gang == 7)) (fun t =>
      (ganged.gangOfThread t).all (fun u => u.flow.gba && ganged.storesDone u.tid)) = true ∧
    coordIdx (arrival.coord % 2048) = some 0 ∧ (part.tile 0).dp? arrival.dom = some (0, dp1 1) ∧
    ((part.tile 0).rxq.getD 0 []).length + 512 ≤ 512 ∧ (part.tile 0).dp? 2 = none ∧
    (∀ d ∈ [1, 2], let s := withT (egr 1) (fun t => { t with dom := d })
      okO (s.thread? 0) (fun t => t.flow.egress == [⟨0, [0], 1⟩]) = true ∧ s.coordOf d 0 = some (1, s.me, 0)) ∧
    (egr 1).coordOf 1 24 = none ∧
    (let s : State := { base with eng := { base.eng with router := [.packetAck 0 1 true] } }
     s.eng.router.find? (fun m => match m with | .packetAck src _ _ => src == 0 | _ => false) = some (.packetAck 0 1 true)) := by
  decide +kernel

/-- A compact of `mb` at its boundary: its member arrived with a vote; changed by `f`. -/
def arrived (f : Compact → Compact) : State :=
  let mb := { mem0 with vote := some (1, 0, 0), exchDone := true }
  withT { part with eng := { part.eng with compacts := [(5, f (comp mb 1))] } } (fun t => { t with status := .sync })
/-- All members arrived, with nothing in flight. -/
def atBoundary (s : State) (votes : List (Nat × Nat)) : Bool :=
  okO (s.compact? 5) (fun c => !c.preempted && c.fault == 0 && c.phase == 0 && (s.tellArrivals 5 c).isNone && votes.all (·.2 < 16) && c.fly.isEmpty && c.sent.isEmpty &&
    c.members.all (fun m => m.vote.isSome && okO (s.thread? m.tid) (fun t => t.status == .sync)) &&
    c.members.length + votes.length == c.nmem && (s.gangOf 5).all (fun t => s.storesDone t.tid && !s.farAwaited c t))
def preempted (far : Bool) : State :=
  let s := signed mem0 1
  let pin : Pin := ⟨2 ^ 60 + 3 * 2 ^ 48 + 0x30000, 5, none, 0, 0, 0, false, true, true⟩
  { mapped s with eng := { s.eng with compacts := [(5, { comp { mem0 with recs := [] } 1 with preempted := true })] }
                  ms := { (mapped s).ms with pins := if far then [pin] else [] } }
theorem test_witness_UnitSteps_compacts :
    atBoundary (arrived id) [] = true ∧ atBoundary (arrived (fun c => { c with nmem := 2 })) [(1, 1)] = true ∧
    atBoundary (arrived (fun c => { c with nmem := 2 })) [(3, 0)] = true ∧
    (let s := arrived (fun c => { c with nmem := 2, clk := true })
     okO (s.compact? 5) (fun c => okO (s.tellArrivals 5 c) (fun z => z.2.members.length + 0 != z.2.nmem) && c.phase == 0)) = true ∧
    (∀ k ∈ [1, 2], let s := arrived (fun c => { c with phase := k })
      okO (s.compact? 5) (fun c => c.phase == k && s.gangStill 5 c) = true) ∧
    (∀ f ∈ [false, true], let s := preempted f
      okO (s.compact? 5) (fun c => c.preempted && !s.slicedOut c.dom && !s.atRest c.dom && c.members.all (fun m => m.recs.isEmpty)) = true ∧
      s.pl.refills.any (·.bar == 5) = false ∧ s.pl.posted.any (·.tid == 2 ^ 60 + 5) = false ∧
      ((s.pinsOf 5).filter (fun p => p.away && 2 ^ 60 ≤ p.line)).isEmpty = !f) ∧
    (signed { mem0 with dissolving := true } 1).compact? 5 = some (comp { mem0 with dissolving := true } 1) ∧
    (signed mem0 1).compact? 5 = some (comp mem0 1) ∧ (comp mem0 1).fault = 0 ∧ (comp mem0 1).xto = 0 ∧
    (comp mem0 1).members.any (·.tile == 0) = true ∧ 0x17FFF8 + (leBytes 8 0).length ≤ Config.sramSize ∧
    (let c : Compact := { comp { mem0 with vote := some (1, 0, 0) } 1 with xto := 3, fly := [⟨8, 0, 1, 0, 64, true, 72, 0⟩] }
     c.xto ≠ 0 ∧ c.fly.any (·.path == 1) = true ∧ ({ c with sent := [⟨7, 1, 3, 0, 8⟩] } : Compact).sent.any (·.path == 1) = true ∧ c.members.all (·.vote.isSome) = true ∧ c.sent = [] ∧ part.coordOf c.dom 0 = some (1, part.me, 0)) := by
  decide +kernel
def running (c : MCmd) (rows : Nat) (sc : List ScaleEntry) : State :=
  withTile mats (fun t => { t with mrun := [⟨⟨c, 0, 0, 0⟩, [], if rows < 32 then List.replicate 4096 0 else [], 0, rows, 0⟩], scq := sc })
def routed (m : RouterMsg) : State := { part with eng := { part.eng with router := [m] } }
theorem test_witness_UnitSteps_matrix :
    (∀ v ∈ [Guard.tru, .fls], let s := withF (withT mats (·.setGuard 1 v)) (fun f => { f with mq := [⟨.mzero 0 1024, 1, 0, 0⟩] })
      okO (((List.range 16).map (fun i => 0 * 16 + ((s.tile 0).mlast + 1 + i) % 16)).findSome? (fun x => (s.thread? x).filter (fun t => !t.flow.mq.isEmpty)))
        (fun th => th.flow.mq == [⟨.mzero 0 1024, 1, 0, 0⟩] && th.cond 1 == v && !(MCmd.mzero 0 1024).isScale && !th.readsAcc 1024) = true) ∧
    (let o : MOper := ⟨0, 0, 0, 0x20, true, true⟩
     let e : ScaleEntry := ⟨1, 0, 0, []⟩
     let s := running (.mma 0 1024 o o 32) 32 [e]
     okO (s.tile 0).mrun.head? (fun r => r.entry.cmd.scaled && r.scales.length < r.entry.cmd.chunks) = true ∧
      (s.tile 0).scq.find? (fun e => e.slot == 0 % 16 && e.acc == (MCmd.mma 0 1024 o o 32).acc) = some e) ∧
    (∀ k ∈ [0, 24, 28], okO ((running (.mzero 0 1024) k []).tile 0).mrun.head? (fun r => !r.entry.cmd.scaled && !r.res.isEmpty &&
      !r.entry.cmd.isGone && r.rows == k) = true) ∧
    (routed (.status 0 1 1 7)).eng.router.find? (fun m => match m with | .status src _ _ _ => src == 0 | _ => false) = some (.status 0 1 1 7) ∧
    (∀ d ∈ [1, 2], firstFor 0 isScaleMsg (routed (.scale 0 0 1 0 d [[]])).eng.router [] = some (.scale 0 0 1 0 d [[]])) ∧
    part.retired 0 = false ∧ (part.tile 0).dp? 2 = none ∧ (part.tile 0).dp? 1 = some (0, dp1 1) ∧ (part.tile 0).scaleRoom 1 = 64 ∧
    ((withTile part (fun t => { t with host := t.host.set 0 (true, 0) })).tile 0).host.getD 0 (false, 0) = (true, 0) ∧
    (∀ c ∈ [0, 6], (routed (.scaleAck 0 1 c)).eng.router.any (fun m => match m with | .scaleAck src k _ => src == 0 && k == 1 | _ => false) = true) ∧
    acvtCtl 8 = none ∧ firstFor 0 isAcvt (routed (.acvt 0 0 1 0 8 0 1)).eng.router [] = some (.acvt 0 0 1 0 8 0 1) ∧
    (∀ d ∈ [1, 2], let s := withT (routed (.rows 0 1 8 [1] 0)) (fun t => { t with dom := d })
      s.eng.router.find? (fun m => match m with | .rows src _ _ _ _ => src == 0 | _ => false) = some (.rows 0 1 8 [1] 0) ∧
      okO (s.thread? 0) (fun t => (s.localCheck { t with dom := t.home } 8 1 8 == .ok) == (d == 1)) = true) := by
  decide +kernel
/-- A capability of the machine's own making (11:R158): its fields are read back. -/
theorem cap_fields (hi : Nat) (h : hi < 2 ^ 32) (b : BitVec 32) :
    let x := (BitVec.ofNat 64 (hi * 2 ^ 32 + b.toNat)).toNat
    x / 2 ^ 32 = hi ∧ x % 2 ^ 32 = b.toNat ∧ bits x 63 54 = hi / 2 ^ 22 ∧ (∀ k, 32 ≤ k → bitOf x k = bitOf hi (k - 32)) := by
  have hb := b.isLt
  have e : (BitVec.ofNat 64 (hi * 2 ^ 32 + b.toNat)).toNat = hi * 2 ^ 32 + b.toNat := by rw [BitVec.toNat_ofNat]; omega
  simp only [e]
  have q : (hi * 2 ^ 32 + b.toNat) / 2 ^ 32 = hi := by omega
  refine ⟨q, by omega, ?_, fun k hk => ?_⟩
  · simp only [bits]; omega
  · obtain ⟨j, rfl⟩ : ∃ j, k = j + 32 := ⟨k - 32, by omega⟩
    simp only [bitOf, Nat.add_sub_cancel, Nat.pow_add, Nat.mul_comm (2 ^ j), ← Nat.div_div_eq_div_mul, q]
/-- A tile whose domain has a host thread and a capability with every right and one use left. -/
def capHi : Nat := 2 ^ 22 + 7 * 2 ^ 8
def capOf (s : State) : Word := BitVec.ofNat 64 (capHi * 2 ^ 32 + (Config.mac s.pl.key 0 capHi 0).toNat)
def hosting : State := withTile mats (fun t => { t with host := t.host.set 0 (true, 0), cuse := t.cuse.set 0 1 })
theorem cap_taken (rights : List Nat) (hr : ∀ k ∈ rights, k = 40 ∨ k = 41 ∨ k = 42) :
    hosting.capCheck 0 (capOf hosting) 1 rights 0 = .ok (0, hosting.th) := by
  obtain ⟨h1, h2, h3, h4⟩ := cap_fields capHi (by decide) (Config.mac hosting.pl.key 0 capHi 0)
  have hd : (hosting.tile 0).dp? 1 = some (0, dp1 1) := by decide +kernel
  have hr : rights.all (bitOf (capOf hosting).toNat) = true := by
    rw [List.all_eq_true]
    intro k hk
    have := hr k hk
    rw [capOf, h4 k (by omega)]
    rcases this with rfl | rfl | rfl <;> decide
  have h3' : bits (capOf hosting).toNat 63 54 = 1 := by rw [capOf, h3]; decide
  simp only [State.capCheck, h3', hd, hr, Option.map_some, Option.getD_some]
  rw [if_neg (by decide +kernel), if_neg (by
    rw [show ((hosting.tile 0).cep.getD 0 0) = 0 by decide +kernel, capOf, h1, h2]; simp)]
  decide +kernel
theorem test_witness_UnitSteps_capabilities :
    (∃ r, hosting.capCheck 0 (capOf hosting) 1 [40, 42] 0 = .ok r) ∧ (∃ r, hosting.capCheck 0 (capOf hosting) 1 [40] 0 = .ok r) ∧
    (∃ r, hosting.capCheck 0 (capOf hosting) 1 [41] 0 = .ok r) ∧
    (∀ r ∈ [(0 : Reg), 3], okE ((hosting.tile 0).operands (hosting.th.gr 4) (hosting.th.gr 5) (hosting.th.gr r)) (fun _ => true) = true) ∧
    hosting.windowTrap hosting.th [0, 1] = none ∧ (hosting.tile 0).mrecv = [] ∧ (hosting.tile 0).mrun = [] ∧
    (∀ c : Word, firstFor 0 isMmar [.mmar 0 0 1 0 0 1 32 c 1] [] = some (.mmar 0 0 1 0 0 1 32 c 1)) ∧
    (∀ (s : State) (e : Engines), ({ s with eng := e } : State).capCheck = s.capCheck) ∧
    ({ hosting with st := { hosting.st with retired := [0] } } : State).capCheck 0 0 1 [40] 0 = .error 3 ∧
    okO (acvtCtl (0x20 * 2 ^ 19 + 1 * 2 ^ 13 + 31 * 2 ^ 8)) (fun k => hosting.th.rowsDone k) = true := by
  refine ⟨⟨_, cap_taken _ (by simp)⟩, ⟨_, cap_taken _ (by simp)⟩, ⟨_, cap_taken _ (by simp)⟩, by decide +kernel, by decide +kernel,
    by decide +kernel, by decide +kernel, fun _ => rfl, fun _ _ => rfl, by decide +kernel, by decide +kernel⟩
def pantried (a : Nat) : State :=
  { mapped part with eng := { part.eng with tasks := [{ node with started := false, pri := 3, recA := BitVec.ofNat 64 a, save := 0x30800 }], pantry := [(0, 0)] } }
/-- A started job of a copy engine over its card. -/
def jobsOf (s : State) (j : JobEntry) : State := s.setEngine 0 ⟨[j], 6, [], 0⟩
theorem test_witness_UnitSteps_engines :
    let f : JobEntry := { jobAt 0 1 with win := some 31 }
    let s := part.setEngine 0 ⟨[], 0, [f], 0⟩
    let card (w : Nat) := words (mapped part) 0x30100 [w]
    let reads (s : State) (p : List Byte → Bool) : Bool := okE (s.engRead (jobAt 0 1).acc 0x30100 256) (fun r => p r.1)
    s.engineUsed 0 < queueSize 0 ∧ nearest (s.engine 0).last (s.engine 0).subs = some f ∧ (jobs 0 1).nextStart 0 = some (jobAt 0 1) ∧
    (let g := withT (jobsOf part { jobAt 0 1 with guard := 1 }) (·.setGuard 1 .fls)
     okO (g.nextStart 0) (fun j => g.jobGuard j == .fls) = true) ∧
    (jobs 0 1).jobGuard (jobAt 0 1) = .tru ∧
    okO ((jobsOf (mapped part) { jobAt 0 1 with card := 0x60000 }).nextStart 0) (fun j => errE ((mapped part).engRead j.acc j.card 256)) = true ∧
    reads (card 0) (fun c => !(cardBreaches 1 c).isEmpty) = true ∧ reads (card (2 ^ 60)) (fun c => (cardBreaches 1 c).isEmpty) = true ∧
    (∀ k ∈ [1, 3], ((jobs k 3).engine 0).jobs.filter (fun j => j.stage == 1 || j.stage == 3) = [jobAt k 3] ∧ (jobs k 3).jobPosted (jobTid 0 5) = false) ∧
    (let r := (mapped part).writeStatus (jobAt 1 3).acc (jobTid 0 5) 0x30100 3 1 0 5 0
     r.2.1 = none ∧ r.2.2 = [] ∧ r.1.jobPosted (jobTid 0 5) = false) ∧
    (let r := (farPage (mapped part)).writeStatus (jobAt 1 3).acc (jobTid 0 5) 0x50100 3 1 0 5 0
     r.2.1 = none ∧ r.2.2 = [] ∧ r.1.jobPosted (jobTid 0 5) = true) ∧
    (∀ b ∈ [false, true], let d := (withTile part (fun t => { t with wins := [(31, { win 0 with state := 1, drop := b })] })).setEngine 0 ⟨[{ f with stage := 2, st := 3 }], 0, [], 0⟩
      (d.engine (copyEngine 0)).jobs.find? (fun j => j.win == some 31 && j.tile == 0 && j.stage == 2) = some { f with stage := 2, st := 3 } ∧
      ((d.dropJob (copyEngine 0) 5).tile 0).win? 31 = some { win 0 with state := 1, drop := b }) ∧
    (∀ a ∈ [0x30400, 0x60000], let s := pantried a
      ((s.eng.tasks.filter (fun n => n.die == 0)).map (·.dom)).dedup = [1] ∧ s.slicedOut 1 = false ∧ s.atRest 1 = false ∧ s.nodeOf 1 ≠ none ∧
      s.runList 0 1 3 = [] ∧
      (match s.pantryList 0 1 3 with
        | [n] => s.taskSlot n == some 1 &&
            (match s.writeThread (n.kern.thread n.dom n.recA n.save n.arg 0 2 n.die n.id n.pri) with
              | .error x => a == 0x60000 && x.cause.code == 5
              | .ok u => a == 0x30400 && okO (u.bindTable n.dom n.kern [0]) (fun v => okL (v.loadRecord n.dom n.recA 1)))
        | _ => false) = true) := by
  decide +kernel

/-- Queue 0 of function 1 over its ring of 16 entries at 0x30100, in a pass over one entry with words `e` or, with no entry, before it. -/
def queued (e : List Nat) (f : Queue → Queue) : State :=
  let s := words (mapped part) 0x30100 e
  let q : Queue := { Queue.reset with base := 0x30100, ctl := 0x10004, qwr := 1, pending := e.isEmpty
                                      pass := if e.isEmpty then none else some (0x30100, 0x10004, 1) }
  { s with st := { s.st with vcps := [(1, Vcp.reset.setQueue 0 (f q))] } }
def cmd (op : Nat) : Command := ⟨op, 0, [], [], 0x30208, none, 0⟩
/-- Which guard of the start of a pass a queue meets. -/
def passKind (s : State) : Nat :=
  let x := (s.vcp 1).queue 0
  let lg := Queue.log x.ctl
  let y : Queue := if x.state = 0 then { x with qrd := 0 } else x
  if x.pass.isSome then (if (s.nextEntry 1 0).isNone then 1 else 0)
  else if (s.vcp 1).firstPending != some 0 || s.atRest 1 then 0
  else if !Queue.enabled x.ctl then 2
  else if x.state = 3 ∨ x.state = 4 then 3
  else if lg < 4 ∨ 16 < lg then 4
  else if (s.cfg 1).qmax < Queue.prio x.ctl then 5
  else if !s.ringOk 1 (BitVec.ofNat 64 (x.base.toNat / 65536 * 65536)) 1 .read then 6
  else match s.ringTouch 1 x.base (64 * 2 ^ lg) .read with
    | none => 7
    | some _ => if 2 ^ lg < (y.qwr + 2 ^ 32 - y.qrd) % 2 ^ 32 then 8 else if y.qwr = y.qrd then 9 else 10
theorem test_witness_StewardSteps_passes :
    [queued [6 * 2 ^ 56] id, queued [] (fun q => { q with ctl := 4 }), queued [] (fun q => { q with state := 4 }),
      queued [] (fun q => { q with ctl := 0x10003 }), queued [] (fun q => { q with ctl := 0x10011 }), (let s := queued [] (fun q => { q with ctl := 0x10304 })
       { s with st := { s.st with cfgs := [(1, { VfCfg.reset with qmax := 1 })] } }), queued [] (fun q => { q with base := 0x60000 }), queued [] (fun q => { q with base := 0x3FFC0 }), queued [] (fun q => { q with qwr := 17 }),
      queued [] (fun q => { q with qwr := 0 }), queued [] (fun q => { q with qwr := 16 })].map passKind =
      [1, 2, 3, 4, 4, 5, 6, 7, 8, 9, 10] := by
  decide +kernel
/-- The next entry's operation code is `op`, its function is not rolling back, and its words 1 and 2 meet `p` in the state after its read. -/
def entryIs (s : State) (op : Nat) (p : State → Nat → Nat → Bool) : Bool :=
  !s.atRest 1 && !(s.vcp 1).outranked 0 && okO (s.nextEntry 1 0) (fun e => bits (e.getD 0 0) 63 56 == op && p (s.entryRead 1 0) (e.getD 1 0) (e.getD 2 0))
theorem test_witness_StewardSteps :
    entryIs (queued [0] id) 0 (fun _ _ _ => true) = true ∧
    (∀ a ∈ [0x30200, 0x60000], entryIs (queued [4 * 2 ^ 56, a, 7] id) 4 (fun z x y =>
      okE (z.signal 1 (BitVec.ofNat 64 x) (leBytes 8 y)) (fun _ => true) == (a == 0x30200)) = true ∧
      entryIs (queued [3 * 2 ^ 56, a] id) 3 (fun z x _ =>
        okE (z.signal 1 (BitVec.ofNat 64 x) (leBytes 8 0 ++ leBytes 8 (z.rinOf 1))) (fun u => u.rinOf 1 != 0) == (a == 0x30200)) = true) ∧
    (let s := queued [3 * 2 ^ 56, 0x30200] id
     entryIs (s.setRgs 1 { s.rgs 1 with rin := 0 }) 3 (fun z x _ => okE (z.signal 1 (BitVec.ofNat 64 x) (leBytes 16 0)) (fun u => u.rinOf 1 == 0)) = true) ∧
    (((queued [0] id).vcp 1).queue 0).cmds = [] ∧
    (∀ y ∈ [0, 1], entryIs (queued [5 * 2 ^ 56, 0x30200, y] id) 5 (fun z x n => okE (z.sysWord 1 (BitVec.ofNat 64 x)) (fun v => v == 0 && n == y)) = true) ∧
    (∀ a ∈ [true, false], entryIs (words (queued [5 * 2 ^ 56, 0x40200, 1] id) 0x34020 [if a then 0x400EF else 0x400AF]) 5 (fun z x n =>
      okE (z.sysWord 1 (BitVec.ofNat 64 x)) (fun v => v < n) && okE (z.sysPieces 1 .read (BitVec.ofNat 64 x) 8) (fun r => (r.2.ms.mem == z.ms.mem) == a)) = true) ∧
    entryIs (queued [5 * 2 ^ 56, 0x60000, 0] id) 5 (fun z x _ => errE (z.sysWord 1 (BitVec.ofNat 64 x))) = true ∧
    (let s := queued [0] (fun q => { q with cmds := [cmd 3] })
     ((s.vcp 1).queue 0).cmds = [cmd 3] ∧ sealedPast (s.rinOf 1) (cmd 3).upto = true) := by
  decide +kernel
/-- A queue with a launch whose kernel header at 0x30240 has `h`, over words `ws` of memory. -/
def launching (op a1 recs a2 a3 : Nat) (h : List Nat) (ws : List (Nat × Nat)) : State :=
  let s := queued [op * 2 ^ 56, 0x30240, a1, recs, 0x38000, a2, 0x36000, a3] id
  ws.foldl (fun s p => words s p.1 [p.2]) (words s 0x30240 h)
def kernel : List Nat := [0x434C5846 * 2 ^ 32 + 1, 0x40]
def kernelTab : List Nat := kernel ++ [0, 0, 0, 0, 0x60000, 256]
def hasRoom (b : State) (ts : List Thread) (stat : Nat) : Bool :=
  let ok (va : Word) (n : Nat) : Bool := b.usable 1 .read va n && b.usable 1 .write va n
  ts.all (fun t => ok t.info.addr 64 && ok t.info.save ((t.gran + 1) * 1024)) && b.usable 1 .write (BitVec.ofNat 64 stat) 8
/-- Which guard a launch meets: its header, its table of windows, the room of its threads, or none. -/
def launchKind (s : State) : Nat := match s.nextEntry 1 0 with
  | none => 0
  | some e =>
    let z := (s.entryRead 1 0).sysTouch 1 (BitVec.ofNat 64 (e.getD 1 0)) 64
    match z.launchHeader 1 (BitVec.ofNat 64 (e.getD 1 0)) true with
    | .error _ => 1
    | .ok k => match z.bindTable 1 k (z.launchTiles 1) with
      | none => 2
      | some b => if hasRoom b ((List.range (e.getD 5 0)).map (launchThread k 1 0 e)) (e.getD 6 0) then 4 else 3
theorem test_witness_StewardSteps_launches :
    [launching 1 0 0x37000 2 0 [0] [], launching 1 0 0x37000 2 0 kernelTab [], launching 1 0 0x60000 2 0 kernel [],
      launching 1 0 0x37000 2 0 kernel []].map launchKind = [1, 2, 3, 4] := by
  decide +kernel
/-- The same for a compact's launch: header, its record's header, its counts, its members' bytes, its tiles, scale server, table, room. -/
def claunchKind (s : State) : Nat := match s.nextEntry 1 0 with
  | none => 0
  | some e =>
    let a1 := BitVec.ofNat 64 (e.getD 2 0)
    let z := ((s.entryRead 1 0).sysTouch 1 (BitVec.ofNat 64 (e.getD 1 0)) 64).sysTouch 1 a1 64
    match z.launchHeader 1 (BitVec.ofNat 64 (e.getD 1 0)) false, z.sysRead 1 a1 64 with
    | .error _, _ => 1
    | _, .error _ => 2
    | .ok k, .ok h =>
      let n := bits (wordAt h 0) 15 0
      if n = 0 ∨ 24576 < n ∨ bits (wordAt h 0) 25 16 ≠ 1 then 3
      else match z.sysRead 1 a1 (64 + 288 * n) with
        | .error _ => 4
        | .ok bs =>
          let y := z.sysTouch 1 a1 (64 + 288 * n)
          match y.launchMembers 1 bs n with
          | none => 5
          | some ms => match y.launchLoft 1 (e.getD 5 0) (e.getD 7 0) with
            | none => 6
            | some l => match y.bindTable 1 k (ms.map (·.2.1)) with
              | none => 7
              | some b => if hasRoom b (ms.map (fun m => { launchThread k 1 0 e m.1 with pc := m.2.2 })) (e.getD 6 0) then (if l.isSome then 9 else 8) else 10
theorem test_witness_StewardSteps_claunches :
    let r := [(0x30400, 2 ^ 16 + 1)]
    [launching 2 0x30400 0x37000 0 0 [0] r, launching 2 0x60000 0x37000 0 0 kernel r, launching 2 0x30400 0x37000 0 0 kernel [],
      launching 2 0x3FFC0 0x37000 0 0 kernel [(0x3FFC0, 2 ^ 16 + 1)], launching 2 0x30400 0x37000 0 0 kernel (r ++ [(0x30440, 24)]),
      launching 2 0x30400 0x37000 0x8000 (128 * 2 ^ 24 + 0x17FFC0) kernel r, launching 2 0x30400 0x37000 0 0 kernelTab r,
      launching 2 0x30400 0x37000 0 0 kernel r, launching 2 0x30400 0x37000 0x8000 (64 * 2 ^ 24) kernel r,
      launching 2 0x30400 0x60000 0 0 kernel r].map claunchKind = [1, 2, 3, 4, 5, 6, 7, 8, 9, 10] := by
  decide +kernel
/-- A member that waits for a slot, whose record is good, stale, and not there; a launch whose one thread has ended well, or badly. -/
theorem test_witness_StewardSteps_commands :
    (∀ p ∈ [(1, 0x30400), (4, 0x30400), (1, 0x60000)],
      let c : Command := ⟨2, 0, [], [(BitVec.ofNat 64 p.2, 0)], 0, none, 0⟩
      let s : State := { stored p.1 with st := { (stored p.1).st with vcps := [(1, Vcp.reset.setQueue 0 { Queue.reset with cmds := [c] })] } }
      s.atRest 1 = false ∧ ((s.vcp 1).queue 0).cmds = [c] ∧ (s.freeSlots 0 1).head? = some 1 ∧
      s.retired 0 = false ∧ s.slicedOut 1 = false ∧ ({ s with st := { s.st with retired := [0] } } : State).retired 0 = true ∧
      (match s.loadRecord 1 (BitVec.ofNat 64 p.2) 1 with | .ok _ => p == (1, 0x30400) | .lost => p.1 == 4 | .cut _ => p.2 == 0x60000 | _ => false) = true) ∧
    (∀ k ∈ [4, 5], (stored k).recState 1 0x30400 = some k) := by
  decide +kernel
/-- Node 1's group in a seal, prepared, or forced. -/
def sealed (g : Rgs → Rgs) : State := part.setRgs 1 (g { Rgs.reset with sealing := true })
theorem test_witness_StewardSteps_seals :
    let k := sealed (fun g => { g with peers := [3] })
    let q := { sealed (fun g => { g with peers := [3], prepared := [3] }) with pl := { part.pl with pkg := 5, joined := true } }
    let c (ps : List Nat) := sealed (fun g => { g with peers := ps, prepared := 0 :: ps })
    (k.rgs 1).sealing = true ∧ (k.rgs 1).prepared.contains 3 = false ∧ (k.rgs 1).peers.contains 3 = true ∧ (k.rgs 1).roll = none ∧
    k.settleCommit 1 = k ∧ k.coordinator 1 = k.me ∧ (k.rgs 1).late = false ∧ (k.rgs 1).cmt = false ∧
    (withT k (fun t => { t with dom := 0 })).partsDone 1 = true ∧ (q.rgs 1).prepared.contains q.me = false ∧ q.coordinator 1 ≠ q.me ∧
    (let p := q.setRgs 1 { q.rgs 1 with prepared := [5, 3] }
     (p.rgs 1).prepared.contains p.me = true ∧ (p.rgs 1).cmt = false ∧ p.coordinator 1 ≠ p.me) ∧
    (∀ ps ∈ [[3], [3, 4]], ((c ps).rgs 1).acked.contains 3 = false ∧ (c ps).coordinator 1 = (c ps).me ∧ ((c ps).rgs 1).sealing = true ∧
      (∀ k ∈ (c ps).groupPkgs 1, ((c ps).rgs 1).prepared.contains k = true) ∧
      ((∀ k ∈ ps, [3].contains k = true) ↔ ps = [3])) ∧
    ((sealed (fun g => { g with cmt := true })).rgs 1).cmt = true ∧ ((sealed (fun g => { g with forced := true })).rgs 1).forced = true := by
  decide +kernel
/-- Rollbacks: with no cellar, at a start, with every package stopped; a strike on no partition; a hang. -/
theorem test_witness_StewardSteps_rollbacks :
    let z := part.setRgs 1 { Rgs.reset with ccap := 8 }
    let r := part.setRgs 1 { Rgs.reset with ccap := 8, roll := some ⟨1, 0, 0⟩, stopped := [(0, 1, false)] }
    let h := queued [0] (fun q => { q with ctl := 2 ^ 32 + 0x10004, seen := 2 ^ 32 + 0x10004 })
    part.isPart 1 = true ∧ part.settleCommit 1 = part ∧ (part.rgs 1).ccap = 0 ∧ z.settleCommit 1 = z ∧ (z.rgs 1).ccap ≠ 0 ∧
    z.inCellar 1 0 0x30000 = false ∧ (z.rgs 1).roll = none ∧ (r.rgs 1).roll = some ⟨1, 0, 0⟩ ∧ r.pl.posted.any (·.node == 1) = false ∧
    (∀ k ∈ r.groupPkgs 1, (r.rgs 1).stopped.any (·.1 == k) = true) ∧ (∀ x ∈ (r.rgs 1).stopped, x.2.2 = false) ∧
    (let g := r.setRgs 1 { r.rgs 1 with stopped := [] }
     (g.rgs 1).stopped.any (·.1 == g.me) = false ∧ (g.rgs 1).roll.isSome = true) ∧
    part.isPart 2 = false ∧ coordIdx (8 * 2048 % 2048) = some 0 ∧ h.oldest 1 0 = some 0 ∧ h.nodeOf 1 = some 1 ∧
    bits ((h.vcp 1).queue 0).seen.toNat 47 32 ≠ 0 ∧ h.slicedOut 1 = false ∧
    (let u : State := { h with st := { h.st with binds := [] } }
     u.oldest 1 0 = some 0 ∧ bits ((u.vcp 1).queue 0).seen.toNat 47 32 ≠ 0 ∧ u.slicedOut 1 = false ∧
     (State.postEvent (State.postEvent u 1 4 0) 0 4 0).nodeOf 1 = none) := by
  decide +kernel
def moved (st : Nat) : State := { part with st := { part.st with moves := [(0, ⟨st, 0, 1, 9⟩)] } }
def slices (fs : List Nat) (k : Nat) : State :=
  { part with st := { part.st with binds := fs.map (fun f => (f, 1)), runq := fs.map (fun f => ⟨0, f, 0, 0x30400⟩), slice := [(1, 1, k)] } }
/-- A move whose block is the one cellar block of node 1. -/
def lastOf (st : Nat) : State := { moved st with st := { (moved st).st with bown := [(0, 0x801)] } }
theorem test_witness_StewardSteps_blocks :
    (∀ st ∈ [1, 2, 3], ((moved st).move 0).state = st) ∧ (512 : Nat) ≠ 0 ∧
    (∀ p ∈ [([1], 2), ([1], 1), ([1, 2], 1)], (slices p.1 p.2).slicer 1 = some 1 ∧
      (((slices p.1 p.2).workers 1).find? (1 < ·)).getD (((slices p.1 p.2).workers 1).headD 1) = if p.1 = [1] then 1 else 2) ∧
    (∀ b ∈ [1, 287], part.blockRetired b = false ∧ (part.move b).state = 0 ∧ part.owner b = none ∧ part.blockKind b ≠ 2) ∧
    ({ part with st := { part.st with binds := [] } } : State).bound 1 = [] ∧ part.isPart 1 = true ∧
    bits (0x401 : Word).toNat 63 16 = 0 ∧ bits (0x401 : Word).toNat 11 10 = 1 ∧ bits (0x401 : Word).toNat 6 0 = 1 ∧ bits (0xC01 : Word).toNat 11 10 = 3 ∧
    bits (0x8000 : Word).toNat 8 0 = 0 ∧ bitOf (0x8000 : Word).toNat 15 = true ∧ (moved 1).nodeOf 1 = (moved 1).owner 0 ∧ (moved 1).blockHeld 0 = false ∧
    ({ moved 1 with ms := { part.ms with pins := [⟨0x30000, 5, none, 0, 0, 0, false, false, false⟩] } } : State).blockHeld 0 = true ∧
    (moved 3).nodeOf 1 = some ((moved 3).move 0).gain ∧ (∀ k ∈ [1, 3], (moved k).lastCellar 0 = false ∧ (lastOf k).lastCellar 0 = true) ∧
    (lastOf 3).nodeOf 1 = some ((lastOf 3).move 0).gain ∧ (lastOf 1).nodeOf 1 = (lastOf 1).owner 0 := by
  decide +kernel

def fabric (p : Peer) : State := { base with pl := { base.pl with en := true, peers := [(3, p)] } }
theorem test_witness_PlatformSteps :
    let f := fabric ⟨1, 0, [45, 46, 47], 0, []⟩
    base.pl.en = false ∧ f.pl.en = true ∧ f.shared = false ∧ f.pl.portsDown = false ∧ f.pl.trained = false ∧
    ([3, 4].filter (fun j => j < 16 && j != f.me && ((f.peer j).st == 0 || (f.peer j).st == 3))) = [4] ∧
    (let s := f.setRgs 1 { Rgs.reset with peers := [3] }
     s.pl.en = true ∧ ({ s with st := { s.st with parts := [1] } } : State).shared = true) ∧
    (∀ j ∈ [1, 15], j < 16 ∧ j ≠ f.me ∧ (f.peer j).st ≠ 3) ∧
    (∀ k ∈ [1, 2, 3], let c := (fabric ⟨1, 0, [46, 47], 0, List.replicate k (45, 100)⟩).peer 3
      (c.checks.filter (·.1 == 45)).length = k ∧ c.lanes.contains 45 = false) ∧ (f.peer 3).lanes.contains 45 = true ∧
    (∀ u ∈ [0, 1], ((fabric ⟨1, 0, [45, 46], u, []⟩).peer 3).spu < Nat.min ((fabric ⟨1, 0, [45, 46], u, []⟩).peer 3).fail 2) ∧
    (∀ k ∈ [15, 16], lookupD ({ f with pl := { f.pl with nacked := [(9, k)] } } : State).pl.nacked 9 0 = k) ∧
    (let s : State := { f with eng := { f.eng with router := [.packetWait 9 0 1 17] } }
     (s.forgetNacks 9).ethernetTag 9 = some 17) ∧
    (let s : State := { part with pl := { part.pl with posted := [.of 9 0 0 (3 * 2 ^ 48) false 0] } }
     let u : State := { s with st := { s.st with binds := [] } }
     (s.forgetNacks 9).ethernetTag 9 = none ∧ (s.forgetNacks 9).groupOfTag 9 = some 1 ∧ (u.forgetNacks 9).ethernetTag 9 = none ∧
     (u.forgetNacks 9).groupOfTag 9 = none ∧ (u.forgetNacks 9).ownerOf 9 = some 1) ∧
    (3 * 2 ^ 48) / 2 ^ 48 ≠ f.me ∧ (f.peer ((3 * 2 ^ 48) / 2 ^ 48)).st = 1 ∧
    (∀ b ∈ [base, { base with pl := { base.pl with joined := true, pkg := 15 } }], (0x30000 + b.me * 2 ^ 48) / 2 ^ 48 = b.me) ∧
    lineOf 0x30000 = some 0x30000 ∧ ¬ (1025 : Nat) < 1024 ∧ (1023 : Nat) < 1024 ∧ ¬ 60 < 60 ∧ 60 < 61 := by
  decide +kernel
/-- Both members of a group of two, one silent, and a second to join it. -/
def clocked : State :=
  { base with pl := { base.pl with group := some 7, members := [(3, ⟨60, [], 0, false⟩), (4, ⟨0, [], 0, true⟩)] } }
theorem test_witness_PlatformSteps_clocks :
    clocked.pl.members.find? (·.1 == 3) = some (3, ⟨60, [], 0, false⟩) ∧ clocked.pl.members.find? (·.1 == 4) = some (4, ⟨0, [], 0, true⟩) ∧
    clocked.agreeJoins.pl.group ≠ none ∧ clocked.agreeJoins.pl.members.find? (·.1 == 63) = none ∧
    clocked.agreeJoins.pl.members.find? (·.1 == 4) = some (4, ⟨0, [], 0, true⟩) ∧
    (let s : State := { base with pl := { base.pl with joins := [(0, 7)] } }
     s.pl.joins.find? (·.1 == 0) = some (0, 7) ∧ bits (7 : Word).toNat 33 32 = 0) ∧
    (3 : Nat) ≠ clocked.pl.index ∧ (60 ≤ 60 ∧ (128 : Nat) ≠ 60) ∧ (clocked.pl.members.filter (·.2.silent)).map (·.1) = [4] ∧
    (∀ w ∈ [(1, 0), (2, 1), (1, 2)], let s : State := { base with pl := { base.pl with pwReq := w.1, pwCur := w.2 } }
     s.pl.pwReq ≠ 0 ∧ s.pl.pwCur ≠ s.pl.pwReq ∧ s.st.parts.all s.partIdle = true ∧ s.pl.ethDown = false ∧ s.pl.en = false) ∧
    (let s : State := { base with pl := { base.pl with pwReq := 2, pwCur := 2, leaving := true } }
     s.pl.pwReq ≠ 0 ∧ s.pl.leaving = true ∧ s.st.parts.all s.partIdle = true) ∧
    (∀ x ∈ [(true, false), (false, true)], let s : State := { base with pl := { base.pl with en := x.1, ethDown := x.2, pwCur := 2 } }
     s.pl.pwCur = 2 ∧ (s.pl.en = true ∧ s.pl.trained = false ∨ s.pl.ethDown = true)) := by
  decide +kernel
theorem test_witness_PlatformSteps_firmware :
    0x8FFFFFFFFF % 2 ^ 48 < Config.dramEnd ∧ base.pl.fwSt = 1 ∧ State.reset.pl.fwSt = 0 ∧
    (∀ k ∈ [0, 1, 2], let s : State := { base with pl := { base.pl with tdisp := [(512, k)] } }
      (512 : Nat) ≠ 0 ∧ 512 ≤ 512 ∧ lookupD s.pl.tdisp 512 0 = k) ∧ (8 ≤ 8 ∧ base.pl.ide.contains 8 = false) ∧ 0 ≤ base.pl.vfs ∧
    (let s : State := { base with pl := { base.pl with vfs := 512 } }
     s.pl.fwSt = 1 ∧ 512 ≤ s.pl.vfs) ∧
    (0x100001000 - 0x100000000) / 0x1000 = 1 ∧ lookupD ({ base with pl := { base.pl with tdisp := [(1, 2)] } } : State).pl.tdisp 1 0 = 2 ∧
    ((32 ≤ 40 ∧ 40 / 32 = 1) ∧ base.pl.ide.contains (72 / 32 - 1) = false) ∧
    (7 % 8 + 1 % 16 ≤ 8 ∧ 8 < 7 % 8 + 2 % 16 ∧ okO (base.mmioWord (0x0B000000 / 8 * 8)) (fun _ => true) = true) := by
  decide +kernel
theorem test_witness_EncodeDecode :
    (Instr.pcfgUnbind k1 3 4 5).wellFormed = true ∧ (Instr.pcfgUnbind k1 3 4 5).isWord = true := by decide +kernel
theorem test_witness_StepKeepsCanonical :
    Canonical (withM base 0x30000 (leBytes 4 0x40032140)) ∧ ∃ t, step (withM base 0x30000 (leBytes 4 0x40032140)) = .next t := by
  unfold Canonical
  exact ⟨by decide +kernel, _, rfl⟩
theorem test_witness_RegisterFormsFrame :
    let s := withG base [(4, 7), (5, 9)]
    let i := Instr.add k1 3 4 5 1
    ∃ r, arithRule i s.th = some r ∧ i.wellFormed = true ∧ Issues i s ∧ Sole s ∧
      NoStepBack i s ((s.deliver r.1 r.2.1 r.2.2.1).setfx r.2.2.2) ∧ ∃ t, exec i s = .next t := by
  unfold Issues Sole NoStepBack
  exact ⟨_, rfl, by decide +kernel, by decide +kernel, by decide +kernel, by decide +kernel, _, rfl⟩
theorem test_witness_TransfersHoldsAndWaits : Sole base ∧ Jump.call ≠ .branch := by unfold Sole; decide +kernel
theorem test_witness_VectorDelivery : (List.replicate 128 (7 : Byte)).length = 128 ∧ cellsWf view.th.win = true ∧ transientMark kt = true := by
  decide +kernel
end Sys2Proof.Tests
end

section
/-! PROOFS. The end of a completed instruction (03:R34, 07:R86, 09:R118). -/

namespace Sys2Proof.Machine
open Sys2Proof

/-- `u` is `t` but for its counters, its status and where it stands between instructions. -/
def Thread.Progresses (t u : Thread) : Prop := ∃ c st f, u = { t with cnt := c, status := st, flow := f }

theorem Thread.Progresses.refl (t : Thread) : t.Progresses t := ⟨_, _, _, rfl⟩
theorem Thread.Progresses.trans {t u v : Thread} : t.Progresses u → u.Progresses v → t.Progresses v := by
  rintro ⟨_, _, _, rfl⟩ ⟨_, _, _, rfl⟩
  exact ⟨_, _, _, rfl⟩
theorem Thread.Progresses.live {t u : Thread} : t.Progresses u → u.live = t.live := by rintro ⟨_, _, _, rfl⟩; rfl
theorem Thread.Progresses.tid {t u : Thread} : t.Progresses u → u.tid = t.tid := by rintro ⟨_, _, _, rfl⟩; rfl

theorem Thread.progresses_countAs (t who : Thread) (ev n : Nat) : t.Progresses (t.countAs who ev n) := by
  unfold Thread.countAs
  split <;> exact ⟨_, _, _, rfl⟩
theorem Thread.progresses_afterIssue (t pre : Thread) (i : Instr) (jumped : Bool) : t.Progresses (t.afterIssue pre i jumped) :=
  ⟨_, _, _, rfl⟩
theorem Thread.progresses_counted (t pre : Thread) (i : Instr) : t.Progresses (t.counted pre i) := by
  have h := t.progresses_countAs pre 2 1
  unfold Thread.counted
  dsimp only
  split
  · exact h.trans (Thread.progresses_countAs _ pre 10 1)
  · exact h

/-- A thread alone under its number stays so while it and the others keep their numbers. -/
theorem Sole.of_progresses {s s' : State} (h : Sole s) (hp : s.th.Progresses s'.th) (ho : s'.others = s.others) : Sole s' := by
  obtain ⟨hl, hu⟩ := h
  exact ⟨hp.live.trans hl, by rw [ho, hp.tid]; exact hu⟩
theorem Sole.mapThreads {s : State} (h : Sole s) {f : Thread → Thread} (hf : ∀ t : Thread, t.Progresses (f t)) :
    Sole (s.mapThreads f) := by
  obtain ⟨hl, hu⟩ := h
  have htid (t : Thread) : (f t).tid = t.tid := (hf t).tid
  refine ⟨by simp [State.mapThreads, hl, (hf s.th).live], ?_⟩
  simpa [State.mapThreads, hl, htid] using hu

/-- `s'` still holds the issuing thread of `s` under its number, with at most its progress changed. -/
def State.KeepsThread (s s' : State) : Prop := ∃ u, s'.thread? s.th.tid = some u ∧ s.th.Progresses u

theorem State.KeepsThread.after {s s' s'' : State} (h : s'.KeepsThread s'') (hp : s.th.Progresses s'.th) : s.KeepsThread s'' := by
  obtain ⟨u, hu, hpu⟩ := h
  exact ⟨u, hp.tid ▸ hu, hp.trans hpu⟩
theorem Sole.keepsThread {s : State} (h : Sole s) : s.KeepsThread s := ⟨_, h.thread, .refl _⟩
/-- Making another thread the issuing one leaves this one among the others. -/
theorem Sole.keepsThread_focus {s : State} (h : Sole s) (k : Nat) : s.KeepsThread (s.focus k) := by
  unfold State.focus
  split
  · exact h.keepsThread
  · split
    · exact h.keepsThread
    next t ht =>
      have hne : t.tid ≠ s.th.tid := h.2 t (List.mem_of_find?_eq_some ht)
      have hrest : (s.others.filter (fun u => u.tid != k)).find? (fun u => u.live && u.tid == s.th.tid) = none := by
        rw [List.find?_eq_none]
        intro u hu
        simp [h.2 u (List.mem_filter.mp hu).1]
      exact ⟨s.th, by simp [State.thread?, hne, h.1, hrest], .refl _⟩
theorem Sole.keepsThread_grant {s : State} (h : Sole s) (k : Nat) : s.KeepsThread (s.grant k) := by
  have hf (t : Thread) : t.Progresses (if sameSlot t.tid k then { t with flow := { t.flow with holder := t.tid == k } } else t) := by
    split <;> exact ⟨_, _, _, rfl⟩
  refine ((h.mapThreads hf).keepsThread_focus k).after ?_
  simpa [State.mapThreads, h.1] using hf s.th
theorem Sole.keepsThread_passOn {s : State} (h : Sole s) (k : Nat) : s.KeepsThread (s.passOn k) := by
  unfold State.passOn
  split
  · exact h.keepsThread_grant _
  · split
    · exact h.keepsThread_grant _
    · exact h.keepsThread
theorem Sole.keepsThread_suspend {s : State} (h : Sole s) : s.KeepsThread s.suspend :=
  ((h.of_progresses (s' := s.restartWatchdog s.th.tid) (.refl _) rfl).keepsThread_passOn s.th.tid).after (.refl _)

theorem State.marker_cases (s : State) (i : Instr) :
    s.marker i = s ∨ ∃ t, s.th.Progresses t ∧ s.marker i = State.suspend { s with th := t } := by
  unfold State.marker
  split
  · refine .inr ⟨_, (s.th.progresses_countAs s.th 3 1).trans ?_, rfl⟩
    rw [Thread.countEv]
    generalize s.th.countAs s.th 3 1 = t
    dsimp only
    split
    · exact .refl t
    · exact ⟨_, _, _, rfl⟩
  · exact .inl rfl
theorem Sole.keepsThread_marker {s : State} (h : Sole s) (i : Instr) : s.KeepsThread (s.marker i) := by
  obtain he | ⟨t, ht, he⟩ := s.marker_cases i <;> rw [he]
  · exact h.keepsThread
  · exact (h.of_progresses (s' := { s with th := t }) ht rfl).keepsThread_suspend.after ht
@[simp] theorem State.marker_ms (s : State) (i : Instr) : (s.marker i).ms = s.ms := by
  unfold State.marker; split <;> simp
@[simp] theorem State.marker_eng (s : State) (i : Instr) : (s.marker i).eng = s.eng := by
  unfold State.marker; split <;> simp
@[simp] theorem State.marker_st (s : State) (i : Instr) : (s.marker i).st = s.st := by
  unfold State.marker; split <;> simp
@[simp] theorem State.marker_pl (s : State) (i : Instr) : (s.marker i).pl = s.pl := by
  unfold State.marker; split <;> simp
@[simp] theorem State.marker_inbox (s : State) (i : Instr) : (s.marker i).inbox = s.inbox := by
  unfold State.marker; split <;> simp

@[simp] theorem State.retire_ms (s : State) (pre : Thread) (i : Instr) : (s.retire pre i).ms = s.ms := by simp [State.retire]
@[simp] theorem State.retire_eng (s : State) (pre : Thread) (i : Instr) : (s.retire pre i).eng = s.eng := by simp [State.retire]
@[simp] theorem State.retire_st (s : State) (pre : Thread) (i : Instr) : (s.retire pre i).st = s.st := by simp [State.retire]
@[simp] theorem State.retire_pl (s : State) (pre : Thread) (i : Instr) : (s.retire pre i).pl = s.pl := by simp [State.retire]
@[simp] theorem State.retire_inbox (s : State) (pre : Thread) (i : Instr) : (s.retire pre i).inbox = s.inbox := by simp [State.retire]
/-- The end of an instruction keeps its thread as `loopStep` leaves it, but for its progress (03:R34, 09:R118). -/
theorem Sole.retire_thread {e : State} (h : Sole e) (pre : Thread) (i : Instr) :
    ∃ u, (e.retire pre i).thread? e.th.tid = some u ∧ e.th.loopStep.Progresses u := by
  have hp : e.th.loopStep.Progresses ((e.th.loopStep.afterIssue pre i false).counted pre i) :=
    (Thread.progresses_afterIssue _ pre i false).trans (Thread.progresses_counted _ pre i)
  have hl : Sole { e with th := e.th.loopStep } := ⟨by simpa using h.1, by simpa using h.2⟩
  have hc : e.th.loopStep.Progresses
      (State.clockAs { e with th := (e.th.loopStep.afterIssue pre i false).counted pre i } pre).th :=
    hp.trans (Thread.progresses_countAs _ pre 1 _)
  obtain ⟨u, hu, hpu⟩ := ((hl.of_progresses hc rfl).keepsThread_marker i).after (s := { e with th := e.th.loopStep }) hc
  exact ⟨u, by simpa [State.retire] using hu, hpu⟩

/-- Settles O3: the end of an instruction counts, closes its group and may give up the slot; the thread is found again under its number
with nothing but its progress changed after `loopStep`. -/
theorem retireChanges : Obligations.RetireChanges := by
  intro s e i h
  obtain ⟨u, hu, c, st, f, rfl⟩ := h.retire_thread s.th i
  exact ⟨e.retire_ms s.th i, e.retire_eng s.th i, e.retire_st s.th i, e.retire_pl s.th i, e.retire_inbox s.th i, _, hu, by simp⟩

end Sys2Proof.Machine
end

section
/-! PROOFS. Results of a run at its park (03:R34, 07:R75, 09:R127). -/

namespace Sys2Proof.Machine
open Sys2Proof

-- Byte lists and scalar values

theorem leNat_leBytes (n x : Nat) : leNat (leBytes n x) = x % 256 ^ n := by
  induction n generalizing x with
  | zero => simp [leBytes, leNat, Nat.mod_one]
  | succ n ih =>
    have hb : (BitVec.ofNat 8 x).toNat = x % 256 := by simp
    rw [leBytes, leNat, ih, hb, Nat.pow_succ', Nat.mod_mul]
/-- Eight bytes hold a word. -/
@[simp] theorem ofNat_leNat_leBytes (x : Word) : BitVec.ofNat 64 (leNat (leBytes 8 x.toNat)) = x := by
  rw [leNat_leBytes, Nat.mod_eq_of_lt (show x.toNat < 256 ^ 8 from x.isLt), BitVec.ofNat_toNat, BitVec.setWidth_eq]
/-- A byte below a number of `n` bits, little-endian. -/
theorem toNat_append_byte {n : Nat} (b : BitVec n) (x : Byte) : (b ++ x).toNat = x.toNat + 256 * b.toNat := by
  rw [BitVec.toNat_append, ← Nat.shiftLeft_add_eq_or_of_lt x.isLt, Nat.shiftLeft_eq]
  omega
/-- `sInt` is the two's complement of a pattern of its width. -/
theorem sInt_toNat {n : Nat} (v : BitVec n) (hn : 0 < n) : sInt n v.toNat = v.toInt := by
  have h2 : 2 ^ n = 2 * 2 ^ (n - 1) := (mul_pow_sub_one hn.ne' 2).symm
  rw [sInt, Nat.mod_eq_of_lt v.isLt, BitVec.toInt_eq_toNat_cond]
  congr 1
  simp [h2]
theorem ofNat_sextN {n : Nat} (v : BitVec n) (hn : 0 < n) : BitVec.ofNat 64 (sextN n 64 v.toNat) = v.signExtend 64 := by
  rw [sextN, wrapI, sInt_toNat v hn, BitVec.signExtend]
  apply BitVec.eq_of_toNat_eq
  rw [BitVec.toNat_ofInt, BitVec.toNat_ofNat, Nat.mod_eq_of_lt (by omega)]
/-- A raw page decodes nothing: the size says how the bytes are extended (07:R75). -/
theorem scalarValue_raw (sz : Nat) (bs : List Byte) : scalarValue sz 0 bs =
    if 4 ≤ sz then BitVec.ofNat 64 (sextN (8 * 2 ^ (sz % 4)) 64 (leNat bs)) else BitVec.ofNat 64 (leNat bs) :=
  if_neg (Nat.two_pow_pos (sz % 4)).ne
theorem scalarValue_zeroExtends {sz n : Nat} (h : sz < 4) {bs : List Byte} (v : BitVec n) (hv : leNat bs = v.toNat) :
    scalarValue sz 0 bs = v.setWidth 64 := by
  rw [scalarValue_raw, if_neg (Nat.not_le.mpr h), hv, BitVec.ofNat_toNat]
theorem scalarValue_signExtends {sz : Nat} (h : 4 ≤ sz) {bs : List Byte} (v : BitVec (8 * 2 ^ (sz % 4)))
    (hv : leNat bs = v.toNat) : scalarValue sz 0 bs = v.signExtend 64 := by
  rw [scalarValue_raw, if_pos h, hv, ofNat_sextN v (by positivity)]

-- Registers

@[simp] theorem Thread.raw_setRaw_self (t : Thread) {i : Reg} (x : Word) (h : i ≠ 0) : (t.setRaw i x).raw i = x := by
  rw [Thread.raw, Thread.setRaw, if_neg h, if_neg h]
  exact Vector.getElem_set_self i.isLt
theorem Thread.raw_setRaw_ne (t : Thread) {i j : Reg} (x : Word) (h : j ≠ i) : (t.setRaw i x).raw j = t.raw j := by
  have hn : i.toNat ≠ j.toNat := fun e => h (BitVec.eq_of_toNat_eq e.symm)
  unfold Thread.setRaw Thread.raw
  by_cases hi : i = 0
  · rw [if_pos hi]
  · simp only [if_neg hi, Vector.getElem_set_ne i.isLt j.isLt hn]
theorem Thread.raw_congr {t u : Thread} (h : t.regs = u.regs) (i : Reg) : t.raw i = u.raw i := by simp [Thread.raw, h]
/-- A fixed-latency write takes its register from the outstanding results of the run (03:R34). -/
theorem Thread.gw_outs_ne (t : Thread) {i : Reg} (x : Word) (h : i ≠ 0) : ∀ o ∈ (t.gw i x).flow.outs, o.g ≠ i := by
  intro o ho
  simp only [Thread.gw, h, if_false, Thread.setRaw_flow, List.mem_map] at ho
  obtain ⟨p, -, rfl⟩ := ho
  split
  · exact h.symm
  · assumption
theorem Thread.raw_gw_self (t : Thread) {i : Reg} (x : Word) (h : i ≠ 0) : (t.gw i x).raw i = x := by
  refine Eq.trans ?_ (t.raw_setRaw_self x h)
  exact Thread.raw_congr (by rw [Thread.gw, if_neg h]) i

-- The park

/-- Taking a result's value changes no thread. -/
@[simp] theorem State.srcResult_th (s : State) (t : Thread) (x : Src) : (s.srcResult t x).2.2.2.th = s.th := by
  unfold State.srcResult
  (repeat' split) <;> simp
theorem State.settleFrom_raw_ne {g : Reg} {os : List Outst} (s : State) (h : ∀ o ∈ os, o.g ≠ g) :
    (State.settleFrom os s).2.th.raw g = s.th.raw g := by
  induction os generalizing s with
  | nil => rfl
  | cons o os ih =>
    rw [State.settleFrom]
    dsimp only
    rw [ih _ (fun p hp => h p (List.mem_cons_of_mem _ hp))]
    split
    · rw [State.srcResult_th]
    · rw [State.srcResult_th]
      exact Thread.raw_setRaw_ne _ _ (h o List.mem_cons_self).symm
theorem Thread.mem_capture_outs {t : Thread} {o : Outst} (h : o ∈ t.capture.flow.outs) : ∃ p ∈ t.flow.outs, p.g = o.g := by
  obtain ⟨p, hp, rfl⟩ := List.mem_map.mp h
  exact ⟨p, hp, by split <;> rfl⟩
theorem State.settle_raw_ne {s : State} {g : Reg} (h : ∀ o ∈ s.th.flow.outs, o.g ≠ g) : s.settle.2.th.raw g = s.th.raw g := by
  refine State.settleFrom_raw_ne _ (fun o ho => ?_)
  obtain ⟨p, hp, hg⟩ := Thread.mem_capture_outs ho
  exact hg ▸ h p hp
/-- The park of a run with one scalar result, arrived. -/
theorem State.settle_scalar {s : State} {d : Reg} {sz ef n : Nat} {bs : List Byte}
    (h : s.th.flow.outs = [⟨d, [], .parts [.have bs] (.scalar sz ef), none, n⟩]) :
    s.settle = ([], { s with th := { s.th.setRaw d (scalarValue sz ef bs) with flow := { s.th.flow with outs := [] } } }) := by
  have hc : s.th.capture = s.th := by rw [Thread.capture, h, List.map_singleton, ← h]
  simp [State.settle, hc, h, State.settleFrom, State.srcResult, partBytes, writeOffs]

/-- Settles O19: the run's one result is written at the park and nothing else is; a later write has taken its register from the run. -/
theorem scalarLoadResults : Obligations.ScalarLoadResults := by
  refine ⟨⟨?park, ?laterWrite⟩, ?zero8, ?sign8, ?zero16, ?sign16, ?zero32, ?sign32, ?word⟩
  case park =>
    intro s d g sz ef o bs h
    rw [State.settle_scalar h]
    exact ⟨fun hd => s.th.raw_setRaw_self _ hd, fun hg => s.th.raw_setRaw_ne _ hg, rfl, rfl, rfl⟩
  case laterWrite =>
    intro s d x hd
    rw [State.settle_raw_ne (s.th.gw_outs_ne x hd)]
    exact s.th.raw_gw_self x hd
  case zero8 => exact fun x => scalarValue_zeroExtends (by decide) x (by simp [leNat])
  case sign8 => exact fun x => scalarValue_signExtends (sz := 4) (by decide) x (by simp [leNat])
  case zero16 => exact fun x y => scalarValue_zeroExtends (by decide) (y ++ x) (by simp [leNat, toNat_append_byte])
  case sign16 => exact fun x y => scalarValue_signExtends (sz := 5) (by decide) (y ++ x) (by simp [leNat, toNat_append_byte])
  case zero32 =>
    exact fun x y z w => scalarValue_zeroExtends (by decide) (w ++ z ++ y ++ x) (by simp [leNat, toNat_append_byte])
  case sign32 =>
    exact fun x y z w => scalarValue_signExtends (sz := 6) (by decide) (w ++ z ++ y ++ x) (by simp [leNat, toNat_append_byte])
  case word => exact fun x => (scalarValue_raw 3 _).trans (ofNat_leNat_leBytes x)

end Sys2Proof.Machine
end

section
/-! PROOFS. Compacts: SYNC, EXCH, DISSOLVE and SIGN (03:R36-R46, 27:R313). -/

namespace Sys2Proof.Machine
open Sys2Proof

-- SYNC, EXCH and DISSOLVE

theorem exec_sync (m : Mark) (q : BitVec 3) (a b : Reg) (s : State) : exec (.sync m q a b) s = execSync m q a b s := rfl
theorem exec_exch (m : Mark) (s : State) : exec (.exch m) s = execExch m s := rfl
theorem exec_dissolve (m : Mark) (s : State) : exec (.dissolve m) s = execDissolve m s := rfl
theorem exec_sign (m : Mark) (a : Reg) (s : State) : exec (.sign m a) s = execSign m a s := rfl

section
variable {s : State} {bar : Nat} {c : Compact} {mb : Member} (hm : s.memberThread s.th = some (bar, c, mb))
include hm

theorem exec_sync_guardPending {m : Mark} {q : BitVec 3} {a b : Reg} (hi : Issues (.sync m q a b) s)
    (hp : s.th.gst q.toNat = .pend) (hv : mb.vote.map (·.2.2) ≠ some (s.th.resultTag q.toNat)) :
    exec (.sync m q a b) s = .next (s.waits .waiting) :=
  waits_of (exec_sync ..) hi (by
    dsimp only
    rw [hm]
    exact if_pos (by simp [hp, hv]))
theorem exec_sync_votes {m : Mark} {q : BitVec 3} {a b : Reg} (hi : Issues (.sync m q a b) s)
    (hv : s.th.gst q.toNat ≠ .pend ∨ mb.vote.map (·.2.2) = some (s.th.resultTag q.toNat)) :
    let kind := b.toNat + (if c.clk && (s.gangOf bar).any (·.flow.preempt != 0) then 4 else 0) +
      (if c.clk && (s.rgs c.node).sealing then 8 else 0)
    let c1 := c.setMember { mb with vote := some ((s.th.gr a).toNat % 4, kind, s.th.resultTag q.toNat), told := false }
    let u : State := { s with th := s.th.setGuard q.toNat .pend }
    exec (.sync m q a b) s =
      .next (State.waits (if c1.members.any (·.dissolving) then u.failCompact bar c1 2 else u.setCompact bar c1) .sync) :=
  waits_of (exec_sync ..) hi (by
    dsimp only
    rw [hm]
    exact if_neg (by rcases hv with hv | hv <;> simp [hv]))

theorem completes_exch {m : Mark} (hi : Issues (.exch m) s) (hd : mb.exchDone = false) (hs : c.superstep ≠ 0) :
    let c1 := c.setMember { mb with exchDone := true }
    Completes (.exch m) s (s.setCompact bar { c1 with fly := c1.fly ++ mb.plan.getD mb.variant [] }) :=
  completes_of (exec_exch ..) hi (by
    dsimp only
    rw [hm]
    exact if_neg (by simp [hd, hs]))
theorem traps_exch_again {m : Mark} (hi : Issues (.exch m) s) (h : mb.exchDone = true ∨ c.superstep = 0) :
    Traps (.exch m) s ⟨.illstate, 0, s.th.pc⟩ :=
  traps_of (exec_exch ..) hi (by
    dsimp only
    rw [hm]
    exact if_pos (by simpa using h))

theorem exec_dissolve_arrives {m : Mark} (hi : Issues (.dissolve m) s) (hdd : s.th.flow.ddone = false)
    (hd : mb.dissolving = false) (hs : s.th.flow.synced = true) :
    let c1 := c.setMember { mb with dissolving := true }
    let u := s.tellMembers bar c1 0 16
    exec (.dissolve m) s =
      .next (State.holding (if c.members.any (·.vote.isSome) then u.failCompact bar c1 2 else u.setCompact bar c1) 4) :=
  holds_of (exec_dissolve ..) hi (by
    dsimp only
    rw [hdd, hm]
    simp only [hd, hs, Bool.not_true, Bool.false_eq_true, if_false])
theorem exec_dissolve_holds {m : Mark} (hi : Issues (.dissolve m) s) (hdd : s.th.flow.ddone = false) (hd : mb.dissolving = true) :
    exec (.dissolve m) s = .next (s.holding 4) :=
  holds_of (exec_dissolve ..) hi (by
    dsimp only
    rw [hdd, hm]
    exact if_pos hd)
theorem traps_dissolve_notFirst {m : Mark} (hi : Issues (.dissolve m) s) (hdd : s.th.flow.ddone = false)
    (hd : mb.dissolving = false) (hs : s.th.flow.synced = false) : Traps (.dissolve m) s ⟨.illstate, 0, s.th.pc⟩ :=
  traps_of (exec_dissolve ..) hi (by
    dsimp only
    rw [hdd, hm]
    simp only [hd, hs, Bool.not_false, Bool.false_eq_true, if_false, if_true])

end

theorem completes_dissolve {m : Mark} {s : State} (hi : Issues (.dissolve m) s) (hdd : s.th.flow.ddone = true) :
    Completes (.dissolve m) s { s with th := { s.th with flow := { s.th.flow with ddone := false } } } :=
  completes_of (exec_dissolve ..) hi (if_pos hdd)

section
variable {s : State} (hm : s.memberThread s.th = none)
include hm

theorem traps_sync_noMember {m : Mark} {q : BitVec 3} {a b : Reg} (hi : Issues (.sync m q a b) s) :
    Traps (.sync m q a b) s ⟨.illstate, 0, s.th.pc⟩ :=
  traps_of (exec_sync ..) hi (by dsimp only; rw [hm])
theorem traps_exch_noMember {m : Mark} (hi : Issues (.exch m) s) : Traps (.exch m) s ⟨.illstate, 0, s.th.pc⟩ :=
  traps_of (exec_exch ..) hi (by dsimp only; rw [hm])
theorem traps_dissolve_noMember {m : Mark} (hi : Issues (.dissolve m) s) (hdd : s.th.flow.ddone = false) :
    Traps (.dissolve m) s ⟨.illstate, 0, s.th.pc⟩ :=
  traps_of (exec_dissolve ..) hi (by dsimp only; rw [hdd, hm]; rfl)

end

-- SIGN

/-- The member of a record of `n` members that is on a tile of this package (03:R38). -/
def State.signMember (s : State) (tile n : Nat) (bs : List Byte) : Option Nat :=
  (List.range n).find? (fun i => match s.coordOf (bits (wordAt bs 0) 25 16) (bits (wordAt (memberBytes bs i) 0) 14 0) with
    | some (k, p, x) => k ≤ 1 && p == s.me && x == tile
    | none => false)
/-- The tables of the variants of a plan (03:R42). -/
def planTables (plan : Word) (ph : List Byte) : List (Word × Nat) := match planCounts ph with
  | some ns => (List.range ns.length).map (fun v => (plan + BitVec.ofNat 64 (64 + 8192 * v), 32 * ns.getD v 0))
  | none => []
/-- The reads of SIGN for the record at `a`, all answered: the record `bs`, then of its own member's plan the header `ph` and the tables
`tb`; `t` is the state after them (03:R36-R38). -/
def SignReads (s : State) (a : Word) (bs ph tb : List Byte) (t : State) : Prop :=
  ∃ (h : List Byte) (s1 s2 s3 : State) (i : Nat),
    let n := Nat.min (bits (wordAt h 0) 15 0) 24576
    let plan := BitVec.ofNat 64 (wordAt (memberBytes bs i) 1)
    s.ldAll s.th.acc [(a, 64)] = .ok h s1 ∧ s1.ldAll s.th.acc [(a, 64 + 288 * n)] = .ok bs s2 ∧
    s2.signMember s.th.tile n bs = some i ∧ s2.ldAll s.th.acc [(plan, 64)] = .ok ph s3 ∧
    s3.ldAll s.th.acc (planTables plan ph) = .ok tb t
/-- What SIGN does with the answer of its checks. -/
def State.signAfter (s : State) (recA : Word) (bar : Nat) : Except Trap (Signing × State) → Done
  | .error x => s.signRefused bar x
  | .ok (g, t) => t.signPins recA g

theorem Held.andThen_of_ok {h : Held} {bs : List Byte} {s : State} {f : List Byte → State → Done} (e : h = .ok bs s) :
    h.andThen f = f bs s := by rw [e]; rfl

/-- With its reads answered SIGN is its checks and what follows on them. -/
theorem exec_sign_of_reads {m : Mark} {a : Reg} {s t : State} {bs ph tb : List Byte} (hi : Issues (.sign m a) s)
    (ha : (s.th.gr a).toNat % 64 = 0) (hp : s.th.pinsPending = false) (hr : SignReads s (s.th.gr a) bs ph tb t) :
    exec (.sign m a) s = s.finish (.sign m a)
      (t.signAfter (s.th.gr a) (bits (wordAt bs 0) 63 32) (t.signChecks s.th (s.th.gr a) bs (ph ++ tb))) := by
  obtain ⟨h, s1, s2, s3, i, hhead, hrec, hown, hplan, htabs⟩ := hr
  refine (exec_sign m a s).trans ((State.issue_body hi).trans (congrArg _ ?_))
  rw [if_neg (not_not_intro ha), hp, if_neg Bool.false_ne_true]
  refine (Held.andThen_of_ok hhead).trans ((Held.andThen_of_ok hrec).trans ?_)
  dsimp only
  split
  next hnone => exact absurd (hnone.symm.trans hown) nofun
  next j hj =>
    obtain rfl : j = i := Option.some.inj (hj.symm.trans hown)
    exact (Held.andThen_of_ok hplan).trans (Held.andThen_of_ok htabs)

theorem State.signRefused_unasked {s : State} (bar : Nat) (x : Trap) (h : s.th.flow.heldReads.any (·.n == 0) = false) :
    s.signRefused bar x = .trap x := if_neg (by simp [h])

/-- The lines of a signing that are homed on other packages: those whose pins SIGN asks for (03:R39). -/
def State.farLines (s : State) (g : Signing) : List HomeLine :=
  g.lines.filter (fun l => l.piece.pkg != s.me && regionOf l.piece.off == .dram && s.pkgLive l.piece.pkg)
/-- The pin of a line has been asked for and given. -/
def Thread.PinGiven (t : Thread) (l : HomeLine) : Prop := ∃ r x, t.pinAsked l = some r ∧ r.reply = some (.done, x)
/-- The bytes that came with the pins of some lines. -/
def Thread.pinnedBytes (t : Thread) (far : List HomeLine) : List Byte :=
  far.flatMap (fun l => ((((t.pinAsked l).bind (·.reply)).map (·.2)).getD []).take 192)

theorem State.signPins_asks {s : State} {g : Signing} (recA : Word)
    (h : (s.farLines g).any (fun l => (s.th.pinAsked l).isNone) = true) :
    s.signPins recA g = .hold 2 (s.askPins g.bar (s.farLines g)) := if_pos h
/-- With every pin given, SIGN is its own illegal state or the signing. -/
theorem State.signPins_given {s : State} {g : Signing} (recA : Word) (h : ∀ l ∈ s.farLines g, s.th.PinGiven l) :
    (∀ x, g.ill = some x → s.signPins recA g = s.signRefused g.bar x) ∧
    (g.ill = none → s.signPins recA g = .ok (s.signed s.th recA g (s.th.pinnedBytes (s.farLines g)))) := by
  have hask : ¬ (s.farLines g).any (fun l => (s.th.pinAsked l).isNone) = true := by
    rw [List.any_eq_true]
    rintro ⟨l, hl, hnone⟩
    obtain ⟨r, x, hr, -⟩ := h l hl
    simp [hr] at hnone
  have hill : ((s.farLines g).findSome? (fun l =>
      ((s.th.pinAsked l).bind (·.reply)).bind (fun r => replyTrap r.1 l.piece.va l.piece.pa))).or g.ill = g.ill := by
    rw [List.findSome?_eq_none_iff.mpr, Option.none_or]
    intro l hl
    obtain ⟨r, x, hr, hx⟩ := h l hl
    simp [hr, hx, replyTrap]
  constructor
  · intro x hx
    refine (if_neg hask).trans ?_
    split
    next y hy => rw [Option.some.inj (hx.symm.trans (hill.symm.trans hy))]
    next hy => exact absurd (hx.symm.trans (hill.symm.trans hy)) nofun
  · intro hx
    refine (if_neg hask).trans ?_
    split
    next y hy => exact absurd (hx.symm.trans (hill.symm.trans hy)) nofun
    next => rfl

theorem traps_sign_misaligned {m : Mark} {a : Reg} {s : State} (hi : Issues (.sign m a) s) (ha : (s.th.gr a).toNat % 64 ≠ 0) :
    Traps (.sign m a) s ⟨.align, 0, s.th.gr a⟩ := traps_of (exec_sign ..) hi (if_pos ha)

section
variable {m : Mark} {a : Reg} {s t : State} {bs ph tb : List Byte} (hi : Issues (.sign m a) s)
  (ha : (s.th.gr a).toNat % 64 = 0) (hp : s.th.pinsPending = false) (hr : SignReads s (s.th.gr a) bs ph tb t)
include hi ha hp hr

theorem traps_sign_refused {x : Trap} (hc : t.signChecks s.th (s.th.gr a) bs (ph ++ tb) = .error x)
    (hh : t.th.flow.heldReads.any (·.n == 0) = false) : Traps (.sign m a) s x := by
  rw [Traps, exec_sign_of_reads hi ha hp hr, hc, State.signAfter, State.signRefused_unasked _ _ hh, State.finish_trap]

variable {g : Signing} {u : State} (hc : t.signChecks s.th (s.th.gr a) bs (ph ++ tb) = .ok (g, u))
include hc

theorem exec_sign_asks (h : (u.farLines g).any (fun l => (u.th.pinAsked l).isNone) = true) :
    exec (.sign m a) s = .next ((u.askPins g.bar (u.farLines g)).holding 2) := by
  rw [exec_sign_of_reads hi ha hp hr, hc, State.signAfter, State.signPins_asks _ h, State.finish_hold]
theorem traps_sign_illegal (h : ∀ l ∈ u.farLines g, u.th.PinGiven l) {x : Trap} (hx : g.ill = some x)
    (hh : u.th.flow.heldReads.any (·.n == 0) = false) : Traps (.sign m a) s x := by
  rw [Traps, exec_sign_of_reads hi ha hp hr, hc, State.signAfter, (State.signPins_given _ h).1 x hx,
    State.signRefused_unasked _ _ hh, State.finish_trap]
theorem completes_sign (h : ∀ l ∈ u.farLines g, u.th.PinGiven l) (hx : g.ill = none) :
    Completes (.sign m a) s (u.signed u.th (s.th.gr a) g (u.th.pinnedBytes (u.farLines g))) := by
  intro hb
  rw [exec_sign_of_reads hi ha hp hr, hc, State.signAfter, (State.signPins_given _ h).2 hx, State.finish_ok hb]

end

/-- Settles O27: each clause is the outcome of one branch of its instruction's effect. -/
theorem compacts : Obligations.Compacts := by
  refine ⟨⟨?sync, ?exch, ?exchAgain, ?arrives, ?dissolve, ?done, ?noMember⟩, ?sign, ?signAlign⟩
  case sync => exact fun m q a b s bar c mb hi hm => ⟨exec_sync_guardPending hm hi, exec_sync_votes hm hi⟩
  case exch => exact fun m s bar c mb hi hm hd hs => completes_exch hm hi hd hs
  case exchAgain => exact fun m s bar c mb hi hm => traps_exch_again hm hi
  case arrives => exact fun m s bar c mb hi hdd hm => exec_dissolve_arrives hm hi hdd
  case dissolve =>
    exact fun m s bar c mb hi hdd hm => ⟨exec_dissolve_holds hm hi hdd, traps_dissolve_notFirst hm hi hdd⟩
  case done => exact fun m s => completes_dissolve
  case noMember =>
    exact fun m q a b s hm hdd => ⟨traps_sync_noMember hm, traps_exch_noMember hm, fun hi => traps_dissolve_noMember hm hi hdd⟩
  case sign =>
    intro m a s s1 s2 s3 s4 s5 h bs ph tb i g hi ha hp hhead hrec hown plan hplan htabs
    have hr : SignReads s (s.th.gr a) bs ph tb s4 := ⟨h, s1, s2, s3, i, hhead, hrec, hown, hplan, htabs⟩
    exact ⟨fun x hc => traps_sign_refused hi ha hp hr hc, fun hc => ⟨exec_sign_asks hi ha hp hr hc, fun hpins =>
      ⟨fun x hx => traps_sign_illegal hi ha hp hr hc hpins hx, fun hx => completes_sign hi ha hp hr hc hpins hx⟩⟩⟩
  case signAlign => exact fun m a s => traps_sign_misaligned

end Sys2Proof.Machine
end

section
/-! PROOFS. Scale formats, integer narrowing, floating minimum and maximum (05:R53, R59, R61). -/

namespace Sys2Proof.Machine
open Sys2Proof

-- Codes of the scale formats (R53)

theorem val_sx8 {c : Nat} (hc : c < 255) : Fmt.sx8.val c = .fin false 1 ((c : Int) - 127) := if_neg (by simp; omega)
/-- n8p4e has no infinity: below its NaN code only the exponent field tells a subnormal from a normal value. -/
theorem val_n8p4e {c : Nat} (hc : c < 255) : (Fmt.n8 4 true).val c =
    if c / 8 = 0 then .fin false (c % 8) (-18) else .fin false (8 + c % 8) ((c / 8 : Nat) - 19) := by
  have hm : bits c 7 0 = c := by simp [bits]; omega
  have hnan : (c == 0xFF) = false := beq_false_of_ne hc.ne
  simp only [Fmt.val, Fmt.signed, Fmt.nanCode, Fmt.hasInf, Fmt.trail, Fmt.bias, hm, hnan, Bool.not_true, Bool.false_and,
    Bool.false_eq_true, if_false, beq_iff_eq]
  exact ite_congr rfl (fun _ => rfl) fun _ => congrArg (Num.fin false _) (by omega)
/-- A non-negative magnitude is not above another whose exponent is no lower, once both are at the lower exponent. -/
theorem lt_fin_eq_false {m n : Nat} {e g : Int} (hg : g ≤ e) (h : n ≤ m * 2 ^ (e - g).toNat) :
    (Num.fin false m e).lt (.fin false n g) = false := by
  have he : (if e < g then e else g) = g := if_neg (by omega)
  simp only [Num.lt, he, scaledInt, sub_self]
  simpa using mod_cast h
theorem val_n8p4e_le_max {c : Nat} (hc : c < 255) : ((Fmt.n8 4 true).val 0xFE).lt ((Fmt.n8 4 true).val c) = false := by
  have hmax : (Fmt.n8 4 true).val 0xFE = .fin false 14 12 := by decide
  rw [hmax, val_n8p4e hc]
  split
  · exact lt_fin_eq_false (by omega) (by change c % 8 ≤ 14 * 2 ^ 30; omega)
  · next hz =>
    refine lt_fin_eq_false (by omega) ?_
    obtain htop | hlow : c / 8 = 31 ∨ c / 8 < 31 := by omega
    · rw [htop]
      change 8 + c % 8 ≤ 14
      omega
    · have hpow : 2 ^ 1 ≤ 2 ^ ((12 : Int) - ((c / 8 : Nat) - 19)).toNat := Nat.pow_le_pow_right two_pos (by omega)
      omega
theorem neg_val_n8p4e {c : Nat} (hc : c < 255) : ((Fmt.n8 4 true).val c).neg? = false := by
  rw [val_n8p4e hc]
  split <;> rfl

-- Narrowing of integers (R59)

/-- Least value of an integer type. -/
def intMin (w : Nat) (sg : Bool) : Int := if sg then -(2 ^ (w - 1) : Nat) else 0
/-- Greatest value of an integer type. -/
def intMax (w : Nat) (sg : Bool) : Int := if sg then (2 ^ (w - 1) : Nat) - 1 else (2 ^ w : Nat) - 1
/-- The value of an integer type that `satint` delivers. -/
def intClamp (x : Int) (w : Nat) (sg : Bool) : Int := max (intMin w sg) (min x (intMax w sg))

theorem intMin_le_intMax (w : Nat) (sg : Bool) : intMin w sg ≤ intMax w sg := by
  have h1 := Nat.two_pow_pos w
  have h2 := Nat.two_pow_pos (w - 1)
  cases sg <;> simp only [intMin, intMax, if_true, if_false, Bool.false_eq_true] <;> omega
theorem intMin_le_intClamp (x : Int) (w : Nat) (sg : Bool) : intMin w sg ≤ intClamp x w sg := le_max_left ..
theorem intClamp_le_intMax (x : Int) (w : Nat) (sg : Bool) : intClamp x w sg ≤ intMax w sg :=
  max_le (intMin_le_intMax w sg) (min_le_right ..)
theorem intClamp_nearest (x : Int) {w : Nat} {sg : Bool} {u : Int} (hlo : intMin w sg ≤ u) (hhi : u ≤ intMax w sg) :
    (x - intClamp x w sg).natAbs ≤ (x - u).natAbs := by
  rw [intClamp]
  omega
theorem satint_eq (x : Int) (w : Nat) (sg : Bool) :
    satint x w sg = (wrapI (intClamp x w sg) w, if intClamp x w sg = x then 0 else fSAT) := by
  have hle := intMin_le_intMax w sg
  change (if x < intMin w sg then (wrapI (intMin w sg) w, fSAT)
    else if intMax w sg < x then (wrapI (intMax w sg) w, fSAT) else (wrapI x w, 0)) = _
  split
  · next hlow =>
    have hc : intClamp x w sg = intMin w sg := by rw [intClamp]; omega
    rw [hc, if_neg (by omega)]
  · split
    · next hhigh =>
      have hc : intClamp x w sg = intMax w sg := by rw [intClamp]; omega
      rw [hc, if_neg (by omega)]
    · have hc : intClamp x w sg = x := by rw [intClamp]; omega
      rw [hc, if_pos rfl]
theorem wrapI_lt (x : Int) (w : Nat) : wrapI x w < 2 ^ w := (BitVec.ofInt w x).isLt
/-- A value of an integer type is what its pattern reads as. -/
theorem readInt_wrapI {v : Int} {w : Nat} {sg : Bool} (hw : 1 ≤ w) (hlo : intMin w sg ≤ v) (hhi : v ≤ intMax w sg) :
    readInt w sg (wrapI v w) = v := by
  cases sg with
  | true =>
    calc readInt w true (wrapI v w) = sInt w (BitVec.ofInt w v).toNat := rfl
      _ = (BitVec.ofInt w v).toInt := sInt_toNat _ hw
      _ = v := BitVec.toInt_ofInt_eq_self hw (by simpa [intMin] using hlo) (by simpa [intMax] using Int.lt_of_le_sub_one hhi)
  | false =>
    have h0 : 0 ≤ v := hlo
    have h1 : v < (2 ^ w : Nat) := Int.lt_of_le_sub_one hhi
    have hr : readInt w false (wrapI v w) = (wrapI v w % 2 ^ w : Nat) := rfl
    rw [hr, Nat.mod_eq_of_lt (wrapI_lt v w), wrapI, Int.emod_eq_of_lt h0 h1, Int.toNat_of_nonneg h0]

theorem convert_int_int {ts td x w wd : Nat} {sg sd : Bool} (hs : tcOf ts = .inl (w, sg)) (hd : tcOf td = .inl (wd, sd)) :
    convert ts td x = satint (readInt w sg x) wd sd := by rw [convert, hs, hd]
theorem convert_int_fmt {ts td x w : Nat} {sg : Bool} {f : Fmt} (hs : tcOf ts = .inl (w, sg)) (hd : tcOf td = .inr f) :
    convert ts td x = enc f (Num.ofInt (readInt w sg x)) := by rw [convert, hs, hd]

-- Floating minimum and maximum (R61)

theorem Num.lt_asymm {x y : Num} (h : x.lt y = true) : y.lt x = false := by
  cases x with
  | nan _ => cases h
  | inf a =>
    cases y with
    | nan _ => rfl
    | inf b => simp_all [Num.lt]
    | fin b n g => simp_all [Num.lt]
  | fin a m e =>
    cases y with
    | nan _ => rfl
    | inf b => simp_all [Num.lt]
    | fin b n g =>
      have he : (if g < e then g else e) = if e < g then e else g := by split <;> split <;> omega
      simp only [Num.lt, he, decide_eq_true_eq, decide_eq_false_iff_not] at h ⊢
      exact h.asymm
theorem Num.not_lt_of_eqv {x y : Num} (h : x.eqv y = true) : x.lt y = false ∧ y.lt x = false := by
  simp only [Num.eqv, Bool.and_eq_true, Bool.not_eq_true'] at h
  obtain ⟨⟨_, hxy⟩, hyx⟩ := h
  exact ⟨hxy, hyx⟩
theorem fminmax_nan (mx : Bool) {x y : Num} (h : x.isNan = true ∨ y.isNan = true) :
    fminmax mx x y = (.nan false, if x.isSnan || y.isSnan then fNV else 0) := by
  rw [fminmax, if_pos (by simpa using h), Num.snanFlag, Num.snanFlag]
  cases x.isSnan <;> cases y.isSnan <;> rfl
/-- Without a NaN, `x` is taken by a minimum where it orders below `y`, and by a maximum where it does not. -/
theorem fminmax_ordered (mx : Bool) {x y : Num} (hx : x.isNan = false) (hy : y.isNan = false) :
    fminmax mx x y = (if (x.lt y || (!y.lt x && x.neg? && !y.neg?)) != mx then x else y, 0) := by
  rw [fminmax, if_neg (by simp [hx, hy])]

section
variable (mx : Bool) {x y : Num} (hx : x.isNan = false) (hy : y.isNan = false)
include hx hy

theorem fminmax_of_lt (h : x.lt y = true) : (fminmax mx x y).1 = if mx then y else x := by
  rw [fminmax_ordered mx hx hy, h]
  cases mx <;> rfl
theorem fminmax_of_gt (h : y.lt x = true) : (fminmax mx x y).1 = if mx then x else y := by
  rw [fminmax_ordered mx hx hy, h, Num.lt_asymm h]
  cases mx <;> rfl
/-- Equal values are ordered by their signs alone. -/
theorem fminmax_of_eqv (h : x.eqv y = true) : (fminmax mx x y).1 = if (x.neg? && !y.neg?) != mx then x else y := by
  obtain ⟨hxy, hyx⟩ := Num.not_lt_of_eqv h
  rw [fminmax_ordered mx hx hy, hxy, hyx, Bool.not_false, Bool.true_and, Bool.false_or]

end

/-- Settles O39: the value `satint` delivers is the argument clamped to its type, and `fminmax` goes by one order. -/
theorem numberRules : Obligations.NumberRules := by
  refine ⟨fun _ => val_sx8, rfl, rfl, rfl, by decide, fun c => ⟨val_n8p4e_le_max c.isLt, neg_val_n8p4e c.isLt⟩, ?narrow,
    fun ts td x w wd sg sd f hs => ⟨convert_int_int hs, convert_int_fmt hs⟩, ?minmax⟩
  case narrow =>
    intro x w sg hw
    have hlo := intMin_le_intClamp x w sg
    have hhi := intClamp_le_intMax x w sg
    refine ⟨intClamp x w sg, hlo, hhi, fun u => intClamp_nearest x, ?_⟩
    rw [satint_eq]
    exact ⟨readInt_wrapI hw hlo hhi, wrapI_lt .., rfl⟩
  case minmax =>
    intro mx x y
    refine ⟨fminmax_nan mx, fun hx hy => ⟨?flags, fminmax_of_lt mx hx hy, fminmax_of_gt mx hx hy, fun h hnx hny => ?negPos,
      fun h hnx hny => ?posNeg, fun h => ?equal⟩⟩
    case flags => rw [fminmax_ordered mx hx hy]
    case negPos =>
      rw [fminmax_of_eqv mx hx hy h, hnx, hny]
      cases mx <;> rfl
    case posNeg =>
      rw [fminmax_of_eqv mx hx hy h, hnx, hny]
      cases mx <;> rfl
    case equal =>
      rw [fminmax_of_eqv mx hx hy h]
      exact ite_eq_or_eq ..

end Sys2Proof.Machine
end

section
/-! PROOFS. Words and their rows (07:R72-R78, 15:R217, R219, R222). A word is the sum of its row's fixed bits, its mark and its placed
fields, which use separate bits: so every test of the decoder is decided by the fixed bits, and every field is read back. -/

namespace Sys2Proof.Machine
open Sys2Proof

-- Numbers as sets of bits

/-- The bits of a field of `n` bits from bit `lo`. -/
def fieldMask (n lo : Nat) : Nat := (2 ^ n - 1) * 2 ^ lo
/-- `x` has no bits but those of `m`. -/
def Within (m x : Nat) : Prop := ∀ i, x.testBit i = true → m.testBit i = true

theorem testBit_fieldMask (n lo i : Nat) : (fieldMask n lo).testBit i = (decide (lo ≤ i) && decide (i - lo < n)) := by
  rw [fieldMask, Nat.testBit_mul_two_pow, Nat.testBit_two_pow_sub_one]
theorem within_fieldAt {n : Nat} (x : BitVec n) (lo : Nat) : Within (fieldMask n lo) (fieldAt x lo) := by
  intro i hi
  rw [fieldAt, Nat.testBit_mul_two_pow, BitVec.testBit_toNat, Bool.and_eq_true] at hi
  rw [testBit_fieldMask, hi.1, Bool.true_and, decide_eq_true (BitVec.lt_of_getLsbD hi.2)]
theorem and_eq_zero_iff_testBit {a b : Nat} : a &&& b = 0 ↔ ∀ i, a.testBit i = true → b.testBit i = false := by
  refine ⟨fun h i hi => ?_, fun h => Nat.eq_of_testBit_eq fun i => ?_⟩
  · simpa [hi] using congrArg (·.testBit i) h
  · rw [Nat.testBit_and, Nat.zero_testBit]
    cases hi : a.testBit i with
    | true => exact h i hi
    | false => rfl
theorem Within.self (m : Nat) : Within m m := fun _ => id
theorem Within.or {m k x y : Nat} (hx : Within m x) (hy : Within k y) : Within (m ||| k) (x ||| y) := by
  intro i hi
  rw [Nat.testBit_or, Bool.or_eq_true] at hi ⊢
  exact hi.imp (hx i) (hy i)
theorem Within.and_eq_zero {m k x y : Nat} (hx : Within m x) (hy : Within k y) (h : m &&& k = 0) : x &&& y = 0 := by
  rw [and_eq_zero_iff_testBit] at h ⊢
  intro i hi
  exact Bool.eq_false_iff.mpr fun hj => Bool.eq_false_iff.mp (h i (hx i hi)) (hy i hj)
theorem Within.or_self {m x : Nat} (h : Within m x) : x ||| m = m := by
  refine Nat.eq_of_testBit_eq fun i => ?_
  rw [Nat.testBit_or]
  cases hi : x.testBit i with
  | true => rw [h i hi, Bool.true_or]
  | false => rw [Bool.false_or]
theorem Within.lt {m x n : Nat} (h : Within m x) (hm : m < 2 ^ n) : x < 2 ^ n :=
  calc x ≤ x ||| m := Nat.left_le_or
    _ = m := h.or_self
    _ < 2 ^ n := hm
/-- Without a common bit there is no carry. -/
theorem add_eq_or_of_and_eq_zero {a b : Nat} (h : a &&& b = 0) : a + b = a ||| b := by
  have hw : a + b < 2 ^ (a + b) := Nat.lt_two_pow_self
  have hv := BitVec.add_eq_or_of_and_eq_zero (BitVec.ofNat (a + b) a) (BitVec.ofNat (a + b) b) (by rw [← BitVec.ofNat_and, h])
  rw [← BitVec.ofNat_or, ← BitVec.ofNat_add] at hv
  have hn := congrArg BitVec.toNat hv
  rwa [BitVec.toNat_ofNat, BitVec.toNat_ofNat, Nat.mod_eq_of_lt hw,
    Nat.mod_eq_of_lt (Nat.or_lt_two_pow (by omega) (by omega))] at hn

-- Reading a field

theorem fld_or (a b lo n : Nat) : fld (a ||| b) lo n = fld a lo n ||| fld b lo n := by
  simp only [fld, Nat.or_div_two_pow, Nat.or_mod_two_pow]
theorem fld_eq_zero {a lo n : Nat} (h : fieldMask n lo &&& a = 0) : fld a lo n = 0 := by
  refine Nat.eq_of_testBit_eq fun i => ?_
  rw [fld, Nat.testBit_mod_two_pow, Nat.testBit_div_two_pow, Nat.zero_testBit]
  by_cases hi : i < n
  · rw [and_eq_zero_iff_testBit.mp h (i + lo) (by simp [testBit_fieldMask, hi]), Bool.and_false]
  · rw [decide_eq_false hi, Bool.false_and]
theorem fld_fieldAt {n : Nat} (x : BitVec n) (lo : Nat) : fld (fieldAt x lo) lo n = x.toNat := by
  rw [fld, fieldAt, Nat.mul_div_cancel _ (Nat.two_pow_pos lo), Nat.mod_eq_of_lt x.isLt]

/-- Fields laid over separate bits: `u` are the bits of all of them, `Read w` says that each is read back from `w`. -/
inductive Laid : List Nat → Nat → (Nat → Prop) → Prop
  | nil : Laid [] 0 (fun _ => True)
  | cons {n lo u : Nat} {fs : List Nat} {Read : Nat → Prop} (x : BitVec n) (rest : Laid fs u Read)
      (free : fieldMask n lo &&& u = 0) :
      Laid (fieldAt x lo :: fs) (fieldMask n lo ||| u) (fun w => BitVec.ofNat n (fld w lo n) = x ∧ Read w)

theorem Laid.within {fs : List Nat} {u : Nat} {Read : Nat → Prop} (h : Laid fs u Read) : Within u fs.sum := by
  induction h with
  | nil => exact .self 0
  | @cons n lo u fs Read x rest free ih =>
    have hx := within_fieldAt x lo
    rw [List.sum_cons, add_eq_or_of_and_eq_zero (hx.and_eq_zero ih free)]
    exact hx.or ih
/-- Each field is read back from the sum of all, whatever stands in the bits of none. -/
theorem Laid.read {fs : List Nat} {u : Nat} {Read : Nat → Prop} (h : Laid fs u Read) {y : Nat} (hy : u &&& y = 0) :
    Read (fs.sum ||| y) := by
  induction h generalizing y with
  | nil => trivial
  | @cons n lo u fs Read x rest free ih =>
    have hx := within_fieldAt x lo
    rw [Nat.and_or_distrib_right, Nat.or_eq_zero_iff] at hy
    obtain ⟨hyx, hyu⟩ := hy
    rw [List.sum_cons, add_eq_or_of_and_eq_zero (hx.and_eq_zero rest.within free)]
    constructor
    · have hother : fieldMask n lo &&& (fs.sum ||| y) = 0 := by
        rw [Nat.and_or_distrib_left, (Within.self _).and_eq_zero rest.within free, hyx, Nat.or_self]
      rw [Nat.or_assoc, fld_or, fld_fieldAt, fld_eq_zero hother, Nat.or_zero, BitVec.ofNat_toNat, BitVec.setWidth_eq]
    · have hother : u &&& (fieldAt x lo ||| y) = 0 := by
        rw [Nat.and_or_distrib_left, (Within.self _).and_eq_zero hx (by rw [Nat.and_comm, free]), hyu, Nat.or_self]
      rw [Nat.or_comm (fieldAt x lo), Nat.or_assoc]
      exact ih hother

-- Marks

/-- V, S and T as one field of three bits. -/
def markCode (k : Mark) : BitVec 3 := BitVec.ofBool k.v ++ BitVec.ofBool k.s ++ BitVec.ofBool k.t
theorem fieldAt_markCode (k : Mark) : fieldAt (markCode k) 28 = k.bits := by
  obtain ⟨v, s, t⟩ := k
  cases v <;> cases s <;> cases t <;> rfl
theorem markOf_eq {w : Nat} {k : Mark} (h : BitVec.ofNat 3 (fld w 28 3) = markCode k) : markOf w = k := by
  have hk : fld w 28 3 = (markCode k).toNat := by rw [← h, BitVec.toNat_ofNat, fld, Nat.mod_mod]
  have hv : fld w 30 1 = fld w 28 3 / 4 % 2 := by simp only [fld]; omega
  have hs : fld w 29 1 = fld w 28 3 / 2 % 2 := by simp only [fld]; omega
  have ht : fld w 28 1 = fld w 28 3 % 2 := by simp only [fld]; omega
  rw [markOf, hv, hs, ht, hk]
  obtain ⟨v, s, t⟩ := k
  cases v <;> cases s <;> cases t <;> rfl
theorem bits_hint (v : Bool) : (⟨v, false, false⟩ : Mark).bits = v.toNat * 2 ^ 30 := by simp [Mark.bits]
/-- A hint word has a version bit, no S and no T (07:R80). -/
theorem markOf_hint {w : Nat} {v : Bool} (h : markOf w = ⟨v, false, false⟩) :
    (fld w 30 1 == 1) = v ∧ (fld w 28 2 == 0) = true := by
  simp only [markOf, Mark.mk.injEq, beq_eq_false_iff_ne, ne_eq] at h
  obtain ⟨hv, hs, ht⟩ := h
  refine ⟨hv, ?_⟩
  simp only [fld, beq_iff_eq] at *
  omega

-- Rows

/-- `w` is a word of a row: it has the row's fixed bits outside the bits `u` of its fields, the mark `k`, and its fields. -/
structure RowWord (fixed u : Nat) (k : Mark) (Read : Nat → Prop) (w : Nat) : Prop where
  fixes : w ||| u = fixed ||| u
  mark : markOf w = k
  read : Read w

section
variable {fixed u w lo n c : Nat} {k : Mark} {Read : Nat → Prop} (h : RowWord fixed u k Read w)
include h

theorem RowWord.fld_eq (hu : fld u lo n = 0) : fld w lo n = fld fixed lo n := by
  simpa [fld_or, hu] using congrArg (fld · lo n) h.fixes
/-- A test of the decoder that meets no field, and that the fixed bits pass. -/
theorem RowWord.passes (hu : fld u lo n = 0) (hc : fld fixed lo n = c) : (fld w lo n == c) = true := by
  rw [h.fld_eq hu, hc, beq_self_eq_true]
/-- A test of the decoder that some fixed bit fails, whatever the fields in its range hold. -/
theorem RowWord.fails (hc : fld fixed lo n ||| fld u lo n ≠ c ||| fld u lo n) : (fld w lo n == c) = false := by
  refine beq_false_of_ne fun hw => hc ?_
  rw [← hw, ← fld_or, ← fld_or, h.fixes]

end

/-- The instruction has a word, and the word selects its row. -/
def Encodes (i : Instr) : Prop := ∃ w, encode i = some w ∧ w < 2 ^ 31 ∧ decodeRow w = some (firstRow i)

/-- What is to be checked of a row: its fields leave its fixed bits and its mark free, the decoder `dec` is that of its major opcode, and
`dec` comes to the row by tests that the fixed bits decide. The default proofs compute the masks and run `dec`'s tests. -/
theorem Encodes.of_row {i : Instr} {fixed u : Nat} {k : Mark} {fs : List Nat} {Read : Nat → Prop} (dec : Nat → Option Instr)
    (he : encode i = encRow fixed k.bits fs) (hl : Laid fs u Read := by repeat' constructor)
    (hu : fieldMask 3 28 &&& u = 0 ∧ fixed &&& (fieldMask 3 28 ||| u) = 0 ∧ fixed ||| (fieldMask 3 28 ||| u) < 2 ^ 31 ∧
      fld (fieldMask 3 28 ||| u) 21 7 = 0 := by decide)
    (hop : ∀ w, fld w 21 7 = fld fixed 21 7 → decodeRow w = dec w := by intro w h; unfold decodeRow; rw [h]; rfl)
    (hd : ∀ w, RowWord fixed (fieldMask 3 28 ||| u) k Read w → dec w = some (firstRow i) := by
      intro w h
      obtain ⟨hk, hr⟩ := And.intro h.mark h.read
      simp (disch := decide) only [decodeOp00, decodeOp01, decodeOp02, decodeOp10, decodeOp11, decodeOp12, decodeOp13, decodeOp14,
        decodeOp15, decodeOp16, decodeOp17, decodeOp18, decodeOp19, decodeOp1A, decodeOp1B, decodeOp20, decodeOp21, decodeOp22,
        decodeOp23, decodeOp24, decodeOp25, decodeOp26, decodeOp27, decodeOp28, decodeOp29, decodeOp2A, decodeOp2B, decodeOp2C,
        decodeOp2D, decodeOp2E, decodeOp30, decodeOp31, decodeOp32, decodeOp33, decodeOp34, decodeOp35, decodeOp36, decodeOp37,
        decodeOp38, decodeOp39, decodeOp40, decodeOp41, decodeOp42, decodeOp43, decodeOp44, decodeOp50, decodeOp51, decodeOp52,
        decodeOp53, decodeOp58, decodeOp59, decodeOp5A, decodeOp5B, decodeOp5C, decodeOp5D, decodeOp5E, decodeOp5F, decodeOp60,
        decodeOp61, decodeOp62, decodeOp63, decodeOp68, decodeOp69, decodeOp6A, decodeOp6B, decodeOp70, decodeOp71, decodeOp72, h.fails,
        h.passes, hk, hr, firstRow, Bool.and_false, Bool.false_and, Bool.and_self, Bool.false_eq_true, if_false, if_true]) :
    Encodes i := by
  obtain ⟨hmark, hfixed, hlt, hmajor⟩ := hu
  have hk : Laid (k.bits :: fs) (fieldMask 3 28 ||| u) _ := fieldAt_markCode k ▸ hl.cons (markCode k) hmark
  have hw : fixed + k.bits + fs.sum = fixed ||| (k.bits :: fs).sum := by
    rw [Nat.add_assoc, ← List.sum_cons, add_eq_or_of_and_eq_zero ((Within.self fixed).and_eq_zero hk.within hfixed)]
  have hread := hk.read (y := fixed) (by rw [Nat.and_comm, hfixed])
  rw [Nat.or_comm, ← hw] at hread
  have hrow : RowWord fixed (fieldMask 3 28 ||| u) k Read (fixed + k.bits + fs.sum) :=
    ⟨by rw [hw, Nat.or_assoc, hk.within.or_self], markOf_eq hread.1, hread.2⟩
  refine ⟨_, he, ?_, (hop _ (hrow.fld_eq hmajor)).trans (hd _ hrow)⟩
  rw [hw]
  exact ((Within.self fixed).or hk.within).lt hlt

theorem encodes_of_isWord {i : Instr} (hi : i.isWord = true) : Encodes i := by
  cases i <;> cases hi
  case add | sub | mul | mulh | mulhn | div | divn | rem | remn | min | max | minn | maxn => exact .of_row decodeOp00 rfl
  case and | or | xor | andn | shl | shr | sra | rol | clz | ctz | popc | sel | cmp | sext | zext | bfx =>
      exact .of_row decodeOp01 rfl
  case bfi => exact .of_row decodeOp02 rfl
  case addi => exact .of_row decodeOp10 rfl
  case andi => exact .of_row decodeOp11 rfl
  case ori => exact .of_row decodeOp12 rfl
  case xori => exact .of_row decodeOp13 rfl
  case shli => exact .of_row decodeOp14 rfl
  case shri => exact .of_row decodeOp15 rfl
  case srai => exact .of_row decodeOp16 rfl
  case cmpi => exact .of_row decodeOp17 rfl
  case li => exact .of_row decodeOp18 rfl
  case lih => exact .of_row decodeOp19 rfl
  case gadr => exact .of_row decodeOp1A rfl
  case ladr => exact .of_row decodeOp1B rfl
  case br => exact .of_row decodeOp20 rfl
  case bc => exact .of_row decodeOp21 rfl
  case bcZ => exact .of_row decodeOp22 rfl
  case bg => exact .of_row decodeOp23 rfl
  case bgF => exact .of_row decodeOp24 rfl
  case call => exact .of_row decodeOp25 rfl
  case callr => exact .of_row decodeOp26 rfl
  case ret => exact .of_row decodeOp27 rfl
  case jmpr => exact .of_row decodeOp28 rfl
  case jtab => exact .of_row decodeOp29 rfl
  case loop => exact .of_row decodeOp2A rfl
  case lexit => exact .of_row decodeOp2B rfl
  case yield => exact .of_row decodeOp2C rfl
  case spawn => exact .of_row decodeOp2D rfl
  case exit => exact .of_row decodeOp2E rfl
  case ld => exact .of_row decodeOp30 rfl
  case st => exact .of_row decodeOp31 rfl
  case ldl => exact .of_row decodeOp32 rfl
  case stl => exact .of_row decodeOp33 rfl
  case ldx => exact .of_row decodeOp34 rfl
  case stx => exact .of_row decodeOp35 rfl
  case lda => exact .of_row decodeOp36 rfl
  case strel => exact .of_row decodeOp37 rfl
  case bmov => exact .of_row decodeOp38 rfl
  case bfill => exact .of_row decodeOp39 rfl
  case vld | vst | vlds | vsts | vgth | vsct | vbcst | vext => exact .of_row decodeOp40 rfl
  case vadd | vsub | vmul | vmad | vmin | vmax | vabs | vneg => exact .of_row decodeOp41 rfl
  case vand | vor | vxor | vshl | vshr | vsra | vcmp | vsel => exact .of_row decodeOp42 rfl
  case vperm | vins | vred | vfadd | vfsub | vfmul | vfma | vfmin => exact .of_row decodeOp43 rfl
  case vfmax | vrcp | vrsq | vcvt | vpack | vunpk | vscl => exact .of_row decodeOp44 rfl
  case mma => exact .of_row decodeOp50 rfl
  case mmar => exact .of_row decodeOp51 rfl
  case mzero | mwait | mwm | mpln | mscl | scalemc | acvt | msave => exact .of_row decodeOp52 rfl
  case mrest | capmint => exact .of_row decodeOp53 rfl
  case aadd => exact .of_row decodeOp58 rfl
  case aand | aor => exact .of_row decodeOp59 rfl
  case axor | aswp => exact .of_row decodeOp5A rfl
  case amin => exact .of_row decodeOp5B rfl
  case amax => exact .of_row decodeOp5C rfl
  case acas => exact .of_row decodeOp5D rfl
  case afadd => exact .of_row decodeOp5E rfl
  case fst | fblk | fence | lbfence => exact .of_row decodeOp5F rfl
  case sync | gbar | waita | wake | send | sende | recv | exch => exact .of_row decodeOp60 rfl
  case sign | dissolve | gset | gwait | sealw => exact .of_row decodeOp61 rfl
  case job | jobw | jobq | jobx | wbind | wdrop | wstat | coll => exact .of_row decodeOp62 rfl
  case task | tdone | discard | cwb | cinv => exact .of_row decodeOp63 rfl
  case trap | svc | eret | gate | gret | ctxsv | ctxld | tlbiPage | tlbiPart | tlbiAll | halt | wdog | kill | killDom | pcfgSplit |
      pcfgMerge | pcfgCreate | pcfgDestroy | pcfgBind | pcfgUnbind | vfcfg | domcfgWrite | domcfgAdjust | domcfgClear | l2msk | clkj =>
      exact .of_row decodeOp68 rfl
  case clkl | memblkOffer | memblkQuery | memblkCancel => exact .of_row decodeOp69 rfl
  case mfs => exact .of_row decodeOp6A rfl
  case mts => exact .of_row decodeOp6B rfl
  case himm v x =>
    exact .of_row (k := ⟨v, false, false⟩) decodeOp70 (by rw [bits_hint]; rfl)
      (hd := fun w h => by simp only [decodeOp70, markOf_hint h.mark, h.read, firstRow, if_true])
  case hmod v r e f c =>
    exact .of_row (k := ⟨v, false, false⟩) decodeOp71 (by rw [bits_hint]; rfl) (hd := fun w h => by
      simp (disch := decide) only [decodeOp71, h.passes, markOf_hint h.mark, h.read, firstRow, Bool.and_self, if_true])
  case hsched v a k =>
    exact .of_row (k := ⟨v, false, false⟩) decodeOp72 (by rw [bits_hint]; rfl) (hd := fun w h => by
      simp (disch := decide) only [decodeOp72, h.passes, markOf_hint h.mark, h.read, firstRow, Bool.and_self, if_true])
  -- SEAL, whose constructor's name Lean reads as its own keyword
  exact .of_row decodeOp61 rfl

theorem wellFormed_firstRow (i : Instr) : (firstRow i).wellFormed = i.wellFormed := by cases i <;> rfl
/-- R79 steps 1 to 3 pass for a word of a version of the machine whose row is well formed. -/
theorem decodeWord_of_row {w : Nat} {i : Instr} (hw : w < 2 ^ 31) (hr : decodeRow w = some i) (hi : i.wellFormed = true) :
    decodeWord w = .ok i := by
  have hv : (fld w 31 1 == 1) = false := by
    rw [fld, Nat.div_eq_of_lt hw]
    rfl
  simp [decodeWord, hv, hr, hi]

/-- Settles O55: the word of an instruction selects its row by its fixed bits and gives its fields back. -/
theorem encodeDecode : Obligations.EncodeDecode := by
  intro i hwf hi
  obtain ⟨w, he, hw, hr⟩ := encodes_of_isWord hi
  exact ⟨w, he, by omega, decodeWord_of_row hw hr ((wellFormed_firstRow i).trans hwf)⟩

/-- Settles O2: nine closed words, decoded. -/
theorem wordsDecode : Obligations.WordsDecode := by
  unfold Obligations.WordsDecode
  decide

end Sys2Proof.Machine
end

section
/-! PROOFS. The next instruction of a thread, its privilege, and hint words (07:R79-R83, R88, 09:R115). -/

namespace Sys2Proof.Machine
open Sys2Proof

-- The step of a fetched word

section
variable {s u c s' : State} {i : Instr} {bs : List Byte}

theorem step_of_next_run (hin : s.inbox = []) (hfw : s.pl.fwSt = 1) (h : s.next = .run i s') : step s = exec i s' := by
  simp [step, hin, hfw, h]
theorem State.next_of_turn (hc : s.clocked = true) (hp : s.progress = none) (ht : s.turn = some u) : s.next = u.act := by
  simp [State.next, State.issueNext, hc, hp, ht]
theorem State.act_of_ready (hd : u.noteGuards.th.due = none) (hh : u.noteGuards.th.heldHere = none)
    (hs : u.noteGuards.stopDue u.noteGuards.th = false) (hr : u.noteGuards.th.status = .ready)
    (hc : u.noteGuards.credit = (c, true)) : u.act = c.fetch := by
  simp [State.act, hd, hh, hs, hr, hc]
theorem State.fetch_of_decodes (hf : c.fetchAt c.th.pc = .ok bs s') (hj : c.th.flow.jumped = false ∨ s'.afterHint c.th.pc = .ok false)
    (hi : decodeWord (leNat bs) = .ok i) : c.fetch = .run i s' := by
  obtain hj | hj := hj <;> simp [State.fetch, hf, hj, hi]
theorem State.fetch_of_undecoded {e : DecodeError} (hf : c.fetchAt c.th.pc = .ok bs s')
    (hj : c.th.flow.jumped = false ∨ s'.afterHint c.th.pc = .ok false) (he : decodeWord (leNat bs) = .error e) :
    c.fetch = .run (.illegalEncoding (BitVec.ofNat 32 (leNat bs))) s' := by
  obtain hj | hj := hj <;> simp [State.fetch, hf, hj, he]

end

/-- Settles O1: with no other step before it, the step is the fetch at the thread's pc. -/
theorem stepRunsDecodedWord : Obligations.StepRunsDecodedWord := by
  intro s u c s' bs hin hfw hclk hprog hturn hdue hheld hstop hready hcredit hfetch hhint
  have hnext : s.next = c.fetch :=
    (State.next_of_turn hclk hprog hturn).trans (State.act_of_ready hdue hheld hstop hready hcredit)
  exact ⟨fun i hi => step_of_next_run hin hfw (hnext.trans (State.fetch_of_decodes hfetch hhint hi)),
    fun e he => step_of_next_run hin hfw (hnext.trans (State.fetch_of_undecoded hfetch hhint he))⟩

-- Privilege

theorem Thread.precheck_priv {t : Thread} {i : Instr} (hg : groupError (formOf i) t.hints 0 = none) (ht : t.transientBad i = false)
    (hp : privRank t.priv < privRank (formOf i).priv) : t.precheck i = some ⟨.priv, 0, BitVec.ofNat 64 (wordOf i)⟩ := by
  simp [Thread.precheck, hg, ht, hp]
theorem exec_eq_issue_of_priv {i : Instr} (hp : (formOf i).priv ≠ .u) (s : State) : ∃ f, exec i s = s.issue i f := by
  cases i
  case capmint | eret | ctxsv | ctxld | tlbiPage | tlbiPart | tlbiAll | halt | wdog | kill | killDom | pcfgSplit | pcfgMerge |
      pcfgCreate | pcfgDestroy | pcfgBind | pcfgUnbind | vfcfg | domcfgWrite | domcfgAdjust | domcfgClear | l2msk | clkj | clkl |
      memblkOffer | memblkQuery | memblkCancel =>
    delta exec
    exact ⟨_, rfl⟩
  all_goals exact absurd rfl hp

/-- Settles O25: the privilege check stands before every effect. -/
theorem privilegeTraps : Obligations.PrivilegeTraps := by
  intro i s _ _ hg ht hp
  obtain ⟨f, hf⟩ := exec_eq_issue_of_priv (i := i) (fun hu => by simp [hu, privRank] at hp) s
  exact hf.trans (State.issue_trap (Thread.precheck_priv hg ht hp))

-- Hint words

/-- The thread at the next word, with a hint in its group (07:R80). -/
theorem State.issueHint_joins {s : State} {i : Instr} (f : State → State)
    (hh : s.th.hints = [] ∨ s.th.hints.length < 2 ∧ ∃ v x, i = .himm v x) (h0 : s.th.lp0.act = false) (h1 : s.th.lp1.act = false) :
    s.issueHint i f = .next (f (State.clock { s with th := ({ s.th with pc := s.th.pc + 4, flow := { s.th.flow with
      group := some ⟨s.th.groupStart, s.th.hints ++ [i]⟩, jumped := false } }).countEv 2 1 })) := by
  refine if_neg ?_
  obtain hh | ⟨hlen, v, x, rfl⟩ := hh
  · cases i <;> simp [hh, h0, h1]
  · simp [hlen.not_ge, h0, h1]
theorem State.issueHint_full {s : State} {i : Instr} (f : State → State) (h : 2 ≤ s.th.hints.length) :
    s.issueHint i f = .next (s.trapping i ⟨.illenc, 0, illencTval (wordOf i) s.th.hints.length⟩) := by
  exact if_pos (by simp [h])
theorem toNat_append_add {n k : Nat} (x : BitVec n) (y : BitVec k) : (x ++ y).toNat = x.toNat * 2 ^ k + y.toNat := by
  rw [BitVec.toNat_append, ← Nat.shiftLeft_add_eq_or_of_lt y.isLt, Nat.shiftLeft_eq]
theorem Thread.simm_of_wimm {t : Thread} {x m n : Nat} {v : BitVec n} (h : t.wimm x m = (v.toNat, n)) (hn : 0 < n) :
    t.simm x m = v.signExtend 64 := by
  rw [Thread.simm, h]
  exact ofNat_sextN v hn
theorem exec_himm (v : Bool) (x : BitVec 21) (s : State) : exec (.himm v x) s = s.issueHint (.himm v x) id := rfl
theorem exec_hmod (v : Bool) (r e : BitVec 1) (f : BitVec 4) (c : BitVec 2) (s : State) :
    exec (.hmod v r e f c) s = s.issueHint (.hmod v r e f c) id := rfl
theorem exec_hsched (v : Bool) (a : Reg) (k : BitVec 3) (s : State) :
    exec (.hsched v a k) s = s.issueHint (.hsched v a k) (fun s => if k = 4 then s.prefetch a.toNat else s) := rfl

/-- Settles O9: a hint with room in its group only joins it, one without takes its trap, and the bits of the nearest HIMM end up lowest. -/
theorem hints : Obligations.Hints := by
  refine ⟨⟨?himm, ?hmod, ?hsched, ?full⟩, ?widen⟩
  case himm => exact fun v x s hlen h0 h1 => State.issueHint_joins id (.inr ⟨hlen, v, x, rfl⟩) h0 h1
  case hmod =>
    intro v r e f c s hh h0 h1
    have hjoin := State.issueHint_joins (i := .hmod v r e f c) id (.inl hh) h0 h1
    rw [hh] at hjoin
    exact hjoin
  case hsched =>
    intro v a k s hh h0 h1 t
    have hjoin := State.issueHint_joins (i := .hsched v a k) (fun s => if k = 4 then s.prefetch a.toNat else s) (.inl hh) h0 h1
    rw [hh] at hjoin
    exact hjoin
  case full =>
    intro i s h hlen
    obtain h | h | h := h <;> cases i <;> cases h
    · exact (exec_himm ..).trans (State.issueHint_full _ hlen)
    · exact (exec_hmod ..).trans (State.issueHint_full _ hlen)
    · exact (exec_hsched ..).trans (State.issueHint_full _ hlen)
  case widen =>
    intro t v w x y k a
    refine ⟨Thread.simm_of_wimm ?_ (by decide), Thread.simm_of_wimm ?_ (by decide), Thread.simm_of_wimm rfl (by decide)⟩
    · rw [toNat_append_add]
      rfl
    · rw [toNat_append_add, toNat_append_add]
      rfl

end Sys2Proof.Machine
end

section
/-! PROOFS. Delivery of results, scalar and vector (07:R86, R90). -/

namespace Sys2Proof.Machine
open Sys2Proof

-- Scalar results

@[simp] theorem Thread.gr_zero (t : Thread) : t.gr 0 = 0 := if_pos rfl
theorem Thread.gr_of_bypassed (t : Thread) {g : Reg} {bs : List Byte} (hg : g ≠ 0) (h : t.bypassed false g.toNat = some bs) :
    t.gr g = BitVec.ofNat 64 (leNat bs) := by
  rw [Thread.gr, if_neg hg, h]
theorem Thread.gr_of_not_bypassed (t : Thread) {g : Reg} (h : t.bypassed false g.toNat = none) : t.gr g = t.raw g := by
  rw [Thread.gr, h, Thread.raw]
  exact ite_eq_right_iff.mpr fun hg => (if_pos hg).symm
theorem Thread.gr_congr {t u : Thread} {g : Reg} (hb : t.bypassed false g.toNat = u.bypassed false g.toNat)
    (hr : t.raw g = u.raw g) : t.gr g = u.gr g := by
  rw [Thread.gr, Thread.gr, hb, hr]

theorem Thread.deliver_zero (t : Thread) (m : Mark) (x : Word) : t.deliver m 0 x = t := by
  unfold Thread.deliver Thread.gw
  split <;> rfl
theorem Thread.deliver_transient (t : Thread) {m : Mark} {d : Reg} (x : Word) (hm : transientMark m = true) (hd : d ≠ 0) :
    t.deliver m d x = { t with flow := { t.flow with bypass := ⟨false, d.toNat, leBytes 8 x.toNat, 4⟩ :: t.flow.bypass } } := by
  rw [Thread.deliver, if_pos hm, if_neg hd]
theorem Thread.deliver_written (t : Thread) {m : Mark} {d : Reg} (x : Word) (hm : transientMark m = false) :
    t.deliver m d x = t.gw d x := by
  rw [Thread.deliver, hm, if_neg Bool.false_ne_true]
theorem Thread.raw_gw_ne (t : Thread) {d g : Reg} (x : Word) (h : g ≠ d) : (t.gw d x).raw g = t.raw g := by
  unfold Thread.gw
  split
  · rfl
  · exact (Thread.raw_congr rfl g).trans (t.raw_setRaw_ne x h)
theorem Thread.bypassed_gw_self (t : Thread) {d : Reg} (x : Word) (h : d ≠ 0) : (t.gw d x).bypassed false d.toNat = none := by
  simp only [Thread.bypassed, Thread.gw, if_neg h, Option.map_eq_none_iff, List.find?_eq_none, List.mem_filter]
  rintro b ⟨-, hb⟩
  cases hv : b.isVec <;> simp_all
theorem Thread.bypassed_gw_ne (t : Thread) {d g : Reg} (x : Word) (h : g ≠ d) :
    (t.gw d x).bypassed false g.toNat = t.bypassed false g.toNat := by
  have hn : g.toNat ≠ d.toNat := fun e => h (BitVec.eq_of_toNat_eq e)
  unfold Thread.gw
  split
  · rfl
  · simp only [Thread.bypassed, Thread.setRaw_flow, List.find?_filter]
    congr 2
    funext b
    by_cases hb : b.idx = g.toNat <;> simp [hb, hn]
theorem Thread.regs_deliver_transient (t : Thread) {m : Mark} (d : Reg) (x : Word) (hm : transientMark m = true) :
    (t.deliver m d x).regs = t.regs := by
  obtain rfl | hd := eq_or_ne d 0
  · rw [t.deliver_zero]
  · rw [t.deliver_transient x hm hd]
theorem Thread.gr_deliver_self (t : Thread) (m : Mark) {d : Reg} (x : Word) (hd : d ≠ 0) : (t.deliver m d x).gr d = x := by
  cases hm : transientMark m with
  | true =>
    rw [t.deliver_transient x hm hd, Thread.gr_of_bypassed (bs := leBytes 8 x.toNat) _ hd (by simp [Thread.bypassed]),
      ofNat_leNat_leBytes]
  | false => rw [t.deliver_written x hm, Thread.gr_of_not_bypassed _ (t.bypassed_gw_self x hd), t.raw_gw_self x hd]
theorem Thread.raw_deliver_ne (t : Thread) (m : Mark) {d g : Reg} (x : Word) (h : g ≠ d) : (t.deliver m d x).raw g = t.raw g := by
  cases hm : transientMark m with
  | true => exact Thread.raw_congr (t.regs_deliver_transient d x hm) g
  | false => rw [t.deliver_written x hm, t.raw_gw_ne x h]
theorem Thread.bypassed_deliver_ne (t : Thread) (m : Mark) {d g : Reg} (x : Word) (h : g ≠ d) :
    (t.deliver m d x).bypassed false g.toNat = t.bypassed false g.toNat := by
  have hn : d.toNat ≠ g.toNat := fun e => h (BitVec.eq_of_toNat_eq e).symm
  cases hm : transientMark m with
  | true =>
    obtain rfl | hd := eq_or_ne d 0
    · rw [t.deliver_zero]
    · rw [t.deliver_transient x hm hd]
      simp [Thread.bypassed, hn]
  | false => rw [t.deliver_written x hm, t.bypassed_gw_ne x h]

/-- Settles O4: a result stands in the register or, when transient, in the bypass, which a read by its name meets first. -/
theorem deliveryOfResults : Obligations.DeliveryOfResults := by
  intro t m d g x
  refine ⟨Thread.gr_zero _, t.gr_deliver_self m x, fun h => Thread.gr_congr (t.bypassed_deliver_ne m x h) (t.raw_deliver_ne m x h),
    t.deliver_zero m x, t.regs_deliver_transient d x, fun hm hd => ?_, t.raw_deliver_ne m x⟩
  rw [t.deliver_written x hm, t.raw_gw_self x hd]

-- Vector results

theorem Thread.vdeliver_win (t : Thread) (m : Mark) (d o : Nat) (bs : List Byte) :
    (t.vdeliver m d o bs).win = if transientMark m then t.win else writeBytes t.win o bs := by
  unfold Thread.vdeliver
  split <;> rfl

/-- Settles O60: the window is the old one, or the old one with the 128 bytes written. -/
theorem vectorDelivery : Obligations.VectorDelivery := by
  intro t m d o bs hlen hwf u
  have hwin : u.win = _ := t.vdeliver_win m d o bs
  refine ⟨?_, by simp [u], by simp [u], by simp [u], by simp [u], by simp [u], ?_, ?_⟩
  · rw [hwin]
    split
    · exact hwf
    · exact cellsWf_writeBytes o bs hwf
  · intro hm
    rw [hwin, if_pos hm]
  · intro hm
    rw [hm, if_neg Bool.false_ne_true] at hwin
    simp only [Thread.winRead, hwin]
    exact ⟨hlen ▸ readBytes_writeBytes o bs hwf, fun k hk => readBytes_writeBytes_apart o bs k 1 hwf (by omega)⟩

end Sys2Proof.Machine
end

section
/-! PROOFS. What reset leaves (31:R340). -/

namespace Sys2Proof.Machine
open Sys2Proof

/-- Settles O56: the fields of the reset state, its registers and queues all of their reset value, and its memory without a cell. -/
theorem resetState : Obligations.ResetState := by
  refine ⟨rfl, rfl, rfl, rfl, ?_, rfl, rfl, rfl, rfl, rfl, rfl, rfl, rfl, ?_, ?_⟩
  · intro g
    have hraw : State.reset.th.raw g = 0 := by
      unfold Thread.raw
      split
      · rfl
      · exact Vector.getElem_replicate _
    simp only [Thread.gr, hraw]
    split <;> rfl
  · intro f q
    exact congrArg Queue.state (List.getD_eq_getElem?_getD.trans (List.getElem?_getD_replicate_default_eq Queue.reset 8 q))
  · exact fun a n => readBytes_nil a n

end Sys2Proof.Machine
end

section
/-! PROOFS. Values of the register forms: the model's numbers as words (05:R59, 09:R105-R109). -/

namespace Sys2Proof.Machine
open Sys2Proof

-- Arithmetic (R106)

theorem ofNat_wrapI (x : Int) (n : Nat) : BitVec.ofNat n (wrapI x n) = BitVec.ofInt n x := by
  rw [show wrapI x n = (BitVec.ofInt n x).toNat from rfl, BitVec.ofNat_toNat, BitVec.setWidth_eq]
theorem sat64_signed (x : Int) : sat64 x true = satSigned x := by
  simp only [sat64, satint, satSigned, if_true]
  split
  · rw [if_pos (by omega)]
    rfl
  · rw [if_neg (show ¬ x < -9223372036854775808 by omega)]
    split
    · rw [if_pos (by omega)]
      rfl
    · rw [if_neg (by omega), ofNat_wrapI]
theorem sat64_unsigned (x : Int) : sat64 x false = satUnsigned x := by
  simp only [sat64, satint, satUnsigned, Bool.false_eq_true, if_false]
  split
  · rfl
  · split
    · rw [if_pos (by omega)]
      rfl
    · rw [if_neg (by omega), ofNat_wrapI]
/-- ADD, SUB and MUL: the word of the exact result, or its saturation. -/
theorem arith_eq (q : BitVec 2) {e : Int} (f : Int) {w : Word} (hw : BitVec.ofInt 64 e = w) :
    arith q e f = if q = 0 then (w, 0) else if q = 1 then satSigned e else satUnsigned f := by
  rw [arith, hw, sat64_signed, sat64_unsigned]
theorem ofInt_sv_add (x y : Word) : BitVec.ofInt 64 (sv x + sv y) = x + y := by
  simp only [sv, BitVec.ofInt_add, BitVec.ofInt_toInt]
theorem ofInt_sv_sub (x y : Word) : BitVec.ofInt 64 (sv x - sv y) = x - y := by
  simp only [sv, Int.sub_eq_add_neg, BitVec.ofInt_add, BitVec.ofInt_neg, BitVec.ofInt_toInt, BitVec.sub_eq_add_neg]
theorem ofInt_sv_mul (x y : Word) : BitVec.ofInt 64 (sv x * sv y) = x * y := by
  simp only [sv, BitVec.ofInt_mul, BitVec.ofInt_toInt]

theorem sv_overflow_iff (x y : Word) :
    (sv x = -(2 ^ 63 : Nat) ∧ sv y = -1) ↔ (x = 0x8000000000000000 ∧ y = BitVec.allOnes 64) := by
  have hx : sv x = -(2 ^ 63 : Nat) ↔ x = 0x8000000000000000 := by
    rw [← BitVec.toInt_inj]
    rfl
  have hy : sv y = -1 ↔ y = BitVec.allOnes 64 := by
    rw [← BitVec.toInt_inj]
    rfl
  rw [hx, hy]
/-- DIV by its three cases. -/
theorem div_eq (x y : Word) : (ofI (divrem x y).1, (divrem x y).2.2) =
    if y = 0 then (BitVec.allOnes 64, 0)
    else if x = 0x8000000000000000 ∧ y = BitVec.allOnes 64 then (0x7FFFFFFFFFFFFFFF, fSAT) else (x.sdiv y, 0) := by
  simp only [divrem, sv_overflow_iff]
  split
  · rfl
  · split
    · rfl
    · rw [← BitVec.ofInt_toInt (x := x.sdiv y), BitVec.toInt_sdiv]
      refine Prod.ext (BitVec.eq_of_toInt_eq ?_) rfl
      rw [ofI, BitVec.toInt_ofInt, BitVec.toInt_ofInt, Int.bmod_bmod, sv, sv]
/-- REM by its three cases. -/
theorem rem_eq (x y : Word) : (ofI (divrem x y).2.1, (divrem x y).2.2) =
    if y = 0 then (x, 0)
    else if x = 0x8000000000000000 ∧ y = BitVec.allOnes 64 then (0, fSAT) else (x.srem y, 0) := by
  simp only [divrem, sv_overflow_iff]
  split
  · rw [ofI, sv, BitVec.ofInt_toInt]
  · split
    · rfl
    · rw [ofI, sv, sv, ← BitVec.toInt_srem, BitVec.ofInt_toInt]
theorem divn_eq (x y : Word) : ofN (divremn x y).1 = if y = 0 then BitVec.allOnes 64 else x / y := by
  unfold divremn
  split
  · rfl
  · exact BitVec.eq_of_toNat_eq (by simp [ofN, uv, Nat.mod_eq_of_lt (Nat.lt_of_le_of_lt (Nat.div_le_self ..) x.isLt)])
theorem remn_eq (x y : Word) : ofN (divremn x y).2 = if y = 0 then x else x % y := by
  unfold divremn
  split
  · simp [ofN, uv]
  · exact BitVec.eq_of_toNat_eq (by simp [ofN, uv, Nat.mod_eq_of_lt (Nat.lt_of_le_of_lt (Nat.mod_le ..) x.isLt)])
theorem mulh_eq (x y : Word) : ofI (sv x * sv y / (2 ^ 64 : Nat)) = BitVec.ofInt 64 ((x.toInt * y.toInt) >>> 64) := by
  have hshift (e : Int) : e >>> (64 : Int) = e / (2 ^ 64 : Nat) :=
    (Int.shiftRight_natCast_right e 64).trans (Int.shiftRight_eq_div_pow e 64)
  rw [hshift]
  rfl
theorem mulhn_eq (x y : Word) : ofN (uv x * uv y / 2 ^ 64) = BitVec.ofNat 64 ((x.toNat * y.toNat) >>> 64) := by
  rw [Nat.shiftRight_eq_div_pow]
  rfl
/-- A choice by an order is the same under the opposite test, where what is chosen from does not differ for equal words. -/
theorem ite_lt_eq_ite_gt {α β : Type} [LinearOrder β] {k : Word → β} (hk : Function.Injective k) {p q : Prop} [Decidable p]
    [Decidable q] {x y : Word} {a b : α} (hp : p ↔ k x < k y) (hq : q ↔ k y < k x) (hab : x = y → a = b) :
    (if p then a else b) = if q then b else a := by
  obtain h | h | h := lt_trichotomy (k x) (k y)
  · rw [if_pos (hp.mpr h), if_neg (mt hq.mp h.not_gt)]
  · rw [hab (hk h), ite_self, ite_self]
  · rw [if_neg (mt hp.mp h.not_gt), if_pos (hq.mpr h)]
theorem sv_lt_iff_slt (x y : Word) : sv x < sv y ↔ x.slt y = true := BitVec.slt_iff_toInt_lt.symm
/-- MIN and MAX test the other order than their rule. -/
theorem ite_sv_lt {x y : Word} {a b : Word} (hab : x = y → a = b) : (if sv x < sv y then a else b) = if y.slt x then b else a :=
  ite_lt_eq_ite_gt (k := BitVec.toInt) (fun _ _ => BitVec.eq_of_toInt_eq) Iff.rfl BitVec.slt_iff_toInt_lt hab
theorem ite_uv_lt {x y : Word} {a b : Word} (hab : x = y → a = b) : (if uv x < uv y then a else b) = if y.ult x then b else a :=
  ite_lt_eq_ite_gt (k := BitVec.toNat) (fun _ _ => BitVec.eq_of_toNat_eq) Iff.rfl BitVec.ult_iff_toNat_lt hab

-- Logic, shifts and counting (R107)

/-- A register value zero-extended from `n` bits is the number of its pattern. -/
theorem setWidth_eq_ofN {n : Nat} (v : BitVec n) : v.setWidth 64 = ofN v.toNat := (BitVec.ofNat_toNat 64 v).symm
/-- A result of the width of its form is the 32-bit or the 64-bit one. -/
theorem byWidth_eq (w : BitVec 1) (x : Word) {F : Nat → Word} {op : (n : Nat) → BitVec n → BitVec n}
    (h : ∀ n, 0 < n → F n = (op n (x.setWidth n)).setWidth 64) : F (wOf w) = byWidth w x (op 64) (op 32) := by
  rw [wOf, byWidth]
  split
  · exact h 32 (by decide)
  · rw [h 64 (by decide), BitVec.setWidth_eq, BitVec.setWidth_eq]
theorem shlW_eq (n : Nat) (x : Word) (k : Nat) : shlW n x.toNat k = (x.setWidth n <<< k).setWidth 64 := by
  rw [setWidth_eq_ofN, BitVec.toNat_shiftLeft, BitVec.toNat_setWidth, Nat.shiftLeft_eq]
  rfl
theorem shrW_eq (n : Nat) (x : Word) (k : Nat) : shrW n x.toNat k = (x.setWidth n >>> k).setWidth 64 := by
  rw [setWidth_eq_ofN, BitVec.toNat_ushiftRight, BitVec.toNat_setWidth, Nat.shiftRight_eq_div_pow]
  rfl
theorem toNat_rotateLeft_of_lt {n k : Nat} (v : BitVec n) (hk : k < n) :
    (v.rotateLeft k).toNat = v.toNat * 2 ^ k % 2 ^ n + v.toNat / 2 ^ (n - k) := by
  have hn : 2 ^ n = 2 ^ (n - k) * 2 ^ k := by rw [← Nat.pow_add, Nat.sub_add_cancel hk.le]
  have hlow : v.toNat / 2 ^ (n - k) < 2 ^ k := Nat.div_lt_of_lt_mul (hn ▸ v.isLt)
  rw [BitVec.toNat_rotateLeft, Nat.mod_eq_of_lt hk, Nat.shiftLeft_eq, Nat.shiftRight_eq_div_pow, hn, Nat.mul_mod_mul_right,
    ← Nat.shiftLeft_eq, Nat.shiftLeft_add_eq_or_of_lt hlow]
theorem rolW_eq {n k : Nat} (x : Word) (hk : k < n) : rolW n x.toNat k = ((x.setWidth n).rotateLeft k).setWidth 64 := by
  rw [setWidth_eq_ofN, toNat_rotateLeft_of_lt _ hk, BitVec.toNat_setWidth]
  rfl
/-- SHL by `k`, which may depend on the width. -/
theorem shl_eq (w : BitVec 1) (x : Word) (k : Nat → Nat) :
    shlW (wOf w) (uv x) (k (wOf w)) = byWidth w x (· <<< k 64) (· <<< k 32) :=
  byWidth_eq w x (F := fun n => shlW n (uv x) (k n)) (op := fun n v => v <<< k n) fun n _ => shlW_eq n x (k n)
theorem shr_eq (w : BitVec 1) (x : Word) (k : Nat → Nat) :
    shrW (wOf w) (uv x) (k (wOf w)) = byWidth w x (· >>> k 64) (· >>> k 32) :=
  byWidth_eq w x (F := fun n => shrW n (uv x) (k n)) (op := fun n v => v >>> k n) fun n _ => shrW_eq n x (k n)
theorem rol_eq (w : BitVec 1) (x y : Word) : rolW (wOf w) (uv x) (uv y % wOf w) =
    byWidth w x (·.rotateLeft (y.toNat % 64)) (·.rotateLeft (y.toNat % 32)) :=
  byWidth_eq w x (F := fun n => rolW n (uv x) (uv y % n)) (op := fun n v => v.rotateLeft (y.toNat % n))
    fun _ hn => rolW_eq x (Nat.mod_lt _ hn)
theorem sInt_mod (n x : Nat) : sInt n (x % 2 ^ n) = sInt n x := by rw [sInt, sInt, Nat.mod_mod]
theorem sraW_eq {n : Nat} (hn : 0 < n) (x : Word) (k : Nat) : sraW n x.toNat k = ((x.setWidth n).sshiftRight k).signExtend 64 := by
  have hx : sInt n x.toNat = (x.setWidth n).toInt := by
    rw [← sInt_toNat _ hn, BitVec.toNat_setWidth, sInt_mod]
  rw [sraW, hx, BitVec.signExtend, BitVec.toInt_sshiftRight, Int.shiftRight_eq_div_pow]
  rfl
theorem sra_eq (w : BitVec 1) (x : Word) (k : Nat → Nat) : sraW (wOf w) (uv x) (k (wOf w)) =
    if w = 1 then ((x.setWidth 32).sshiftRight (k 32)).signExtend 64 else x.sshiftRight (k 64) := by
  rw [wOf]
  split
  · exact sraW_eq (by decide) x (k 32)
  · rw [← BitVec.signExtend_eq (x.sshiftRight (k 64)), ← BitVec.setWidth_eq x]
    exact sraW_eq (by decide) x (k 64)
theorem clzW_eq {n : Nat} (hn : 0 < n) (x : Word) : ofN (clzW n x.toNat) = (x.setWidth n).clz.setWidth 64 := by
  rw [setWidth_eq_ofN, clzW, ← BitVec.toNat_setWidth]
  generalize x.setWidth n = v
  congr 1
  split
  · next h0 =>
    have hv : v = 0#n := BitVec.eq_of_toNat_eq (by simpa using h0)
    simp [BitVec.clz_eq_iff_eq_zero.mpr hv]
  · next h0 =>
    have hv : v ≠ 0#n := fun h => h0 (by simp [h])
    have hlow := BitVec.two_pow_sub_clz_le_toNat_of_ne_zero hn hv
    have hhigh := v.toNat_lt_two_pow_sub_clz
    have hlt : v.clz.toNat < n := by
      have := BitVec.clz_lt_iff_ne_zero.mpr hv
      simpa [BitVec.lt_def] using this
    rw [(Nat.log2_eq_iff h0).mpr ⟨hlow, by rwa [show n - 1 - v.clz.toNat + 1 = n - v.clz.toNat by omega]⟩]
    omega
/-- The number of a pattern's low zero bits, where it says which bit is the lowest set. -/
theorem ctzFrom_eq {x n k : Nat} (hk : k ≤ n) (hlow : ∀ i < k, x.testBit i = false) (hset : k < n → x.testBit k = true) :
    ctzFrom x n = k := by
  induction n generalizing x k with
  | zero => exact (Nat.le_zero.mp hk).symm
  | succ n ih =>
    cases k with
    | zero =>
      have : x % 2 = 1 := by simpa [Nat.testBit_zero] using hset (Nat.succ_pos n)
      exact if_pos this
    | succ k =>
      have : x % 2 ≠ 1 := by simpa [Nat.testBit_zero] using hlow 0 (Nat.succ_pos k)
      rw [ctzFrom, if_neg this, ih (k := k) (by omega)]
      · exact fun i hi => by rw [← Nat.testBit_succ]; exact hlow (i + 1) (by omega)
      · exact fun hn => by rw [← Nat.testBit_succ]; exact hset (by omega)
theorem ctzW_eq (n : Nat) (x : Word) : ofN (ctzW n x.toNat) = (x.setWidth n).ctz.setWidth 64 := by
  rw [setWidth_eq_ofN, ctzW, ← BitVec.toNat_setWidth]
  generalize x.setWidth n = v
  have hle : v.ctz.toNat ≤ n := by
    simpa [BitVec.ctz_eq_reverse_clz, BitVec.le_def] using BitVec.clz_le (x := v.reverse)
  refine congrArg ofN (ctzFrom_eq hle (fun i hi => BitVec.getLsbD_false_of_lt_ctz hi) fun hlt => ?_)
  exact BitVec.getLsbD_true_ctz_of_ne_zero (BitVec.ctz_lt_iff_ne_zero.mp (by simpa [BitVec.lt_def] using hlt))
theorem popFrom_succ (x n : Nat) : popFrom x (n + 1) = popFrom x n + (x.testBit n).toNat := by
  induction n generalizing x with
  | zero => rw [popFrom, popFrom, popFrom, Nat.toNat_testBit, Nat.pow_zero, Nat.div_one, Nat.add_comm]
  | succ n ih => rw [popFrom, ih, popFrom, Nat.testBit_succ, Nat.add_assoc]
theorem popFrom_eq {n k : Nat} (x : Word) (hk : k ≤ n) : popFrom x.toNat k = (x.setWidth n).cpopNatRec k 0 := by
  induction k with
  | zero => rfl
  | succ k ih =>
    have hbit : (x.setWidth n).getLsbD k = x.toNat.testBit k := by
      simp [BitVec.testBit_toNat, show k < n from hk]
    rw [popFrom_succ, ih (by omega), BitVec.cpopNatRec_succ, BitVec.cpopNatRec_eq (acc := _ + _), Nat.zero_add, hbit]
theorem popW_eq (n : Nat) (x : Word) : ofN (popW n x.toNat) = (x.setWidth n).cpop.setWidth 64 := by
  rw [setWidth_eq_ofN, BitVec.toNat_cpop, ← popFrom_eq x le_rfl, popW]
theorem clz_eq (w : BitVec 1) (x : Word) : ofN (clzW (wOf w) (uv x)) = byWidth w x BitVec.clz BitVec.clz :=
  byWidth_eq w x (F := fun n => ofN (clzW n (uv x))) (op := fun _ v => v.clz) fun _ hn => clzW_eq hn x
theorem ctz_eq (w : BitVec 1) (x : Word) : ofN (ctzW (wOf w) (uv x)) = byWidth w x BitVec.ctz BitVec.ctz :=
  byWidth_eq w x (F := fun n => ofN (ctzW n (uv x))) (op := fun _ v => v.ctz) fun n _ => ctzW_eq n x
theorem popc_eq (w : BitVec 1) (x : Word) : ofN (popW (wOf w) (uv x)) = byWidth w x BitVec.cpop BitVec.cpop :=
  byWidth_eq w x (F := fun n => ofN (popW n (uv x))) (op := fun _ v => v.cpop) fun n _ => popW_eq n x

-- Fields (R108)

/-- Sign extension from the low bits of a word. -/
theorem sextN_eq {n : Nat} (hn : 0 < n) (x : Word) : ofN (sextN n 64 x.toNat) = (x.setWidth n).signExtend 64 := by
  rw [← ofNat_sextN _ hn, BitVec.toNat_setWidth, sextN, sextN, sInt_mod]
  rfl
theorem extN_cases {w : BitVec 2} (hw : w.toNat ≠ 3) :
    (w = 0 ∧ extN w = 8) ∨ (w = 1 ∧ extN w = 16) ∨ (w ≠ 0 ∧ w ≠ 1 ∧ extN w = 32) := by
  revert w
  decide
theorem sext_eq {w : BitVec 2} (hw : w.toNat ≠ 3) (x : Word) : ofN (sextN (extN w) 64 (uv x)) =
    if w = 0 then (x.setWidth 8).signExtend 64 else if w = 1 then (x.setWidth 16).signExtend 64
    else (x.setWidth 32).signExtend 64 := by
  obtain ⟨rfl, h⟩ | ⟨rfl, h⟩ | ⟨h0, h1, h⟩ := extN_cases hw
  · exact h ▸ sextN_eq (n := 8) (by decide) x
  · exact h ▸ sextN_eq (n := 16) (by decide) x
  · rw [if_neg h0, if_neg h1, h]
    exact sextN_eq (by decide) x
/-- The low bits of a word by a mask. -/
theorem ofN_mod_two_pow (x : Word) {n : Nat} (hn : n ≤ 64) : ofN (x.toNat % 2 ^ n) = x &&& BitVec.ofNat 64 (2 ^ n - 1) := by
  have hle : 2 ^ n ≤ 2 ^ 64 := Nat.pow_le_pow_right two_pos hn
  have hpos := Nat.two_pow_pos n
  have hlt : x.toNat % 2 ^ n < 2 ^ 64 := (Nat.mod_lt _ hpos).trans_le hle
  have hmask : 2 ^ n - 1 < 2 ^ 64 := by omega
  apply BitVec.eq_of_toNat_eq
  rw [ofN, BitVec.toNat_ofNat, Nat.mod_eq_of_lt hlt, BitVec.toNat_and, BitVec.toNat_ofNat, Nat.mod_eq_of_lt hmask,
    Nat.and_two_pow_sub_one_eq_mod]
theorem zext_eq {w : BitVec 2} (hw : w.toNat ≠ 3) (x : Word) : ofN (uv x % 2 ^ extN w) =
    x &&& (if w = 0 then 0xFF else if w = 1 then 0xFFFF else 0xFFFFFFFF) := by
  obtain ⟨rfl, h⟩ | ⟨rfl, h⟩ | ⟨h0, h1, h⟩ := extN_cases hw
  · exact h ▸ ofN_mod_two_pow x (n := 8) (by decide)
  · exact h ▸ ofN_mod_two_pow x (n := 16) (by decide)
  · rw [if_neg h0, if_neg h1, h]
    exact ofN_mod_two_pow x (by decide)
/-- A field of `k` bits at the bottom of a word, moved to the top and back. -/
theorem ushiftRight_shiftLeft_eq (x : Word) {k : Nat} (hk : k ≤ 64) : (x <<< (64 - k)) >>> (64 - k) = ofN (x.toNat % 2 ^ k) := by
  have hpow : 2 ^ 64 = 2 ^ k * 2 ^ (64 - k) := by rw [← Nat.pow_add, Nat.add_sub_cancel' hk]
  rw [← BitVec.setWidth_eq (_ >>> _), setWidth_eq_ofN, BitVec.toNat_ushiftRight, BitVec.toNat_shiftLeft, Nat.shiftLeft_eq,
    Nat.shiftRight_eq_div_pow, hpow, Nat.mul_mod_mul_right, Nat.mul_div_cancel _ (Nat.two_pow_pos _)]
theorem sshiftRight_shiftLeft_eq (x : Word) {k : Nat} (hk : 0 < k) (hk' : k ≤ 64) :
    (x <<< (64 - k)).sshiftRight (64 - k) = (x.setWidth k).signExtend 64 := by
  ext i hi
  have htop : 63 - (64 - k) = k - 1 := by omega
  rw [BitVec.getElem_sshiftRight, BitVec.getElem_signExtend]
  by_cases h : i < k
  · simp [h, show 64 - k + i < 64 by omega, BitVec.getLsbD_eq_getElem hi]
  · simp [h, hk, htop, show ¬ 64 - k + i < 64 by omega, show ¬ 63 < 64 - k by omega, BitVec.msb_eq_getLsbD_last,
      BitVec.getLsbD_eq_getElem (show k - 1 < 64 by omega)]
/-- BFX: the field is moved to the top of the word and shifted back down. -/
theorem bfxVal_eq (sg : BitVec 1) (x y : Word) : bfxVal sg x y =
    let p := y.toNat % 64
    let k := Nat.min (y.toNat / 64 % 128) 64
    let f := (x >>> p) <<< (64 - k)
    if k = 0 then 0 else if sg = 1 then f.sshiftRight (64 - k) else f >>> (64 - k) := by
  have hp : bits y.toNat 5 0 = y.toNat % 64 := by simp [bits]
  have hk : bits y.toNat 12 6 = y.toNat / 64 % 128 := rfl
  simp only [bfxVal, hp, hk]
  generalize hk' : Nat.min (y.toNat / 64 % 128) 64 = k
  have hle : k ≤ 64 := hk' ▸ Nat.min_le_right ..
  have hfield : uv x / 2 ^ (y.toNat % 64) = (x >>> (y.toNat % 64)).toNat := by
    rw [BitVec.toNat_ushiftRight, Nat.shiftRight_eq_div_pow]
    rfl
  rw [hfield]
  split
  · rfl
  · next h0 =>
    have hpos : 0 < k := Nat.pos_of_ne_zero h0
    have hmod (z : Nat) : sextN k 64 (z % 2 ^ k) = sextN k 64 z := by rw [sextN, sextN, sInt_mod]
    rw [ushiftRight_shiftLeft_eq _ hle, sshiftRight_shiftLeft_eq _ hpos hle, hmod, sextN_eq hpos]
theorem bfiVal_eq (d x y : Word) : bfiVal d x y =
    let p := y.toNat % 64
    let k := Nat.min (y.toNat / 64 % 128) (64 - p)
    let msk := BitVec.ofNat 64 ((2 ^ k - 1) * 2 ^ p)
    (d &&& ~~~ msk) ||| ((x <<< p) &&& msk) := by
  have hp : bits y.toNat 5 0 = y.toNat % 64 := by simp [bits]
  have hk : bits y.toNat 12 6 = y.toNat / 64 % 128 := rfl
  have hshl (p : Nat) : ofN (uv x * 2 ^ p) = x <<< p :=
    BitVec.eq_of_toNat_eq (by simp [ofN, uv, Nat.shiftLeft_eq])
  simp only [bfiVal, hp, hk, hshl]
  rfl

-- Immediate forms (R109)

theorem lih_eq (i : BitVec 16) (x : Word) : ofN (i.toNat * 2 ^ 48 + uv x % 2 ^ 48) = i ++ x.setWidth 48 := by
  apply BitVec.eq_of_toNat_eq
  rw [toNat_append_add, BitVec.toNat_setWidth, ofN, BitVec.toNat_ofNat, Nat.mod_eq_of_lt (by omega)]
  rfl

end Sys2Proof.Machine
end

section
/-! PROOFS. The register ALU and immediate forms, and the addresses of tiles (09:R105-R111). -/

namespace Sys2Proof.Machine
open Sys2Proof

-- The end of a form that delivers one result

@[simp] theorem State.setfx_zero (s : State) : s.setfx 0 = s := by simp [State.setfx]
/-- A form that delivers one result with flags completes with them. -/
theorem completes_alu {s : State} {i : Instr} {m : Mark} {d : Reg} {g : Thread → Word × Flags} {x : Word} {f : Flags}
    (he : exec i s = s.alu i m d g) (hi : Issues i s) (hg : g s.th = (x, f)) : Completes i s ((s.deliver m d x).setfx f) :=
  completes_of he hi (by simp only [hg])
theorem completes_alu_noFlag {s : State} {i : Instr} {m : Mark} {d : Reg} {g : Thread → Word × Flags} {x : Word}
    (he : exec i s = s.alu i m d g) (hi : Issues i s) (hg : g s.th = (x, 0)) : Completes i s (s.deliver m d x) :=
  State.setfx_zero (s.deliver m d x) ▸ completes_alu he hi hg

-- Register forms (R105-R109)

/-- The meaning of an arithmetic form delivers the result and flags of its rule. -/
theorem exec_of_arithRule {i : Instr} {s : State} {m : Mark} {d : Reg} {r : Word × Flags}
    (h : arithRule i s.th = some (m, d, r)) : ∃ g, exec i s = s.alu i m d g ∧ g s.th = r := by
  cases i
  all_goals simp only [arithRule, Option.some.injEq, Prod.mk.injEq, reduceCtorEq] at h
  all_goals obtain ⟨rfl, rfl, rfl⟩ := h
  all_goals delta exec
  case add => exact ⟨_, rfl, arith_eq _ _ (ofInt_sv_add ..)⟩
  case sub => exact ⟨_, rfl, arith_eq _ _ (ofInt_sv_sub ..)⟩
  case mul => exact ⟨_, rfl, arith_eq _ _ (ofInt_sv_mul ..)⟩
  case mulh => exact ⟨_, rfl, congrArg (·, 0) (mulh_eq ..)⟩
  case mulhn => exact ⟨_, rfl, congrArg (·, 0) (mulhn_eq ..)⟩
  case div => exact ⟨_, rfl, div_eq ..⟩
  case divn => exact ⟨_, rfl, congrArg (·, 0) (divn_eq ..)⟩
  case rem => exact ⟨_, rfl, rem_eq ..⟩
  case remn => exact ⟨_, rfl, congrArg (·, 0) (remn_eq ..)⟩
  case min => exact ⟨_, rfl, congrArg (·, 0) (ite_sv_lt id)⟩
  case max => exact ⟨_, rfl, congrArg (·, 0) (ite_sv_lt Eq.symm)⟩
  case minn => exact ⟨_, rfl, congrArg (·, 0) (ite_uv_lt id)⟩
  case maxn => exact ⟨_, rfl, congrArg (·, 0) (ite_uv_lt Eq.symm)⟩
/-- Settles O5: the value of each form in the model is the rule's. -/
theorem arithmeticResults : Obligations.ArithmeticResults := by
  intro i s m d x f _ hr hi
  obtain ⟨g, he, hg⟩ := exec_of_arithRule hr
  exact completes_alu he hi hg
theorem exec_of_logicRule {i : Instr} {s : State} {m : Mark} {d : Reg} {x : Word} (hwf : i.wellFormed = true)
    (h : logicRule i s.th = some (m, d, x)) : ∃ g, exec i s = s.alu i m d g ∧ g s.th = (x, 0) := by
  cases i
  all_goals simp only [logicRule, Option.some.injEq, Prod.mk.injEq, reduceCtorEq] at h
  all_goals obtain ⟨rfl, rfl, rfl⟩ := h
  all_goals delta exec
  case and | or | xor | andn | sel => exact ⟨_, rfl, rfl⟩
  case shl => exact ⟨_, rfl, congrArg (·, 0) (shl_eq _ _ (uv _ % ·))⟩
  case shr => exact ⟨_, rfl, congrArg (·, 0) (shr_eq _ _ (uv _ % ·))⟩
  case sra => exact ⟨_, rfl, congrArg (·, 0) (sra_eq _ _ (uv _ % ·))⟩
  case rol => exact ⟨_, rfl, congrArg (·, 0) (rol_eq ..)⟩
  case clz => exact ⟨_, rfl, congrArg (·, 0) (clz_eq ..)⟩
  case ctz => exact ⟨_, rfl, congrArg (·, 0) (ctz_eq ..)⟩
  case popc => exact ⟨_, rfl, congrArg (·, 0) (popc_eq ..)⟩
  case cmp => exact ⟨_, rfl, rfl⟩
  case sext => exact ⟨_, rfl, congrArg (·, 0) (sext_eq (of_decide_eq_true hwf) _)⟩
  case zext => exact ⟨_, rfl, congrArg (·, 0) (zext_eq (of_decide_eq_true hwf) _)⟩
  case bfx => exact ⟨_, rfl, congrArg (·, 0) (bfxVal_eq ..)⟩
  case bfi => exact ⟨_, rfl, congrArg (·, 0) (bfiVal_eq ..)⟩
theorem exec_of_immediateRule {i : Instr} {s : State} {m : Mark} {d : Reg} {x : Word}
    (h : immediateRule i s.th = some (m, d, x)) : ∃ g, exec i s = s.alu i m d g ∧ g s.th = (x, 0) := by
  cases i
  all_goals simp only [immediateRule, Option.some.injEq, Prod.mk.injEq, reduceCtorEq] at h
  all_goals obtain ⟨rfl, rfl, rfl⟩ := h
  all_goals delta exec
  case addi | andi | ori | xori | li => exact ⟨_, rfl, rfl⟩
  case cmpi => exact ⟨_, rfl, congrArg (·, 0) (if_congr (sv_lt_iff_slt ..) rfl rfl)⟩
  case shli => exact ⟨_, rfl, congrArg (·, 0) (shl_eq _ _ fun _ => _)⟩
  case shri => exact ⟨_, rfl, congrArg (·, 0) (shr_eq _ _ fun _ => _)⟩
  case srai => exact ⟨_, rfl, congrArg (·, 0) (sra_eq _ _ fun _ => _)⟩
  case lih => exact ⟨_, rfl, congrArg (·, 0) (lih_eq ..)⟩
/-- Settles O6: as O5, with no flag. -/
theorem logicResults : Obligations.LogicResults := by
  intro i s m d x hwf hr hi
  obtain ⟨g, he, hg⟩ := exec_of_logicRule hwf hr
  exact completes_alu_noFlag he hi hg
/-- Settles O7: as O6, with the widened immediate in place of a register. -/
theorem immediateResults : Obligations.ImmediateResults := by
  intro i s m d x hwf hr hi
  obtain ⟨g, he, hg⟩ := exec_of_immediateRule hr
  exact completes_alu_noFlag he hi hg

-- Addresses of tiles (R110-R111)

theorem exec_gadr (m : Mark) (d a : Reg) (x : BitVec 11) (s : State) : exec (.gadr m d a x) s = execGadr m d a x s := rfl
theorem exec_ladr (m : Mark) (d a : Reg) (x : BitVec 11) (s : State) : exec (.ladr m d a x) s = execLadr m d a x s := rfl
theorem bits_low15 (n : Nat) : bits n 14 0 = n % 32768 := congrArg (· % 32768) (Nat.div_one n)
/-- The package index of a coordinate of 15 bits. -/
theorem bits_packageIndex (n : Nat) : bits (n % 32768) 14 11 = n % 32768 / 2048 := by
  rw [bits]
  exact Nat.mod_eq_of_lt (by omega)

/-- Settles O8: the coordinate and the package index are the two parts of the low 15 bits of the register. -/
theorem tileAddresses : Obligations.TileAddresses := by
  refine ⟨?gadr, ?gadrTraps, ?ladr⟩
  case gadr =>
    intro m d a x s g p hi hg hp
    exact completes_of (exec_gadr ..) hi (by simp only [bits_low15, bits_packageIndex, uv, hg, hp]; rfl)
  case gadrTraps =>
    intro m d a x s hi hnone
    refine traps_of (exec_gadr ..) hi ?_
    simp only [bits_low15, bits_packageIndex, uv]
    split
    next g p hg hp =>
      rw [hg, hp] at hnone
      simp at hnone
    next => rfl
  case ladr => exact fun m d a x s hi => completes_of (exec_ladr ..) hi rfl

end Sys2Proof.Machine
end

section
/-! PROOFS. Branches, calls, jumps and tables (09:R112-R116). -/

namespace Sys2Proof.Machine
open Sys2Proof

-- Branches

theorem exec_br (m : Mark) (h : BitVec 2) (o : BitVec 16) (s : State) : exec (.br m h o) s = execBr m h o s := rfl
theorem exec_bc (m : Mark) (h : BitVec 2) (c : BitVec 3) (o : BitVec 16) (s : State) : exec (.bc m h c o) s = execBc m h c o s := rfl
theorem exec_bcZ (m : Mark) (h : BitVec 2) (c : BitVec 3) (o : BitVec 16) (s : State) : exec (.bcZ m h c o) s = execBcZ m h c o s := rfl
theorem exec_bg (m : Mark) (h : BitVec 2) (c : BitVec 3) (o : BitVec 16) (s : State) : exec (.bg m h c o) s = execBg m h c o s := rfl
theorem exec_bgF (m : Mark) (h : BitVec 2) (c : BitVec 3) (o : BitVec 16) (s : State) : exec (.bgF m h c o) s = execBgF m h c o s := rfl

section
variable {s : State} {i : Instr} {o : BitVec 16}

theorem jumps_branch {taken : Thread → Bool} (he : exec i s = s.branch i o taken) (hi : Issues i s) (ht : taken s.th = true) :
    exec i s = .next (s.retireJump s.th i .branch (s.th.pc + 4 * s.th.simm o.toNat 16)) :=
  jumps_of he hi (if_pos ht)
theorem completes_branch {taken : Thread → Bool} (he : exec i s = s.branch i o taken) (hi : Issues i s) (ht : taken s.th = false) :
    Completes i s s :=
  completes_of he hi (if_neg (by simp [ht]))

variable {c : BitVec 3} {want : Guard} (he : exec i s = s.guardBranch i c o want) (hi : Issues i s)
include he hi

theorem holds_guardBranch (hg : s.th.gst c.toNat = .pend) : exec i s = .next (s.holding 1) :=
  holds_of he hi (if_pos hg)
theorem jumps_guardBranch (hg : s.th.gst c.toNat = want) (hw : want ≠ .pend) :
    exec i s = .next (s.retireJump s.th i .branch (s.th.pc + 4 * s.th.simm o.toNat 16)) :=
  jumps_of he hi ((if_neg (hg ▸ hw)).trans (if_pos hg))
theorem completes_guardBranch (hp : s.th.gst c.toNat ≠ .pend) (hg : s.th.gst c.toNat ≠ want) : Completes i s s :=
  completes_of he hi ((if_neg hp).trans (if_neg hg))

end

/-- Settles O10: a branch on a register is taken by its test, a branch on a guard by the guard's state. -/
theorem branches : Obligations.Branches := by
  refine ⟨?br, ?bcTaken, ?bc, ?bcZTaken, ?bcZ, ?bgTaken, ?bgFTaken, ?bg, ?bgF, ?bgHolds, ?bgFHolds⟩
  case br => exact fun m h o s hi => jumps_branch (exec_br ..) hi rfl
  case bcTaken => exact fun m h c o s hi hc => jumps_branch (exec_bc ..) hi (bne_iff_ne.mpr hc)
  case bc => exact fun m h c o s hi hc => completes_branch (exec_bc ..) hi (by simp [hc])
  case bcZTaken => exact fun m h c o s hi hc => jumps_branch (exec_bcZ ..) hi (beq_iff_eq.mpr hc)
  case bcZ => exact fun m h c o s hi hc => completes_branch (exec_bcZ ..) hi (beq_false_of_ne hc)
  case bgTaken => exact fun m h c o s hi hg => jumps_guardBranch (exec_bg ..) hi hg nofun
  case bgFTaken => exact fun m h c o s hi hg => jumps_guardBranch (exec_bgF ..) hi hg nofun
  case bg => exact fun m h c o s hi hg => completes_guardBranch (exec_bg ..) hi (hg ▸ nofun) (hg ▸ nofun)
  case bgF => exact fun m h c o s hi hg => completes_guardBranch (exec_bgF ..) hi (hg ▸ nofun) (hg ▸ nofun)
  case bgHolds => exact fun m h c o s hi hg => holds_guardBranch (exec_bg ..) hi hg
  case bgFHolds => exact fun m h c o s hi hg => holds_guardBranch (exec_bgF ..) hi hg

-- Calls, jumps and tables

theorem exec_call (m : Mark) (h : BitVec 2) (o : BitVec 16) (s : State) : exec (.call m h o) s = execCall m h o s := rfl
theorem exec_callr (m : Mark) (d a : Reg) (s : State) : exec (.callr m d a) s = execCallr m d a s := rfl
theorem exec_ret (m : Mark) (a : Reg) (s : State) : exec (.ret m a) s = execRet m a s := rfl
theorem exec_jmpr (m : Mark) (a : Reg) (s : State) : exec (.jmpr m a) s = execJmpr m a s := rfl
theorem exec_jtab (m : Mark) (d a : Reg) (n : BitVec 11) (s : State) : exec (.jtab m d a n) s = execJtab m d a n s := rfl

theorem regTarget_aligned (k : Jump) {t : Word} (s : State) (h : t.toNat % 4 = 0) : regTarget k t s = .jump k t s :=
  if_neg (not_not_intro h)
theorem regTarget_misaligned (k : Jump) {t : Word} (s : State) (h : t.toNat % 4 ≠ 0) : regTarget k t s = .trap ⟨.align, 0, t⟩ :=
  if_pos h

/-- Settles O11: a target in a register jumps or takes its trap by its alignment; the table's word comes from the thread's own read. -/
theorem callsJumpsTables : Obligations.CallsJumpsTables := by
  refine ⟨⟨?call, ?callr, ?ret, ?jmpr, ?misaligned⟩, ?past, ?jtab, ?entryMisaligned⟩
  case call => exact fun m h o s hi => jumps_of (exec_call ..) hi rfl
  case callr => exact fun m d a s hi ha => jumps_of (exec_callr ..) hi (regTarget_aligned _ _ ha)
  case ret => exact fun m a s hi ha => jumps_of (exec_ret ..) hi (regTarget_aligned _ _ ha)
  case jmpr => exact fun m a s hi ha => jumps_of (exec_jmpr ..) hi (regTarget_aligned _ _ ha)
  case misaligned =>
    exact fun m d a s ha => ⟨fun hi => traps_of (exec_callr ..) hi (regTarget_misaligned _ _ ha),
      fun hi => traps_of (exec_ret ..) hi (regTarget_misaligned _ _ ha),
      fun hi => traps_of (exec_jmpr ..) hi (regTarget_misaligned _ _ ha)⟩
  case past => exact fun m d a n s hi hn => completes_of (exec_jtab ..) hi (if_pos hn)
  case jtab =>
    intro m d a n s s' bs hi hn ha hread
    refine jumps_of (exec_jtab ..) hi ?_
    dsimp only
    rw [if_neg hn.not_ge, if_neg (not_not_intro ha)]
    exact Held.andThen_of_ok hread
  case entryMisaligned =>
    exact fun m d a n s hi hn ha => traps_of (exec_jtab ..) hi ((if_neg hn.not_ge).trans (if_pos ha))

end Sys2Proof.Machine
end

section
/-! PROOFS. Hardware loops (09:R117-R120). -/

namespace Sys2Proof.Machine
open Sys2Proof

theorem not_decide_and {p q : Prop} [Decidable p] [Decidable q] (h : ¬ (p ∧ q)) : (!(decide p && decide q)) = true := by
  rw [← Bool.decide_and, decide_eq_false h, Bool.not_false]

-- LOOP and LEXIT

theorem exec_loop (m : Mark) (d : Reg) (l : BitVec 16) (s : State) : exec (.loop m d l) s = execLoop m d l s := rfl
theorem exec_lexit (m : Mark) (s : State) : exec (.lexit m) s = execLexit m s := rfl

section
variable {m : Mark} {d : Reg} {l : BitVec 16} {s : State} (hi : Issues (.loop m d l) s)
include hi

theorem traps_loop (h0 : s.th.lp0.act = true) (h : s.th.lp1.act = true ∨
    ¬ (s.th.loop0.1 ≤ (s.th.pc + 4).toNat ∧ s.th.pc.toNat + 4 * l.toNat ≤ s.th.loop0.2)) :
    Traps (.loop m d l) s ⟨.illstate, 0, s.th.pc⟩ :=
  traps_of (exec_loop ..) hi (by
    dsimp only
    cases h1 : s.th.lp1.act with
    | true => rw [if_pos (by simp [h0])]
    | false =>
      have hout := not_decide_and (h.resolve_left (by simp [h1]))
      rw [if_neg (by simp), if_pos (by rw [h0, hout]; rfl)])

section
variable (h0 : s.th.lp0.act = false)
include h0

theorem jumps_loop_empty (hd : s.th.gr d = 0) : exec (.loop m d l) s =
    .next (s.retireJump s.th (.loop m d l) .skip (s.th.pc + BitVec.ofNat 64 (4 * l.toNat) + 4)) :=
  jumps_of (exec_loop ..) hi (by simp only [h0, hd]; rfl)
theorem completes_loop (hd : s.th.gr d ≠ 0) : Completes (.loop m d l) s
    { s with th := { s.th with lp0 := ⟨true, d, 0, l.toNat - 1⟩, lps := s.th.pc + 4 } } :=
  completes_of (exec_loop ..) hi (by simp only [h0, hd]; rfl)

end

section
variable (h0 : s.th.lp0.act = true) (h1 : s.th.lp1.act = false) (hlo : s.th.loop0.1 ≤ (s.th.pc + 4).toNat)
  (hhi : s.th.pc.toNat + 4 * l.toNat ≤ s.th.loop0.2)
include h0 h1 hlo hhi

theorem jumps_innerLoop_empty (hd : s.th.gr d = 0) : exec (.loop m d l) s =
    .next (s.retireJump s.th (.loop m d l) .skip (s.th.pc + BitVec.ofNat 64 (4 * l.toNat) + 4)) :=
  jumps_of (exec_loop ..) hi (by simp only [h0, h1, hlo, hhi, hd]; rfl)
theorem completes_innerLoop (hd : s.th.gr d ≠ 0) : Completes (.loop m d l) s
    { s with th := { s.th with lp1 := ⟨true, d, (s.th.pc + 4 - s.th.lps).toNat / 4, l.toNat - 1⟩ } } :=
  completes_of (exec_loop ..) hi (by simp only [h0, h1, hlo, hhi, hd]; rfl)

end
end

theorem completes_lexit {m : Mark} {s : State} (hi : Issues (.lexit m) s) : Completes (.lexit m) s
    (if s.th.lp1.act then { s with th := { s.th with lp1 := .none } }
      else if s.th.lp0.act then { s with th := { s.th with lp0 := .none } } else s) :=
  completes_of (exec_lexit ..) hi (by
    dsimp only
    split
    · rfl
    · split <;> rfl)

-- Transfers that leave a loop

section
variable (t : Thread) (a : Word)

theorem Thread.closeLoops_outside (h0 : t.lp0.act = true) (h : ¬ (t.loop0.1 ≤ a.toNat ∧ a.toNat ≤ t.loop0.2)) :
    t.closeLoops a = { t with lp0 := .none, lp1 := .none } :=
  if_pos (by rw [h0, not_decide_and h]; rfl)

variable {t a} (h0 : t.lp0.act = true → t.loop0.1 ≤ a.toNat ∧ a.toNat ≤ t.loop0.2)
include h0

theorem Thread.closeLoops_outsideInner (h1 : t.lp1.act = true) (h : ¬ (t.loop1.1 ≤ a.toNat ∧ a.toNat ≤ t.loop1.2)) :
    t.closeLoops a = { t with lp1 := .none } :=
  (if_neg (by simpa using h0)).trans (if_pos (by rw [h1, not_decide_and h]; rfl))
theorem Thread.closeLoops_inside (h1 : t.lp1.act = true → t.loop1.1 ≤ a.toNat ∧ a.toNat ≤ t.loop1.2) : t.closeLoops a = t :=
  (if_neg (by simpa using h0)).trans (if_neg (by simpa using h1))

end

-- The end of a body

/-- The end of LP0's body, or the next word (09:R118). -/
def Thread.outerStep (t : Thread) : Thread :=
  if t.lp0.act && t.pc.toNat == t.loop0.2 then
    if (t.gr t.lp0.creg).toNat ≤ 1 then { (t.gw t.lp0.creg 0) with lp0 := .none, lp1 := .none, pc := t.pc + 4 }
    else { (t.gw t.lp0.creg (t.gr t.lp0.creg - 1)) with pc := BitVec.ofNat 64 t.loop0.1 }
  else { t with pc := t.pc + 4 }

/-- The end of LP1's body with its count used up. -/
def Thread.innerClosed (t : Thread) : Thread := { (t.gw t.lp1.creg 0) with lp1 := .none }
@[simp] theorem Thread.innerClosed_pc (t : Thread) : t.innerClosed.pc = t.pc := by simp [Thread.innerClosed]
@[simp] theorem Thread.innerClosed_lp0 (t : Thread) : t.innerClosed.lp0 = t.lp0 := by simp [Thread.innerClosed]
@[simp] theorem Thread.innerClosed_loop0 (t : Thread) : t.innerClosed.loop0 = t.loop0 := by simp [Thread.innerClosed, Thread.loop0]
theorem Thread.innerClosed_gr {t : Thread} {g : Reg} (h : g ≠ t.lp1.creg) : t.innerClosed.gr g = t.gr g :=
  Thread.gr_congr (t.bypassed_gw_ne 0 h) (t.raw_gw_ne 0 h)
theorem Thread.innerClosed_gw (t : Thread) (g : Reg) (x : Word) :
    t.innerClosed.gw g x = { ((t.gw t.lp1.creg 0).gw g x) with lp1 := .none } := by
  rw [Thread.innerClosed]
  generalize t.gw t.lp1.creg 0 = u
  unfold Thread.gw Thread.setRaw
  split <;> rfl

section
variable {t : Thread}

theorem Thread.outerStep_elsewhere (h : t.lp0.act = true → t.pc.toNat ≠ t.loop0.2) : t.outerStep = { t with pc := t.pc + 4 } :=
  if_neg (by simpa using h)
theorem Thread.outerStep_again (h0 : t.lp0.act = true) (hpc : t.pc.toNat = t.loop0.2) (hc : 1 < (t.gr t.lp0.creg).toNat) :
    t.outerStep = { (t.gw t.lp0.creg (t.gr t.lp0.creg - 1)) with pc := BitVec.ofNat 64 t.loop0.1 } :=
  (if_pos (by simp [h0, hpc])).trans (if_neg hc.not_ge)
theorem Thread.outerStep_ends (h0 : t.lp0.act = true) (hpc : t.pc.toNat = t.loop0.2) (hc : (t.gr t.lp0.creg).toNat ≤ 1) :
    t.outerStep = { (t.gw t.lp0.creg 0) with lp0 := .none, lp1 := .none, pc := t.pc + 4 } :=
  (if_pos (by simp [h0, hpc])).trans (if_pos hc)

/-- Elsewhere than at the end of LP1's body only LP0's counts. -/
theorem Thread.loopStep_outer (h : t.lp1.act = true → t.pc.toNat ≠ t.loop1.2) : t.loopStep = t.outerStep := by
  refine (if_neg (by simpa using h)).trans ?_
  cases h0 : t.lp0.act with
  | true => rfl
  | false => exact (Thread.outerStep_elsewhere (by simp [h0])).symm
theorem Thread.loopStep_again (h1 : t.lp1.act = true) (hpc : t.pc.toNat = t.loop1.2) (hc : 1 < (t.gr t.lp1.creg).toNat) :
    t.loopStep = { (t.gw t.lp1.creg (t.gr t.lp1.creg - 1)) with pc := BitVec.ofNat 64 t.loop1.1 } :=
  (if_pos (by simp [h1, hpc])).trans (if_neg hc.not_ge)
theorem Thread.loopStep_ends (h1 : t.lp1.act = true) (hpc : t.pc.toNat = t.loop1.2) (hc : (t.gr t.lp1.creg).toNat ≤ 1) :
    t.loopStep = t.innerClosed.outerStep :=
  (if_pos (by simp [h1, hpc])).trans (if_pos hc)

end

/-- Settles O12: LOOP, LEXIT and the end of a body by the loops that are active; a taken branch closes the loops it leaves. -/
theorem loopsAndBranches : Obligations.LoopsAndBranches := by
  refine ⟨⟨⟨?empty, ?opens, ?inner, ?traps, ?innerEmpty, ?lexit, ?counts, ?word⟩, ?close⟩,
    ?noLoop, ?innerAgain, ?innerEnds, ?outerAgain, ?outerEnds, ?outerGoesOn, ?bothGoOn, ?innerEndsOuterAgain⟩
  case empty => exact fun m d l s hi h0 hd => jumps_loop_empty hi h0 hd
  case opens => exact fun m d l s hi h0 hd => completes_loop hi h0 hd
  case inner => exact fun m d l s hi h0 h1 hlo hhi hd => completes_innerLoop hi h0 h1 hlo hhi hd
  case traps => exact fun m d l s hi h0 h => traps_loop hi h0 h
  case innerEmpty => exact fun m d l s hi h0 h1 hlo hhi hd => jumps_innerLoop_empty hi h0 h1 hlo hhi hd
  case lexit => exact fun m s hi => completes_lexit hi
  case counts => exact fun s g => ⟨rfl, rfl⟩
  case word => decide
  case close =>
    refine fun t a => ⟨t.closeLoops_regs a, fun h0 hout => ?_, fun h0 => ⟨?_, fun h1 => ?_, fun h1 hout => ?_⟩⟩
    · rw [t.closeLoops_outside a h0 hout]
      exact ⟨rfl, rfl⟩
    · by_cases h1 : t.lp1.act = true → t.loop1.1 ≤ a.toNat ∧ a.toNat ≤ t.loop1.2
      · rw [Thread.closeLoops_inside h0 h1]
      · obtain ⟨h1, hout⟩ := Classical.not_imp.mp h1
        rw [Thread.closeLoops_outsideInner h0 h1 hout]
    · rw [Thread.closeLoops_inside h0 h1]
    · rw [Thread.closeLoops_outsideInner h0 h1 hout]
      rfl
  case noLoop =>
    exact fun t h1 h0 => (Thread.loopStep_outer (by simp [h1])).trans (Thread.outerStep_elsewhere (by simp [h0]))
  case innerAgain => exact fun t h1 hpc hc => Thread.loopStep_again h1 hpc hc
  case innerEnds =>
    intro t h1 hpc hc h0 hne
    rw [Thread.loopStep_ends h1 hpc hc, Thread.outerStep_elsewhere (by simpa using fun _ => hne), t.innerClosed_pc]
    rfl
  case outerAgain =>
    exact fun t h1 h0 hpc hc => (Thread.loopStep_outer (by simp [h1])).trans (Thread.outerStep_again h0 hpc hc)
  case outerEnds =>
    exact fun t h1 h0 hpc hc => (Thread.loopStep_outer (by simp [h1])).trans (Thread.outerStep_ends h0 hpc hc)
  case outerGoesOn =>
    exact fun t h1 h0 hne => (Thread.loopStep_outer (by simp [h1])).trans (Thread.outerStep_elsewhere fun _ => hne)
  case bothGoOn =>
    exact fun t h1 h0 hne1 hne0 => (Thread.loopStep_outer fun _ => hne1).trans (Thread.outerStep_elsewhere fun _ => hne0)
  case innerEndsOuterAgain =>
    intro t h1 hpc1 hc1 h0 hpc0 hne hc0
    have hcount : t.innerClosed.gr t.innerClosed.lp0.creg = t.gr t.lp0.creg := by
      rw [t.innerClosed_lp0, Thread.innerClosed_gr hne]
    rw [Thread.loopStep_ends h1 hpc1 hc1, Thread.outerStep_again (by simpa using h0) (by simpa using hpc0) (hcount ▸ hc0), hcount,
      t.innerClosed_lp0, t.innerClosed_loop0, t.innerClosed_gw]

end Sys2Proof.Machine
end

section
/-! PROOFS. YIELD, SPAWN and EXIT (09:R121-R123). -/

namespace Sys2Proof.Machine
open Sys2Proof

theorem exec_yield (m : Mark) (s : State) : exec (.yield m) s = execYield m s := rfl
theorem exec_spawn (m : Mark) (d a b : Reg) (p : BitVec 2) (s : State) : exec (.spawn m d a b p) s = execSpawn m d a b p s := rfl
theorem exec_exit (m : Mark) (s : State) : exec (.exit m) s = execExit m s := rfl

theorem exec_yield_passes {m : Mark} {s : State} (hi : Issues (.yield m) s) : exec (.yield m) s = .next (s.passes s.th (.yield m)) := by
  rw [exec_yield, execYield, State.issue_body hi, State.finish_pass, State.passes]

-- SPAWN of a record that the larder holds (log 84)

/-- The answer to a SPAWN's held record store: whose it is, its record, and its refusal. -/
abbrev SpawnAnswer := (Nat × Word) × Word × Option Trap
/-- The answer to the thread's SPAWN of a record. -/
def State.spawnAnswer (s : State) (recA : Word) : Option SpawnAnswer :=
  s.st.pendSpawn.find? (fun x => x.1 == s.th.who && x.2.1 == recA)
/-- The state with an answer taken. -/
def State.answerTaken (s : State) (x : SpawnAnswer) : State := { s with st := { s.st with pendSpawn := s.st.pendSpawn.erase x } }
/-- The thread's SPAWN of a record waits in the larder. -/
def State.spawnHeld (s : State) (recA : Word) : Bool :=
  s.ms.larder.any (fun l => l.spawn && l.who == some s.th.who && l.va == recA)

section
variable {s : State} {recA : Word} (q : Piece) (bs : List Byte) (queued : State → Done)

section
variable {x : SpawnAnswer} (hx : s.spawnAnswer recA = some x)
include hx

theorem State.heldSpawn_refused {t : Trap} (ht : x.2.2 = some t) : s.heldSpawn q recA bs queued = .trapWith t (s.answerTaken x) := by
  rw [State.spawnAnswer] at hx
  simp only [State.heldSpawn, hx, ht]
  rfl
theorem State.heldSpawn_accepted (ht : x.2.2 = none) : s.heldSpawn q recA bs queued = queued (s.answerTaken x) := by
  rw [State.spawnAnswer] at hx
  simp only [State.heldSpawn, hx, ht]
  rfl

end

theorem State.holdStore_larder (s : State) (a : Acc) (q : Piece) (bs : List Byte) : ∃ e : LarderEntry,
    (s.holdStore a q bs).ms.larder = s.ms.larder ++ [e] ∧ e.tag = s.fresh ∧ e.va = q.va ∧ e.pa = q.pa ∧ e.data = bs :=
  ⟨_, rfl, rfl, rfl, rfl, rfl⟩

variable (hx : s.spawnAnswer recA = none)
include hx

theorem State.heldSpawn_holds (h : s.spawnHeld recA = true ∨ s.larderFits s.th.acc [q] = false) :
    s.heldSpawn q recA bs queued = .hold 3 s := by
  rw [State.spawnAnswer] at hx
  rw [State.spawnHeld] at h
  simp only [State.heldSpawn, hx]
  split
  · rfl
  next hh => exact if_pos (by simp [h.resolve_left hh])
/-- The record enters the larder as its last entry. -/
theorem State.heldSpawn_enters (hh : s.spawnHeld recA = false) (hf : s.larderFits s.th.acc [q] = true) :
    ∃ (u : State) (x : LarderEntry), s.heldSpawn q recA bs queued = .hold 3 u ∧ u.ms.larder.getLast? = some x ∧ x.spawn = true ∧
      x.va = q.va ∧ x.pa = q.pa ∧ x.data = bs := by
  obtain ⟨e, he, htag, hva, hpa, hdata⟩ := s.holdStore_larder s.th.acc q bs
  rw [State.spawnAnswer] at hx
  rw [State.spawnHeld] at hh
  simp only [State.heldSpawn, hx, hh, hf]
  exact ⟨_, { e with spawn := true }, rfl, by simp [he, htag], rfl, hva, hpa, hdata⟩

end

-- SPAWN

/-- The run-queue entry of a spawned record. -/
def Thread.spawnEntry (t : Thread) (recA : Word) (p : BitVec 2) : RunEntry := ⟨dieOf t.tile, t.dom, p.toNat, recA⟩

section
variable {m : Mark} {d a b : Reg} {p : BitVec 2} {s : State} (hi : Issues (.spawn m d a b p) s)
include hi

theorem traps_spawn_record (ha : (s.th.gr a).toNat % 64 ≠ 0) : Traps (.spawn m d a b p) s ⟨.align, 0, s.th.gr a⟩ :=
  traps_of (exec_spawn ..) hi (if_pos ha)

variable (ha : (s.th.gr a).toNat % 64 = 0)
include ha

theorem traps_spawn_saveArea (hd : (s.th.gr d).toNat % 1024 ≠ 0) : Traps (.spawn m d a b p) s ⟨.align, 0, s.th.gr d⟩ :=
  traps_of (exec_spawn ..) hi ((if_neg (not_not_intro ha)).trans (if_pos hd))

variable (hd : (s.th.gr d).toNat % 1024 = 0)
include hd

theorem traps_spawn_pc (hb : (s.th.gr b).toNat % 4 ≠ 0) : Traps (.spawn m d a b p) s ⟨.align, 0, s.th.gr b⟩ :=
  traps_of (exec_spawn ..) hi ((if_neg (not_not_intro ha)).trans ((if_neg (not_not_intro hd)).trans (if_pos hb)))

variable (hb : (s.th.gr b).toNat % 4 = 0)
include hb

theorem traps_spawn_page {x : Trap} (hp : s.pieces s.th.acc .write (s.th.gr a) 64 = .error x) :
    Traps (.spawn m d a b p) s { x with tval := s.th.gr a } :=
  traps_of (exec_spawn ..) hi (by simp [ha, hd, hb, hp])

variable {s' : State} {ps : List Piece} (hp : s.pieces s.th.acc .write (s.th.gr a) 64 = .ok (ps, s'))
include hp

theorem traps_spawn_target {x : Trap} (hr : ps.findSome? (s'.refusal s.th.acc) = some x) :
    Traps (.spawn m d a b p) s { x with tval := s.th.gr a } :=
  traps_of (exec_spawn ..) hi (by simp [ha, hd, hb, hp, hr])

variable (hr : ps.findSome? (s'.refusal s.th.acc) = none)
include hr

theorem holds_spawn_release (hm : s.mayRelease s.th = false) : exec (.spawn m d a b p) s = .next (s.holding 2) :=
  holds_of (exec_spawn ..) hi (by simp [ha, hd, hb, hp, hr, hm])

variable (hm : s.mayRelease s.th = true) (hw : s'.accessWaits s.th.acc ps = false)
include hm hw

/-- A record on a page whose stores the larder holds. -/
theorem exec_spawn_held {q : Piece} (hq : ps.find? (s'.held s.th.acc) = some q) : exec (.spawn m d a b p) s =
    s.finish (.spawn m d a b p) (s'.heldSpawn q (s.th.gr a) (spawnRecord s.th (s.th.gr b) (s.th.gr d) p.toNat)
      (fun u => .ok (u.enqueue (s.th.spawnEntry (s.th.gr a) p)))) := by
  refine ((exec_spawn ..).trans (State.issue_body hi)).trans (congrArg _ ?_)
  simp only [ha, hd, hb, hp, hr, hm, hw, hq]
  rfl

variable (hq : ps.find? (s'.held s.th.acc) = none) (hblk : s'.storeBlock s.th.acc ps = none)
include hq hblk

theorem completes_spawn_here (hfar : ps.find? (s'.postedPiece s.th.acc) = none) : Completes (.spawn m d a b p) s
    ((storePieces s.th.acc ps (spawnRecord s.th (s.th.gr b) (s.th.gr d) p.toNat) s').enqueue (s.th.spawnEntry (s.th.gr a) p)) :=
  completes_of (exec_spawn ..) hi (by
    simp only [ha, hd, hb, hp, hr, hm, hw, hq, hblk, hfar]
    rfl)
theorem completes_spawn_answered {q : Piece} {h : HeldRead} {x : List Byte} (hfar : ps.find? (s'.postedPiece s.th.acc) = some q)
    (hlive : s.pkgLive q.pkg = true) (hh : s.th.flow.heldReads.find? (fun h => h.pa == q.pa && h.n == 64) = some h)
    (hx : h.reply = some (.done, x)) :
    Completes (.spawn m d a b p) s (s'.enqueue (s.th.spawnEntry (s.th.gr a) p)) :=
  completes_of (exec_spawn ..) hi (by
    simp only [ha, hd, hb, hp, hr, hm, hw, hq, hblk, hfar, hlive, hh, hx]
    rfl)

end

-- EXIT

section
variable {m : Mark} {s : State} (hi : Issues (.exit m) s)
include hi

theorem traps_exit_member {bar : Nat} {c : Compact} {x : Member} (hm : s.memberOf s.th.tid = some (bar, c, x))
    (hx : x.tid = s.th.tid) : Traps (.exit m) s ⟨.illstate, 0, s.th.pc⟩ :=
  traps_of (exec_exit ..) hi (by simp [hm, hx])
theorem exec_exit_leaves (hm : ∀ r, s.memberOf s.th.tid = some r → r.2.2.tid ≠ s.th.tid) :
    let t := s.th.callerBack.countEv 2 1
    exec (.exit m) s = .next (State.leaveNow (State.clock { s.freeGate s.th with th := { t with
      pc := t.pc + 4, lp0 := .none, lp1 := .none, flow := { t.flow with leave := 1, group := none, hold := 0 } } })) := by
  rw [exec_exit, execExit, State.issue_body hi]
  cases hr : s.memberOf s.th.tid with
  | none => simp [hr]
  | some r => simp [hr, hm r hr]

end

/-- Settles O13: SPAWN's checks in their order, then what its record's page and home make of the store; EXIT by its membership. -/
theorem threadInstructions : Obligations.ThreadInstructions := by
  refine ⟨?yield, ?spawn, ?spawnTraps, ?exit, ?exitMember⟩
  case yield => exact fun m s hi => exec_yield_passes hi
  case spawn =>
    intro m d a b p s s' ps hi ha hd hb hp hr
    refine ⟨fun hm => holds_spawn_release hi ha hd hb hp hr hm, fun q hq hm hw => ?held, fun hq hm hw hblk => ?made⟩
    case held =>
      have hex := exec_spawn_held hi ha hd hb hp hr hm hw hq
      refine ⟨fun x hx => ⟨fun y hy => ?_, fun hy => ?_⟩, fun hx => ⟨fun hh => ?_, fun hh hf => ?_⟩⟩
      · rw [hex, State.heldSpawn_refused _ _ _ hx hy, State.finish_trapWith]
        rfl
      · intro e hb
        rw [hex, State.heldSpawn_accepted _ _ _ hx hy]
        exact State.finish_ok hb
      · rw [hex, State.heldSpawn_holds _ _ _ hx hh, State.finish_hold]
      · obtain ⟨u, x, hu, hlast⟩ := State.heldSpawn_enters q
          (spawnRecord s.th (s.th.gr b) (s.th.gr d) p.toNat) _ hx hh hf
        exact ⟨u, x, by rw [hex, hu, State.finish_hold], hlast⟩
    case made =>
      exact ⟨fun hfar => completes_spawn_here hi ha hd hb hp hr hm hw hq hblk hfar,
        fun q h x hfar hlive hh hx => completes_spawn_answered hi ha hd hb hp hr hm hw hq hblk hfar hlive hh hx⟩
  case spawnTraps =>
    exact fun m d a b p s hi => ⟨traps_spawn_record hi, traps_spawn_saveArea hi, traps_spawn_pc hi, fun ha hd hb =>
      ⟨fun x hp => traps_spawn_page hi ha hd hb hp, fun ps u x hp hr => traps_spawn_target hi ha hd hb hp hr⟩⟩
  case exit => exact fun m s hi hm => exec_exit_leaves hi hm
  case exitMember => exact fun m s bar c x hi hm hx => traps_exit_member hi hm hx

end Sys2Proof.Machine
end

section
/-! PROOFS. Scalar loads and stores (09:R125-R128). -/

namespace Sys2Proof.Machine
open Sys2Proof

theorem exec_ld (m : Mark) (d b : Reg) (z : BitVec 3) (o : BitVec 8) (s : State) : exec (.ld m d b z o) s = execLd m d b z o s := rfl
theorem exec_ldx (m : Mark) (d b : Reg) (z : BitVec 3) (x : Reg) (s : State) : exec (.ldx m d b z x) s = execLdx m d b z x s := rfl
theorem exec_lda (m : Mark) (d b : Reg) (z c : BitVec 3) (o : BitVec 5) (s : State) :
    exec (.lda m d b z c o) s = execLda m d b z c o s := rfl
theorem exec_st (m : Mark) (d b : Reg) (z : BitVec 3) (o : BitVec 8) (s : State) : exec (.st m d b z o) s = execSt m d b z o s := rfl
theorem exec_stx (m : Mark) (d b : Reg) (z : BitVec 3) (x : Reg) (s : State) : exec (.stx m d b z x) s = execStx m d b z x s := rfl
theorem exec_strel (m : Mark) (d b : Reg) (z c : BitVec 3) (o : BitVec 5) (s : State) :
    exec (.strel m d b z c o) s = execStrel m d b z c o s := rfl

-- The shapes that LD, LDX and LDA, and ST, STX and STREL, share

/-- A scalar load of the thread of `s` with its address; `ord` for LDA. -/
def ScalarLoad (i : Instr) (s : State) (ord : Bool) (d : Reg) (z : BitVec 3) (ea : Word) : Prop :=
  (∃ m b o, i = .ld m d b z o ∧ ord = false ∧ ea = s.th.gr b + BitVec.ofNat 64 (szBytes z) * s.th.simm o.toNat 8) ∨
  (∃ m b x, i = .ldx m d b z x ∧ ord = false ∧ ea = s.th.gr b + BitVec.ofNat 64 (szBytes z) * s.th.gr x) ∨
  (∃ m b c o, i = .lda m d b z c o ∧ ord = true ∧ ea = s.th.gr b + BitVec.ofNat 64 (szBytes z) * s.th.simm o.toNat 5)
/-- A scalar store of the thread of `s` with its address; `ord` for STREL. -/
def ScalarStore (i : Instr) (s : State) (ord : Bool) (d : Reg) (z : BitVec 3) (ea : Word) : Prop :=
  (∃ m b o, i = .st m d b z o ∧ ord = false ∧ ea = s.th.gr b + BitVec.ofNat 64 (szBytes z) * s.th.simm o.toNat 8) ∨
  (∃ m b x, i = .stx m d b z x ∧ ord = false ∧ ea = s.th.gr b + BitVec.ofNat 64 (szBytes z) * s.th.gr x) ∨
  (∃ m b c o, i = .strel m d b z c o ∧ ord = true ∧ ea = s.th.gr b + BitVec.ofNat 64 (szBytes z) * s.th.simm o.toNat 5)

section
variable {i : Instr} {s : State} {ord : Bool} {d : Reg} {z : BitVec 3} {ea : Word} (hi : Issues i s)
include hi

/-- A scalar load is its access, LDA with its alignment checked first (R128). -/
theorem ScalarLoad.exec_eq (h : ScalarLoad i s ord d z ea) : exec i s =
    s.finish i (if ord = true ∧ ea.toNat % szBytes z ≠ 0 then .trap ⟨.align, 0, ea⟩ else s.load ord d z ea) := by
  obtain ⟨m, b, o, rfl, rfl, rfl⟩ | ⟨m, b, x, rfl, rfl, rfl⟩ | ⟨m, b, c, o, rfl, rfl, rfl⟩ := h
  · rw [exec_ld, execLd, State.issue_body hi]
    rfl
  · rw [exec_ldx, execLdx, State.issue_body hi]
    rfl
  · rw [exec_lda, execLda, State.issue_body hi]
    simp only [true_and]
    rfl
theorem ScalarStore.exec_eq (h : ScalarStore i s ord d z ea) : exec i s =
    s.finish i (if ord = true ∧ ea.toNat % szBytes z ≠ 0 then .trap ⟨.align, 0, ea⟩
      else s.store ord ord ea (leBytes (szBytes z) (s.th.gr d).toNat)) := by
  obtain ⟨m, b, o, rfl, rfl, rfl⟩ | ⟨m, b, x, rfl, rfl, rfl⟩ | ⟨m, b, c, o, rfl, rfl, rfl⟩ := h
  · rw [exec_st, execSt, State.issue_body hi]
    rfl
  · rw [exec_stx, execStx, State.issue_body hi]
    rfl
  · rw [exec_strel, execStrel, State.issue_body hi]
    simp only [true_and]
    rfl

end

-- Loads

/-- The outstanding result of a scalar load: its parts, decoded by the format in force on its first page (R127, log 67). -/
def Thread.loadResult (t : Thread) (ord : Bool) (d : Reg) (z : BitVec 3) (ps : List Piece) (parts : List Part)
    (ft : Option Trap) : Outst :=
  ⟨d, [], .parts parts (.scalar z.toNat (t.loadEf ((ps.head?.map (fun p => leafEf p.leaf)).getD 0))), ft, loadOrd ord ps⟩

section
variable {s : State} {ord : Bool} {d : Reg} {z : BitVec 3} {ea : Word}

theorem State.load_fault {x : Trap} (hp : s.pieces s.th.acc .read ea (szBytes z) ord = .error x) : s.load ord d z ea = .trap x := by
  simp only [State.load, hp]

variable {s' : State} {ps : List Piece} (hp : s.pieces s.th.acc .read ea (szBytes z) ord = .ok (ps, s'))
include hp

theorem State.load_counts (hd : s.th.countsBy d = true) : s.load ord d z ea = .trap ⟨.illstate, 0, s.th.pc⟩ := by
  simp only [State.load, hp, hd, if_true]
theorem State.load_waits (hd : s.th.countsBy d = false) (hw : s'.accessWaits s.th.acc ps = true) :
    s.load ord d z ea = .hold 2 s' := by
  simp only [State.load, hp, hd, hw, if_true, Bool.false_eq_true, if_false]
theorem State.load_made (hd : s.th.countsBy d = false) (hw : s'.accessWaits s.th.acc ps = false) :
    s.load ord d z ea = s'.loadThen s.th.acc ps (s.th.loadResult ord d z ps) := by
  simp only [State.load, hp, hd, hw, Bool.false_eq_true, if_false]
  rfl

end

section
variable {s : State} {a : Acc} {ps : List Piece} (res : List Part → Option Trap → Outst)

theorem State.loadThen_parts {parts : List Part} {ft : Option Trap} {e : State} (ht : s.inTurn ps = false)
    (hl : loadPieces a ps s = (parts, ft, none, e)) : s.loadThen a ps res = .ok (e.await (res parts ft)) := by
  simp only [State.loadThen, ht, hl, Bool.false_eq_true, if_false]

variable (ht : s.inTurn ps = true)
include ht

theorem State.loadThen_inTurn {bs : List Byte} {u : State} (hl : s.heldInTurn a ps = .ok bs u) :
    s.loadThen a ps res = .ok (u.await (res [.have bs] none)) := by
  simp only [State.loadThen, ht, hl, if_true]
theorem State.loadThen_inTurn_fault {x : Trap} (hl : s.heldInTurn a ps = .trap x) :
    s.loadThen a ps res = .ok (s.await (res [.have []] (some x))) := by
  simp only [State.loadThen, ht, hl, if_true]
theorem State.loadThen_inTurn_holds {u : State} (hl : s.heldInTurn a ps = .hold u) : s.loadThen a ps res = .hold 2 u := by
  simp only [State.loadThen, ht, hl, if_true]

end

/-- Settles O14: the three forms are one access, whose outcome is the first that applies: a fault, the trap for a loop's count, a hold,
the result outstanding. -/
theorem loadsComplete : Obligations.LoadsComplete := by
  intro i s ord d z ea hi hform
  have hex := ScalarLoad.exec_eq hi hform
  refine ⟨fun ho ha => ?misaligned, fun ha => ?aligned⟩
  case misaligned => rw [Traps, hex, if_pos ⟨ho, ha⟩, State.finish_trap]
  case aligned =>
    rw [if_neg fun h => h.2 (ha h.1)] at hex
    refine ⟨fun x hp => ?fault, fun ps s' hp => ⟨fun hd => ?counts, fun hd hw => ?waits⟩, fun ps s' parts ft e hp hd hw => ?made⟩
    case fault => rw [Traps, hex, State.load_fault hp, State.finish_trap]
    case counts => rw [Traps, hex, State.load_counts hp hd, State.finish_trap]
    case waits => rw [hex, State.load_waits hp hd hw, State.finish_hold]
    case made =>
      rw [State.load_made hp hd hw] at hex
      refine ⟨fun ht hl hb => ?_, fun ht => ⟨fun bs u hl hb => ?_, fun x hl hb => ?_, fun u hl => ?_⟩⟩
      · rw [hex, State.loadThen_parts _ ht hl]
        exact State.finish_ok hb
      · rw [hex, State.loadThen_inTurn _ ht hl]
        exact State.finish_ok hb
      · rw [hex, State.loadThen_inTurn_fault _ ht hl]
        exact State.finish_ok hb
      · rw [hex, State.loadThen_inTurn_holds _ ht hl, State.finish_hold]

-- Stores

@[simp] theorem length_leBytes (n x : Nat) : (leBytes n x).length = n := by
  induction n generalizing x with
  | zero => rfl
  | succ n ih => simp [leBytes, ih]

theorem not_unreleased {rel may : Bool} (h : rel = true → may = true) : (rel && !may) = false := by
  cases rel with
  | false => rfl
  | true => rw [h rfl]; rfl

section
variable {s : State} {ord rel : Bool} {ea : Word} {bs : List Byte} {n : Nat} (hn : bs.length = n)
include hn

theorem State.store_fault {x : Trap} (hp : s.pieces s.th.acc .write ea n ord = .error x) : s.store ord rel ea bs = .trap x := by
  simp only [State.store, hn, hp]

variable {s' : State} {ps : List Piece} (hp : s.pieces s.th.acc .write ea n ord = .ok (ps, s'))
include hp

theorem State.store_unreleased (hrel : rel = true) (hm : s.mayRelease s.th = false) : s.store ord rel ea bs = .hold 2 s := by
  simp [State.store, hn, hp, hrel, hm]

variable (hm : rel = true → s.mayRelease s.th = true)
include hm

theorem State.store_irrevocable {r : Done} (hr : s'.irrFirst = some r) : s.store ord rel ea bs = r := by
  simp only [State.store, hn, hp, not_unreleased hm, hr, Bool.false_eq_true, if_false]

variable (hr : s'.irrFirst = none)
include hr

theorem State.store_waits (hw : s'.accessWaits s.th.acc ps = true) : s.store ord rel ea bs = .hold 2 s' := by
  simp only [State.store, hn, hp, not_unreleased hm, hr, hw, Bool.false_eq_true, if_false, if_true]

variable (hw : s'.accessWaits s.th.acc ps = false)
include hw

theorem State.store_blocked {u : State} (hblk : s'.storeBlock s.th.acc ps = some u) : s.store ord rel ea bs = .hold 3 u := by
  simp only [State.store, hn, hp, not_unreleased hm, hr, hw, hblk, Bool.false_eq_true, if_false]
theorem State.store_made (hblk : s'.storeBlock s.th.acc ps = none) :
    s.store ord rel ea bs = .ok (s'.storeAll s.th.acc ps bs) := by
  simp only [State.store, hn, hp, not_unreleased hm, hr, hw, hblk, Bool.false_eq_true, if_false]

end

/-- Settles O15: the three forms are one access, whose outcome is the first that applies: a fault, the wait of a release, the forced seal of
an irrevocable store, a hold, the stores made or refused. -/
theorem storesComplete : Obligations.StoresComplete := by
  intro i s ord d z ea hi hform
  have hex := ScalarStore.exec_eq hi hform
  have hn := length_leBytes (szBytes z) (s.th.gr d).toNat
  refine ⟨fun ho ha => ?misaligned, fun ha => ?aligned⟩
  case misaligned => rw [Traps, hex, if_pos ⟨ho, ha⟩, State.finish_trap]
  case aligned =>
    rw [if_neg fun h => h.2 (ha h.1)] at hex
    refine ⟨fun x hp => ?fault, fun ps s' hp ho hm => ?unreleased, fun ps s' hp hm =>
      ⟨fun r hr => ?irrevocable, fun hr => ⟨fun hw => ?waits, fun hw => ⟨fun u hblk => ?blocked, fun hblk => ?made⟩⟩⟩⟩
    case fault => rw [Traps, hex, State.store_fault hn hp, State.finish_trap]
    case unreleased => rw [hex, State.store_unreleased hn hp ho hm, State.finish_hold]
    case irrevocable => rw [hex, State.store_irrevocable hn hp hm hr]
    case waits => rw [hex, State.store_waits hn hp hm hr hw, State.finish_hold]
    case blocked => rw [hex, State.store_blocked hn hp hm hr hw hblk, State.finish_hold]
    case made =>
      intro e hb
      rw [hex, State.store_made hn hp hm hr hw hblk]
      exact State.finish_ok hb

end Sys2Proof.Machine
end

section
/-! PROOFS. Local-alias accesses and block moves (09:R129-R132). -/

namespace Sys2Proof.Machine
open Sys2Proof

theorem exec_ldl (m : Mark) (d b : Reg) (z : BitVec 3) (o : BitVec 8) (s : State) : exec (.ldl m d b z o) s = execLdl m d b z o s := rfl
theorem exec_stl (m : Mark) (d b : Reg) (z : BitVec 3) (o : BitVec 8) (s : State) : exec (.stl m d b z o) s = execStl m d b z o s := rfl
theorem exec_bmov (m : Mark) (d a b : Reg) (s : State) : exec (.bmov m d a b) s = execBmov m d a b s := rfl
theorem exec_bfill (m : Mark) (d a b : Reg) (s : State) : exec (.bfill m d a b) s = execBfill m d a b s := rfl

-- The check of a local range, and TS.OOB

theorem State.localCheck_out (s : State) (t : Thread) {e n : Nat} (tv : Nat) (h : Config.sramSize < e + n) :
    s.localCheck t e n tv = .out := if_pos h
theorem State.localCheck_domain {s : State} {t : Thread} {e n : Nat} (tv : Nat) {k : Nat} (h : e + n ≤ Config.sramSize)
    (hk : k < 16) (hlo : e / Config.bankSize ≤ k) (hhi : k ≤ (e + n - 1) / Config.bankSize)
    (hg : s.bankGranted t.tile t.dom k = false) : s.localCheck t e n tv = .trap ⟨.domain, 0, BitVec.ofNat 64 tv⟩ := by
  have hbank : k ∈ banksOf e n := List.mem_filter.mpr ⟨List.mem_range.mpr hk, by simp [hlo, hhi]⟩
  exact (if_neg h.not_gt).trans (if_pos (List.any_eq_true.mpr ⟨k, hbank, by simp [hg]⟩))
theorem Thread.oob_outOfRange {t : Thread} {e : Nat} (h : t.oob = 0) (he : e < 2 ^ 63) :
    (t.outOfRange e).oob = BitVec.ofNat 64 (2 ^ 63 + e) := by
  have hbit : bitOf t.oob.toNat 63 = false := by rw [h]; rfl
  rw [Thread.outOfRange, hbit, Nat.mod_eq_of_lt he]
  rfl
theorem Thread.outOfRange_later {t : Thread} (e : Nat) (h : t.oob.toNat / 2 ^ 63 % 2 = 1) : t.outOfRange e = t :=
  if_pos (by rw [bitOf, h]; rfl)

/-- Settles O17: LDL and STL by the check of their range. -/
theorem localAccesses : Obligations.LocalAccesses := by
  refine ⟨⟨fun m d b z o s hi => ?ldl, fun m d b z o s hi => ?stl⟩, ?domain, ?out, ?firstOob, ?laterOob⟩
  case ldl =>
    refine ⟨fun hc ho => ?_, fun hout => ?_, fun x hx => ?_⟩
    · refine completes_of (exec_ldl ..) hi ?_
      simp only [Thread.eaOff, hc, ho, Bool.false_eq_true, if_false]
    · refine completes_of (exec_ldl ..) hi ?_
      simp only [Thread.eaOff, State.localCheck_out _ _ _ hout]
    · refine traps_of (exec_ldl ..) hi ?_
      simp only [Thread.eaOff, hx]
  case stl =>
    refine ⟨fun hc hm => ?_, fun hc hm ho => ?_, fun hout => ?_, fun x hx => ?_⟩
    · refine holds_of (exec_stl ..) hi ?_
      simp only [Thread.eaOff, hc, hm, if_true]
    · refine completes_of (exec_stl ..) hi ?_
      simp only [Thread.eaOff, hc, hm, ho, Bool.false_eq_true, if_false]
      rfl
    · refine completes_of (exec_stl ..) hi ?_
      simp only [Thread.eaOff, State.localCheck_out _ _ _ hout]
    · refine traps_of (exec_stl ..) hi ?_
      simp only [Thread.eaOff, hx]
  case domain => exact fun s t e n k h hk hlo hhi hg => State.localCheck_domain e h hk hlo hhi hg
  case out => exact fun s t e n h => s.localCheck_out t e h
  case firstOob => exact fun t e => Thread.oob_outOfRange
  case laterOob => exact fun t e => Thread.outOfRange_later e

-- One byte of a block move

@[simp] theorem State.finish_again (s t : State) (i : Instr) : s.finish i (.again t) =
    .next (State.clock { t with th := { t.th with flow := { t.th.flow with hold := 0, heldReads := [] } } }) := rfl
theorem State.storeAll_unrefused {s : State} {a : Acc} {ps : List Piece} (bs : List Byte) (h : ps.findSome? (s.refusal a) = none) :
    s.storeAll a ps bs = (storePieces a ps bs s).asOne a.tid s.fresh := by
  simp only [State.storeAll, h]

/-- The check of a byte's store, or its target, gives a fault. -/
def State.ByteFault (s : State) (dst : Word) (x : Trap) : Prop :=
  s.pieces s.th.acc .write dst 1 = .error x ∨
    ∃ ps v, s.pieces s.th.acc .write dst 1 = .ok (ps, v) ∧ ps.findSome? (v.refusal s.th.acc) = some x

section
variable {s : State} {dst : Word} (v : Byte) (next : State → State)

theorem State.moveByte_fault {x : Trap} (h : s.ByteFault dst x) : s.moveByte dst v next = .trap x := by
  obtain hp | ⟨ps, u, hp, hx⟩ := h
  · simp only [State.moveByte, hp]
  · simp only [State.moveByte, hp, hx]
theorem State.moveByte_made {s' : State} {ps : List Piece} (hp : s.pieces s.th.acc .write dst 1 = .ok (ps, s'))
    (hx : ps.findSome? (s'.refusal s.th.acc) = none) (hr : s'.irrFirst = none) (hw : s'.accessWaits s.th.acc ps = false)
    (hblk : s'.storeBlock s.th.acc ps = none) :
    s.moveByte dst v next = .again (next ((storePieces s.th.acc ps [v] s').asOne s.th.tid s'.fresh)) := by
  simp only [State.moveByte, hp, hx, State.store_made (bs := [v]) rfl hp (rel := false) nofun hr hw hblk,
    State.storeAll_unrefused [v] hx]
  rfl

end

-- BMOV and BFILL

section
variable {m : Mark} {d a b : Reg} {s : State}

section
variable (hi : Issues (.bmov m d a b) s)
include hi

theorem completes_bmov (hb : s.th.gr b = 0) : Completes (.bmov m d a b) s s := completes_of (exec_bmov ..) hi (if_pos hb)

variable (hb : s.th.gr b ≠ 0)
include hb

theorem traps_bmov_read {x : Trap} (hread : s.ldHeld s.th.acc .read (s.th.gr a) 1 = .trap x) : Traps (.bmov m d a b) s x :=
  traps_of (exec_bmov ..) hi ((if_neg hb).trans (by rw [hread]; rfl))
/-- With its byte read BMOV is that byte's move. -/
theorem exec_bmov_of_read {u : State} {bs : List Byte} (hread : s.ldHeld s.th.acc .read (s.th.gr a) 1 = .ok bs u) :
    exec (.bmov m d a b) s = s.finish (.bmov m d a b) (u.moveByte (s.th.gr d) (bs.headD 0) (fun e =>
      { e with th := ((e.th.gw a (s.th.gr a + 1)).gw d (s.th.gr d + 1)).gw b (s.th.gr b - 1) })) := by
  refine ((exec_bmov ..).trans (State.issue_body hi)).trans (congrArg _ ?_)
  exact (if_neg hb).trans (Held.andThen_of_ok hread)

end

section
variable (hi : Issues (.bfill m d a b) s)
include hi

theorem completes_bfill (hb : s.th.gr b = 0) : Completes (.bfill m d a b) s s := completes_of (exec_bfill ..) hi (if_pos hb)
theorem exec_bfill_of_count (hb : s.th.gr b ≠ 0) : exec (.bfill m d a b) s =
    s.finish (.bfill m d a b) (s.moveByte (s.th.gr d) ((s.th.gr a).setWidth 8) (fun e =>
      { e with th := (e.th.gw d (s.th.gr d + 1)).gw b (s.th.gr b - 1) })) :=
  ((exec_bfill ..).trans (State.issue_body hi)).trans (congrArg _ (if_neg hb))

end
end

/-- Settles O18: with a count left each issue is the move of one byte, BMOV's after its read. -/
theorem blockMoves : Obligations.BlockMoves := by
  refine ⟨?done, ?bmov, ?bfill, ?faults⟩
  case done => exact fun m d a b s hb => ⟨fun hi => completes_bmov hi hb, fun hi => completes_bfill hi hb⟩
  case bmov =>
    intro m d a b s u v bs ps hi hb hread hp hx hr hw hblk
    rw [exec_bmov_of_read hi hb hread, State.moveByte_made _ _ hp hx hr hw hblk, State.finish_again]
  case bfill =>
    intro m d a b s v ps hi hb hp hx hr hw hblk
    rw [exec_bfill_of_count hi hb, State.moveByte_made _ _ hp hx hr hw hblk, State.finish_again]
  case faults =>
    refine fun m d a b s x hb => ⟨fun hi hread => traps_bmov_read hi hb hread, fun hi bs u hread hf => ?_, fun hi hf => ?_⟩
    · rw [Traps, exec_bmov_of_read hi hb hread, State.moveByte_fault _ _ hf, State.finish_trap]
    · rw [Traps, exec_bfill_of_count hi hb, State.moveByte_fault _ _ hf, State.finish_trap]

end Sys2Proof.Machine
end

section
/-! PROOFS. What register forms, taken transfers, holds and waits leave unchanged (03:R30-R31, R349, 07:R90, 09:R105-R109, R119). -/

namespace Sys2Proof.Machine
open Sys2Proof

-- Register forms

section
variable {t : Thread} {g : Reg} (h0 : t.lp0.act = true → t.lp0.creg ≠ g)
include h0

theorem Thread.raw_outerStep : t.outerStep.raw g = t.raw g := by
  unfold Thread.outerStep
  split
  next hend =>
    have hg : g ≠ t.lp0.creg := (h0 (Bool.and_eq_true_iff.mp hend).1).symm
    split <;> exact (Thread.raw_congr rfl g).trans (t.raw_gw_ne _ hg)
  next => exact Thread.raw_congr rfl g
/-- The end of an instruction changes no register but the count of a loop that ends there. -/
theorem Thread.raw_loopStep (h1 : t.lp1.act = true → t.lp1.creg ≠ g) : t.loopStep.raw g = t.raw g := by
  by_cases hend : t.lp1.act = true ∧ t.pc.toNat = t.loop1.2
  · obtain ⟨hact, hpc⟩ := hend
    have hg : g ≠ t.lp1.creg := (h1 hact).symm
    obtain hc | hc := lt_or_ge 1 (t.gr t.lp1.creg).toNat
    · rw [Thread.loopStep_again hact hpc hc]
      exact (Thread.raw_congr rfl g).trans (t.raw_gw_ne _ hg)
    · rw [Thread.loopStep_ends hact hpc hc, Thread.raw_outerStep (by simpa using h0)]
      exact (Thread.raw_congr rfl g).trans (t.raw_gw_ne _ hg)
  · rw [Thread.loopStep_outer fun hact hpc => hend ⟨hact, hpc⟩, Thread.raw_outerStep h0]

end

/-- The outcome of a register form with its result and flags. -/
theorem exec_registerForm {i : Instr} {s : State} {m : Mark} {d : Reg} {x : Word} {f : Flags} (hwf : i.wellFormed = true)
    (hr : arithRule i s.th = some (m, d, x, f) ∨ (logicRule i s.th = some (m, d, x) ∧ f = 0) ∨
      (immediateRule i s.th = some (m, d, x) ∧ f = 0)) (hi : Issues i s) :
    Completes i s ((s.deliver m d x).setfx f) := by
  obtain hr | ⟨hr, rfl⟩ | ⟨hr, rfl⟩ := hr
  · exact arithmeticResults i s m d x f hwf hr hi
  · rw [State.setfx_zero]
    exact logicResults i s m d x hwf hr hi
  · rw [State.setfx_zero]
    exact immediateResults i s m d x hwf hr hi

@[simp] theorem State.deliver_setfx_th (s : State) (m : Mark) (d : Reg) (x : Word) (f : Flags) :
    ((s.deliver m d x).setfx f).th = { s.th.deliver m d x with fx := s.th.fx ||| f } := by
  simp [State.setfx, State.deliver]
theorem Sole.deliver_setfx {s : State} (h : Sole s) (m : Mark) (d : Reg) (x : Word) (f : Flags) :
    Sole ((s.deliver m d x).setfx f) := ⟨by simpa using h.1, by simpa using h.2⟩

/-- Settles O58: the result is delivered and the instruction ends; neither touches anything else. -/
theorem registerFormsFrame : Obligations.RegisterFormsFrame := by
  intro i s s' m d x f hwf hr hi hs hb hex
  obtain rfl : s' = ((s.deliver m d x).setfx f).retire s.th i :=
    Host.Outcome.next.inj (hex.symm.trans (exec_registerForm hwf hr hi hb))
  obtain ⟨u, hu, hp⟩ := (hs.deliver_setfx m d x f).retire_thread s.th i
  have hregs : u.regs = ((s.deliver m d x).setfx f).th.loopStep.regs := by
    obtain ⟨_, _, _, rfl⟩ := hp
    rfl
  have hraw (g : Reg) (h0 : s.th.lp0.act = true → s.th.lp0.creg ≠ g) (h1 : s.th.lp1.act = true → s.th.lp1.creg ≠ g) :
      u.raw g = (s.th.deliver m d x).raw g :=
    calc u.raw g = ((s.deliver m d x).setfx f).th.loopStep.raw g := Thread.raw_congr hregs g
      _ = ((s.deliver m d x).setfx f).th.raw g := Thread.raw_loopStep (by simpa using h0) (by simpa using h1)
      _ = (s.th.deliver m d x).raw g := Thread.raw_congr (by simp) g
  refine ⟨by simp, by simp, by simp, fun a n => by simp [State.read], u, by simpa using hu, ?others, ?transient, ?written, ?fields⟩
  case others => exact fun g hg h0 h1 => (hraw g h0 h1).trans (s.th.raw_deliver_ne m x hg)
  case transient =>
    exact fun hm h0 h1 => (hraw d h0 h1).trans (Thread.raw_congr (s.th.regs_deliver_transient d x hm) d)
  case written =>
    intro hm hd h0 h1
    rw [hraw d (by simp [h0]) (by simp [h1]), s.th.deliver_written x hm, s.th.raw_gw_self x hd]
  case fields =>
    obtain ⟨_, _, _, rfl⟩ := hp
    simp

-- Taken transfers

@[simp] theorem State.retireJump_ms (s : State) (pre : Thread) (i : Instr) (k : Jump) (a : Word) :
    (s.retireJump pre i k a).ms = s.ms := by simp [State.retireJump]
@[simp] theorem State.retireJump_eng (s : State) (pre : Thread) (i : Instr) (k : Jump) (a : Word) :
    (s.retireJump pre i k a).eng = s.eng := by simp [State.retireJump]
@[simp] theorem State.retireJump_st (s : State) (pre : Thread) (i : Instr) (k : Jump) (a : Word) :
    (s.retireJump pre i k a).st = s.st := by simp [State.retireJump]

/-- The thread at the target of a transfer: a branch closes the loops that it leaves (09:R119). -/
def Thread.jumped (t : Thread) (k : Jump) (a : Word) : Thread := { (if k = .branch then t.closeLoops a else t) with pc := a }

theorem Thread.jumped_branch (t : Thread) (a : Word) : t.jumped .branch a = { t.closeLoops a with pc := a } := rfl
theorem Thread.jumped_ne_branch (t : Thread) {k : Jump} (a : Word) (hk : k ≠ .branch) : t.jumped k a = { t with pc := a } := by
  simp [Thread.jumped, hk]
/-- A taken transfer keeps its thread as `jumped` leaves it, but for its progress. -/
theorem Sole.retireJump_thread {e : State} (h : Sole e) (pre : Thread) (i : Instr) (k : Jump) (a : Word) :
    ∃ u, (e.retireJump pre i k a).thread? e.th.tid = some u ∧ (e.th.jumped k a).Progresses u := by
  have hj : (e.th.jumped k a).live = e.th.live ∧ (e.th.jumped k a).tid = e.th.tid := by
    unfold Thread.jumped
    split <;> simp
  have hl : Sole { e with th := e.th.jumped k a } := ⟨hj.1.trans h.1, by simpa [hj.2] using h.2⟩
  have hc : (e.th.jumped k a).Progresses
      (State.clockAs { e with th := ((e.th.jumped k a).afterIssue pre i (k != Jump.skip)).counted pre i } pre).th :=
    ((Thread.progresses_afterIssue _ pre i _).trans (Thread.progresses_counted _ pre i)).trans (Thread.progresses_countAs _ pre 1 _)
  obtain ⟨u, hu, hpu⟩ := ((hl.of_progresses hc rfl).keepsThread_marker i).after (s := { e with th := e.th.jumped k a }) hc
  exact ⟨u, hj.2 ▸ hu, hpu⟩

-- Waits

/-- Making another thread the issuing one leaves this one as it is, among the others. -/
theorem Sole.thread_focus {s : State} (h : Sole s) (k : Nat) : (s.focus k).thread? s.th.tid = some s.th := by
  unfold State.focus
  split
  · exact h.thread
  · split
    · exact h.thread
    next t ht =>
      have hne : t.tid ≠ s.th.tid := h.2 t (List.mem_of_find?_eq_some ht)
      have hrest : (s.others.filter (fun u => u.tid != k)).find? (fun u => u.live && u.tid == s.th.tid) = none := by
        rw [List.find?_eq_none]
        intro u hu
        simp [h.2 u (List.mem_filter.mp hu).1]
      simp [State.thread?, hne, h.1, hrest]
/-- `s'` still holds the issuing thread of `s`, which may have given up its slot. -/
def State.Yields (s s' : State) : Prop := ∃ f, s'.thread? s.th.tid = some { s.th with flow := f }

theorem Sole.yields {s : State} (h : Sole s) : s.Yields s := ⟨_, h.thread⟩
/-- A thread of the slot of thread `k` when that slot is given to `k`; a thread of another slot. -/
def Thread.slotGiven (k : Nat) (t : Thread) : Thread :=
  if sameSlot t.tid k then { t with flow := { t.flow with holder := t.tid == k } } else t

theorem Thread.slotGiven_eq (k : Nat) (t : Thread) : ∃ f, t.slotGiven k = { t with flow := f } := by
  unfold Thread.slotGiven
  split <;> exact ⟨_, rfl⟩
theorem State.grant_eq (s : State) (k : Nat) : s.grant k = (s.mapThreads (Thread.slotGiven k)).focus k := rfl
theorem Sole.yields_grant {s : State} (h : Sole s) (k : Nat) : s.Yields (s.grant k) := by
  have hp (t : Thread) : t.Progresses (t.slotGiven k) := by
    obtain ⟨f, hf⟩ := t.slotGiven_eq k
    exact ⟨_, _, f, hf⟩
  obtain ⟨f, hf⟩ := s.th.slotGiven_eq k
  have hth : (s.mapThreads (Thread.slotGiven k)).th = { s.th with flow := f } := by simp [State.mapThreads, h.1, hf]
  have hu := (h.mapThreads hp).thread_focus k
  rw [hth] at hu
  exact ⟨f, hu⟩
theorem Sole.yields_passOn {s : State} (h : Sole s) (k : Nat) : s.Yields (s.passOn k) := by
  unfold State.passOn
  split
  · exact h.yields_grant _
  · split
    · exact h.yields_grant _
    · exact h.yields
theorem Sole.yields_suspend {s : State} (h : Sole s) : s.Yields s.suspend :=
  Sole.yields_passOn (s := s.restartWatchdog s.th.tid) h s.th.tid

theorem Thread.countAs_eq (t who : Thread) (ev n : Nat) : ∃ c, t.countAs who ev n = { t with cnt := c } := by
  unfold Thread.countAs
  split <;> exact ⟨_, rfl⟩
theorem Thread.inWait_eq (t : Thread) (st : Status) : ∃ p f, t.inWait st = { t with status := st, pc := p, flow := f } := by
  unfold Thread.inWait
  split <;> exact ⟨_, _, rfl⟩
/-- A wait keeps its thread as `inWait` leaves it, but for its counters and its slot. -/
theorem Sole.waits_thread {t : State} (h : Sole t) (st : Status) :
    ∃ c f, (t.waits st).thread? t.th.tid = some { t.th.inWait st with cnt := c, flow := f } := by
  obtain ⟨p, f', hw⟩ := t.th.inWait_eq st
  have htid : (t.th.inWait st).tid = t.th.tid := by rw [hw]
  obtain ⟨c, hc⟩ := (t.th.inWait st).countAs_eq (t.th.inWait st) 1 (1 + Config.extraCycles t.fresh)
  have hth : (State.clock { t with th := t.th.inWait st }).th = { t.th.inWait st with cnt := c } := hc
  have hs : Sole (State.clock { t with th := t.th.inWait st }) := by
    unfold Sole
    rw [hth, hw]
    exact h
  obtain ⟨f, hu⟩ := hs.yields_suspend
  rw [hth] at hu
  exact ⟨c, f, htid ▸ hu⟩

/-- Settles O59: a transfer, a hold and a wait end in counters and in passing the slot on, which touch no other part of the state. -/
theorem transfersHoldsAndWaits : Obligations.TransfersHoldsAndWaits := by
  refine ⟨fun s e i k a h => ?transfer, fun t k => ?hold, fun t st h => ?wait⟩
  case transfer =>
    obtain ⟨u, hu, _, _, _, rfl⟩ := h.retireJump_thread s.th i k a
    refine ⟨by simp, by simp, by simp, _, hu, ?_⟩
    obtain rfl | hk := eq_or_ne k .branch
    · simp [Thread.jumped_branch]
    · simp [Thread.jumped_ne_branch, hk]
  case hold => simp [State.holding, State.clock, State.clockAs]
  case wait =>
    obtain ⟨c, f, hu⟩ := h.waits_thread st
    obtain ⟨_, _, hw⟩ := t.th.inWait_eq st
    exact ⟨by simp [State.waits], by simp [State.waits], by simp [State.waits], _, hu, by simp [hw]⟩

end Sys2Proof.Machine
end

section
/-! PROOFS. The outcome of an instruction whose effect is known (03:R30, R34). -/

namespace Sys2Proof.Machine
open Sys2Proof

section
variable {i : Instr} {s t : State} {r : Done} (he : exec i s = s.finish i r)
include he

theorem completes_of_finish (hr : r = .ok t) : Completes i s t := fun hb => by rw [he, hr, State.finish_ok hb]
theorem traps_of_finish {x : Trap} (hr : r = .trap x) : Traps i s x := by rw [Traps, he, hr, State.finish_trap]
theorem holds_of_finish {k : Nat} (hr : r = .hold k t) : exec i s = .next (t.holding k) := by rw [he, hr, State.finish_hold]
theorem waits_of_finish {st : Status} (hr : r = .wait st t) : exec i s = .next (t.waits st) := by rw [he, hr, State.finish_wait]

end

end Sys2Proof.Machine
end

section
/-! PROOFS. The lanes of a vector, and the integer and bitwise forms on their bits (11:R133, R140-R141). -/

namespace Sys2Proof.Machine
open Sys2Proof

-- Bytes

theorem leNat_lt (bs : List Byte) : leNat bs < 256 ^ bs.length := by
  induction bs with
  | nil => simp [leNat]
  | cons b bs ih =>
    have hb := b.isLt
    rw [leNat, List.length_cons, Nat.pow_succ]
    omega
theorem pow_256_eq_two_pow (w : Nat) : 256 ^ w = 2 ^ (8 * w) := (Nat.pow_mul 2 8 w).symm
theorem leBytes_mod (w x : Nat) : leBytes w (x % 256 ^ w) = leBytes w x := by
  induction w generalizing x with
  | zero => rfl
  | succ w ih =>
    have hlow : BitVec.ofNat 8 (x % 256 ^ (w + 1)) = BitVec.ofNat 8 x := by
      apply BitVec.eq_of_toNat_eq
      rw [BitVec.toNat_ofNat, BitVec.toNat_ofNat, Nat.pow_succ', Nat.mod_mul_right_mod]
    rw [leBytes, leBytes, hlow, Nat.pow_succ', Nat.mod_mul_right_div_self, ih]
theorem take_leBytes {w n : Nat} (h : w ≤ n) (x : Nat) : (leBytes n x).take w = leBytes w x := by
  induction w generalizing n x with
  | zero => rfl
  | succ w ih =>
    obtain ⟨n, rfl⟩ := Nat.exists_eq_add_of_le' (Nat.lt_of_lt_of_le (Nat.succ_pos w) h)
    rw [leBytes, leBytes, List.take_succ_cons, ih (by omega)]
/-- The low bytes of a register, as VINS takes them. -/
theorem leBytes_leNat_take {w n : Nat} (h : w ≤ n) (x : Nat) : leBytes w (leNat ((leBytes n x).take w)) = leBytes w x := by
  rw [take_leBytes h, leNat_leBytes, leBytes_mod]
theorem ofNat_leNat_leBytes_eight (x : Nat) : BitVec.ofNat 64 (leNat (leBytes 8 x)) = BitVec.ofNat 64 x :=
  BitVec.eq_of_toNat_eq (by simp [leNat_leBytes])
theorem leNat_leBytes_word (x : Word) : leNat (leBytes 8 x.toNat) = x.toNat :=
  (leNat_leBytes ..).trans (Nat.mod_eq_of_lt x.isLt)

-- Lanes that are put together are read back

theorem lane_lt (bs : List Byte) (w j : Nat) : lane bs w j < 2 ^ (8 * w) :=
  (leNat_lt _).trans_le (pow_256_eq_two_pow w ▸ Nat.pow_le_pow_right (by decide) (List.length_take_le ..))
/-- A lane is the number of its bits. -/
theorem toNat_ofNat_lane (bs : List Byte) (w j : Nat) : (BitVec.ofNat (8 * w) (lane bs w j)).toNat = lane bs w j := by
  rw [BitVec.toNat_ofNat, Nat.mod_eq_of_lt (lane_lt bs w j)]
/-- A lane of one byte. -/
theorem lane_one (bs : List Byte) (k : Nat) : lane bs 1 k = (bs.getD k 0).toNat := by
  rw [lane, Nat.one_mul, List.getD_eq_getElem?_getD]
  rcases h : bs[k]? with _ | b
  · rw [List.drop_eq_nil_of_le (List.getElem?_eq_none_iff.mp h)]
    rfl
  · obtain ⟨hk, rfl⟩ := List.getElem?_eq_some_iff.mp h
    rw [List.drop_eq_getElem_cons hk]
    rfl

theorem lane_lanesFrom {w e n j : Nat} (f : Nat → Nat × Flags) (r : List Byte) (hj : j < n) :
    lane ((lanesFrom w f e n).1 ++ r) w j = (f (e + j)).1 % 2 ^ (8 * w) := by
  induction n generalizing e j with
  | zero => exact absurd hj (Nat.not_lt_zero j)
  | succ n ih =>
    have hlen : (leBytes w (f e).1).length = w := length_leBytes ..
    rw [lanesFrom, List.append_assoc]
    cases j with
    | zero => rw [lane, Nat.mul_zero, List.drop_zero, List.take_left' hlen, leNat_leBytes, pow_256_eq_two_pow, Nat.add_zero]
    | succ j =>
      have hdrop : w * (j + 1) = (leBytes w (f e).1).length + w * j := by rw [hlen, Nat.mul_succ, Nat.add_comm]
      rw [lane, hdrop, List.drop_length_add_append]
      exact (ih (by omega)).trans (by rw [Nat.add_assoc, Nat.add_comm 1])
theorem lane_lanes {w n j : Nat} (f : Nat → Nat × Flags) (hj : j < n) : lane (lanes w n f).1 w j = (f j).1 % 2 ^ (8 * w) := by
  rw [lanes, lane_lanesFrom f _ hj, Nat.zero_add]
theorem lanesFrom_noFlag {f : Nat → Nat × Flags} (hf : ∀ j, (f j).2 = 0) (w e n : Nat) : (lanesFrom w f e n).2 = 0 := by
  induction n generalizing e with
  | zero => rfl
  | succ n ih => rw [lanesFrom, ih, hf]; rfl
theorem lanes_noFlag {f : Nat → Nat × Flags} (hf : ∀ j, (f j).2 = 0) (w n : Nat) : (lanes w n f).2 = 0 :=
  lanesFrom_noFlag hf w 0 n
theorem lanesFrom_bytes (w e n : Nat) (f : Nat → Nat × Flags) :
    (lanesFrom w f e n).1 = (List.range n).flatMap (fun j => leBytes w (f (e + j)).1) := by
  induction n generalizing e with
  | zero => rfl
  | succ n ih =>
    rw [lanesFrom, ih, List.range_succ_eq_map, List.flatMap_cons, List.flatMap_map]
    simp only [Nat.add_zero, Nat.add_right_comm e 1, Nat.add_assoc]
/-- The lanes of an element type fill the vector. -/
theorem lanes_bytes (e : BitVec 3) (f : Nat → Nat × Flags) :
    (lanes (etW e) (128 / etW e) f).1 = (List.range (128 / etW e)).flatMap (fun j => leBytes (etW e) (f j).1) := by
  have hdvd : etW e ∣ 128 := Nat.pow_dvd_pow (n := 7) 2 (by omega)
  simp only [lanes, Nat.mul_div_cancel' hdvd, Nat.sub_self, List.replicate_zero, List.append_nil, lanesFrom_bytes, Nat.zero_add]

-- Integer lanes (R140)

/-- A lane of an integer form is its operation on the numbers of the lanes' bits. -/
theorem lane_intLanes {w j : Nat} (hj : j < 128 / w) (f : Nat → Nat → Nat) (va vb : List Byte) :
    lane (intLanes w f va vb).1 w j =
      f (BitVec.ofNat (8 * w) (lane va w j)).toNat (BitVec.ofNat (8 * w) (lane vb w j)).toNat % 2 ^ (8 * w) := by
  rw [intLanes, lane_lanes _ hj, Nat.mod_mod, toNat_ofNat_lane, toNat_ofNat_lane]
theorem intLanes_noFlag (w : Nat) (f : Nat → Nat → Nat) (va vb : List Byte) : (intLanes w f va vb).2 = 0 :=
  lanes_noFlag (fun _ => rfl) ..

section
variable {n : Nat} (x y : BitVec n)

theorem sub_lane : (x.toNat + 2 ^ n - y.toNat) % 2 ^ n = (x - y).toNat := by
  have hy := y.isLt
  rw [BitVec.toNat_sub]
  congr 1
  omega
theorem readInt_toNat (hn : 0 < n) (sg : Bool) : readInt n sg x.toNat = if sg then x.toInt else x.toNat := by
  rw [readInt, sInt_toNat x hn, Nat.mod_eq_of_lt x.isLt]
/-- A choice by an order of keys is the opposite choice by the opposite order; `ite_lt_eq_ite_gt` is of words only. -/
theorem ite_lt_swap {α β γ : Type} [LinearOrder β] {k : α → β} (hk : k.Injective) {x y : α} {a b : γ} (hab : x = y → a = b) :
    (if k x < k y then a else b) = if k y < k x then b else a := by
  obtain h | h | h := lt_trichotomy (k x) (k y)
  · rw [if_pos h, if_neg h.not_gt]
  · rw [hab (hk h), ite_self, ite_self]
  · rw [if_neg h.not_gt, if_pos h]
theorem minmaxN_eq_ite (sg mx : Bool) (a b : Nat) :
    minmaxN n sg mx a b = if readInt n sg a < readInt n sg b then (if mx then b else a) else (if mx then a else b) := by
  by_cases h : readInt n sg a < readInt n sg b
  · cases mx <;> simp [minmaxN, h]
  · cases mx <;> simp [minmaxN, h]
/-- The smaller or larger of two lanes: the rule tests the other order. -/
theorem minmaxN_lane (hn : 0 < n) (sg mx : Bool) : minmaxN n sg mx x.toNat y.toNat % 2 ^ n =
    (if sg then (if y.slt x then (if mx then x else y) else (if mx then y else x))
      else (if y.ult x then (if mx then x else y) else (if mx then y else x))).toNat := by
  have hab : x = y → (if mx then y else x) = if mx then x else y := by rintro rfl; rfl
  have hlt : minmaxN n sg mx x.toNat y.toNat =
      (if readInt n sg x.toNat < readInt n sg y.toNat then (if mx then y else x) else (if mx then x else y)).toNat := by
    simp only [minmaxN_eq_ite, apply_ite BitVec.toNat]
  rw [hlt, Nat.mod_eq_of_lt (BitVec.isLt _), readInt_toNat x hn, readInt_toNat y hn]
  congr 1
  cases sg with
  | true =>
    simp only [if_true, BitVec.slt_iff_toInt_lt]
    exact ite_lt_swap (k := BitVec.toInt) (fun _ _ => BitVec.eq_of_toInt_eq) hab
  | false =>
    simp only [Bool.false_eq_true, if_false, BitVec.ult_iff_toNat_lt, Int.ofNat_lt]
    exact ite_lt_swap (k := BitVec.toNat) (fun _ _ => BitVec.eq_of_toNat_eq) hab
theorem natAbs_lane (hn : 0 < n) : (sInt n x.toNat).natAbs % 2 ^ n = x.abs.toNat := by
  have habs : (sInt n x.toNat).natAbs = x.abs.toNat := by
    rw [sInt_toNat x hn, BitVec.toNat_abs, BitVec.toInt_eq_msb_cond]
    split <;> omega
  rw [habs, Nat.mod_eq_of_lt (BitVec.isLt _)]
theorem shl_lane (k : Nat) : x.toNat * 2 ^ k % 2 ^ n = (x <<< k).toNat := by
  rw [BitVec.toNat_shiftLeft, Nat.shiftLeft_eq]
theorem shr_lane (k : Nat) : x.toNat / 2 ^ k % 2 ^ n = (x >>> k).toNat := by
  rw [← Nat.shiftRight_eq_div_pow, ← BitVec.toNat_ushiftRight, Nat.mod_eq_of_lt (BitVec.isLt _)]
theorem sra_lane (hn : 0 < n) (k : Nat) : wrapI (sInt n x.toNat / (2 ^ k : Nat)) n % 2 ^ n = (x.sshiftRight k).toNat := by
  rw [sInt_toNat x hn, Nat.mod_eq_of_lt (wrapI_lt ..), ← Int.shiftRight_eq_div_pow, ← BitVec.toInt_sshiftRight]
  exact congrArg BitVec.toNat (BitVec.ofInt_toInt)

end

-- Bitwise forms (R140-R141)

theorem byte_lanes {k : Nat} (hk : k < 128) (f : Nat → Nat × Flags) {b : Byte} (hf : (f k).1 % 2 ^ 8 = b.toNat) :
    (lanes 1 128 f).1.getD k 0 = b := by
  apply BitVec.eq_of_toNat_eq
  rw [← lane_one, lane_lanes f hk, hf]
theorem byte_intLanes (va vb : List Byte) {k : Nat} (hk : k < 128) (f : Nat → Nat → Nat) {b : Byte}
    (hf : f (va.getD k 0).toNat (vb.getD k 0).toNat = b.toNat) : (intLanes 1 f va vb).1.getD k 0 = b :=
  byte_lanes hk _ (by rw [lane_one, lane_one, hf, Nat.mod_mod, Nat.mod_eq_of_lt b.isLt])
/-- VSEL takes its bits by the mask or its complement (R141). -/
theorem vsel_byte (d a b : Byte) :
    ((d.toNat &&& a.toNat) ||| ((255 - d.toNat) &&& b.toNat)) % 2 ^ 8 = ((d &&& a) ||| (~~~ d &&& b)).toNat := by
  have hnot : (~~~ d).toNat = 255 - d.toNat := BitVec.toNat_not
  rw [BitVec.toNat_or, BitVec.toNat_and, BitVec.toNat_and, hnot]
  exact Nat.mod_eq_of_lt (Nat.or_lt_two_pow (Nat.and_lt_two_pow _ a.isLt) (Nat.and_lt_two_pow _ b.isLt))

/-- The integer forms compute their rule on each lane, and no flag. -/
theorem vecEval_of_intLaneRule {i : Instr} {e : BitVec 3} {f : (n : Nat) → BitVec n → BitVec n → BitVec n → BitVec n}
    (hr : intLaneRule i = some (e, f)) (va vb vd : List Byte) {j : Nat} (hj : j < 128 / etW e) :
    lane (vecEval i va vb vd).1 (etW e) j =
      (f (8 * etW e) (BitVec.ofNat _ (lane vd (etW e) j)) (BitVec.ofNat _ (lane va (etW e) j))
        (BitVec.ofNat _ (lane vb (etW e) j))).toNat ∧
    (vecEval i va vb vd).2 = 0 := by
  have hn : 0 < 8 * etW e := by unfold etW; positivity
  cases i
  all_goals simp only [intLaneRule, Option.some.injEq, Prod.mk.injEq, reduceCtorEq] at hr
  all_goals obtain ⟨rfl, rfl⟩ := hr
  all_goals dsimp only [vecEval]
  case vadd => exact ⟨(lane_intLanes hj ..).trans (BitVec.toNat_add ..).symm, intLanes_noFlag ..⟩
  case vsub => exact ⟨(lane_intLanes hj ..).trans (sub_lane ..), intLanes_noFlag ..⟩
  case vmul => exact ⟨(lane_intLanes hj ..).trans (BitVec.toNat_mul ..).symm, intLanes_noFlag ..⟩
  case vmin => exact ⟨(lane_intLanes hj ..).trans ((minmaxN_lane _ _ hn ..).trans (by simp [etS])), intLanes_noFlag ..⟩
  case vmax => exact ⟨(lane_intLanes hj ..).trans ((minmaxN_lane _ _ hn ..).trans (by simp [etS])), intLanes_noFlag ..⟩
  case vabs => exact ⟨(lane_intLanes hj ..).trans (natAbs_lane _ hn), intLanes_noFlag ..⟩
  case vneg => exact ⟨(lane_intLanes hj ..).trans (BitVec.toNat_neg _).symm, intLanes_noFlag ..⟩
  case vshl => exact ⟨(lane_intLanes hj ..).trans (shl_lane ..), intLanes_noFlag ..⟩
  case vshr => exact ⟨(lane_intLanes hj ..).trans (shr_lane ..), intLanes_noFlag ..⟩
  case vsra => exact ⟨(lane_intLanes hj ..).trans (sra_lane _ hn _), intLanes_noFlag ..⟩
  case vmad =>
    refine ⟨(lane_lanes _ hj).trans ?_, lanes_noFlag (fun _ => rfl) ..⟩
    rw [Nat.mod_mod, BitVec.toNat_add, BitVec.toNat_mul, toNat_ofNat_lane, toNat_ofNat_lane, toNat_ofNat_lane, Nat.add_mod_mod]

/-- Settles O34: each lane, or byte, of a form is read back from the lanes it puts together, and is the rule's on their bits. -/
theorem laneResults : Obligations.Lanes := by
  refine ⟨fun i e f va vb vd j _ hr _ _ _ hj => vecEval_of_intLaneRule hr va vb vd hj, fun m d a b va vb vd k _ _ _ hk => ?_⟩
  refine ⟨byte_intLanes va vb hk _ (BitVec.toNat_and ..).symm, byte_intLanes va vb hk _ (BitVec.toNat_or ..).symm,
    byte_intLanes va vb hk _ (BitVec.toNat_xor ..).symm, byte_lanes hk _ ?_⟩
  rw [lane_one, lane_one, lane_one]
  exact vsel_byte ..

end Sys2Proof.Machine
end

section
/-! PROOFS. Vector loads and stores (11:R135-R138). -/

namespace Sys2Proof.Machine
open Sys2Proof

theorem exec_vld (m : Mark) (d a b : Reg) (l : BitVec 1) (s : State) : exec (.vld m d a b l) s = execVld m d a b l s := rfl
theorem exec_vlds (m : Mark) (d a b : Reg) (l : BitVec 1) (k : BitVec 2) (s : State) :
    exec (.vlds m d a b l k) s = execVlds m d a b l k s := rfl
theorem exec_vgth (m : Mark) (d a b : Reg) (l : BitVec 1) (k : BitVec 2) (s : State) :
    exec (.vgth m d a b l k) s = execVgth m d a b l k s := rfl
theorem exec_vst (m : Mark) (d a b : Reg) (l : BitVec 1) (s : State) : exec (.vst m d a b l) s = execVst m d a b l s := rfl
theorem exec_vsts (m : Mark) (d a b : Reg) (l : BitVec 1) (k : BitVec 2) (s : State) :
    exec (.vsts m d a b l k) s = execVsts m d a b l k s := rfl
theorem exec_vsct (m : Mark) (d a b : Reg) (l : BitVec 1) (k : BitVec 2) (s : State) :
    exec (.vsct m d a b l k) s = execVsct m d a b l k s := rfl

/-- A vector load of the thread of `s` with its element addresses; `late` for VGTH, whose index vector is at hand. -/
def VectorLoad (i : Instr) (s : State) (d : Reg) (l : BitVec 1) (late : Bool) (w : Nat) (es : List Word) : Prop :=
  (∃ m a b, i = .vld m d a b l ∧ late = false ∧ w = 0 ∧ es = [s.th.gr a + s.th.gr b]) ∨
  (∃ m a b k, i = .vlds m d a b l k ∧ late = false ∧ w = 2 ^ k.toNat ∧ es = strided (s.th.gr a) (s.th.gr b) (128 / w)) ∨
  (∃ m a b k o, i = .vgth m d a b l k ∧ late = true ∧ w = 2 ^ k.toNat ∧ s.th.vo b.toNat = some o ∧ s.th.accPending o = false ∧
    es = indexed (s.th.gr a) w (s.th.vread b.toNat o) (gatherN w))
/-- A vector store of the thread of `s` with its element addresses; `whole` for VST. -/
def VectorStore (i : Instr) (s : State) (d : Reg) (l : BitVec 1) (whole : Bool) (n : Nat) (es : List Word) : Prop :=
  (∃ m a b, i = .vst m d a b l ∧ whole = true ∧ n = 128 ∧ es = [s.th.gr a + s.th.gr b]) ∨
  (∃ m a b k, i = .vsts m d a b l k ∧ whole = false ∧ n = 2 ^ k.toNat ∧ es = strided (s.th.gr a) (s.th.gr b) (128 / n)) ∨
  (∃ m a b k o, i = .vsct m d a b l k ∧ whole = false ∧ n = 2 ^ k.toNat ∧ s.th.vo b.toNat = some o ∧ s.th.accPending o = false ∧
    es = indexed (s.th.gr a) n (s.th.vread b.toNat o) (gatherN n))

section
variable {i : Instr} {s : State} {d : Reg} {l : BitVec 1} {o n : Nat} {es : List Word} (hi : Issues i s)
include hi

theorem VectorLoad.exec_eq {late : Bool} (h : VectorLoad i s d l late n es) (hd : s.th.vo d.toNat = some o) :
    exec i s = s.finish i (s.vload o (l == 1) late n es) := by
  obtain ⟨m, a, b, rfl, rfl, rfl, rfl⟩ | ⟨m, a, b, k, rfl, rfl, rfl, rfl⟩ | ⟨m, a, b, k, x, rfl, rfl, rfl, hb, hx, rfl⟩ := h
  · rw [exec_vld, execVld, State.issue_body hi, hd]
  · rw [exec_vlds, execVlds, State.issue_body hi, hd]
    rfl
  · rw [exec_vgth, execVgth, State.issue_body hi, hd, hb]
    simp only [hx, Bool.false_eq_true, if_false]
    rfl
theorem VectorLoad.traps_outside {late : Bool} (h : VectorLoad i s d l late n es) (hd : s.th.vo d.toNat = none) :
    Traps i s ⟨.illstate, 0, s.th.pc⟩ := by
  obtain ⟨m, a, b, rfl, -⟩ | ⟨m, a, b, k, rfl, -⟩ | ⟨m, a, b, k, x, rfl, -⟩ := h
  · exact traps_of (exec_vld ..) hi (by simp only [hd])
  · exact traps_of (exec_vlds ..) hi (by simp only [hd])
  · exact traps_of (exec_vgth ..) hi (by simp only [hd])

theorem VectorStore.exec_eq {whole : Bool} (h : VectorStore i s d l whole n es) (hd : s.th.vo d.toNat = some o)
    (hp : s.th.accPending o = false) : exec i s = s.finish i (s.vstore (l == 1) whole n es (s.th.vread d.toNat o)) := by
  obtain ⟨m, a, b, rfl, rfl, rfl, rfl⟩ | ⟨m, a, b, k, rfl, rfl, rfl, rfl⟩ | ⟨m, a, b, k, x, rfl, rfl, rfl, hb, hx, rfl⟩ := h
  · rw [exec_vst, execVst, State.issue_body hi, hd]
    simp only [hp, Bool.false_eq_true, if_false]
  · rw [exec_vsts, execVsts, State.issue_body hi, hd]
    simp only [hp, Bool.false_eq_true, if_false]
    rfl
  · rw [exec_vsct, execVsct, State.issue_body hi, hd, hb]
    simp only [hp, hx, Bool.or_self, Bool.false_eq_true, if_false]
    rfl
theorem VectorStore.exec_holds {whole : Bool} (h : VectorStore i s d l whole n es) (hd : s.th.vo d.toNat = some o)
    (hp : s.th.accPending o = true) : exec i s = .next (s.holding 2) := by
  obtain ⟨m, a, b, rfl, -⟩ | ⟨m, a, b, k, rfl, -⟩ | ⟨m, a, b, k, x, rfl, -, -, hb, -⟩ := h
  · exact holds_of (exec_vst ..) hi (by simp only [hd, hp, if_true])
  · exact holds_of (exec_vsts ..) hi (by simp only [hd, hp, if_true])
  · exact holds_of (exec_vsct ..) hi (by simp only [hd, hb, hp, Bool.true_or, if_true])
theorem VectorStore.traps_outside {whole : Bool} (h : VectorStore i s d l whole n es) (hd : s.th.vo d.toNat = none) :
    Traps i s ⟨.illstate, 0, s.th.pc⟩ := by
  obtain ⟨m, a, b, rfl, -⟩ | ⟨m, a, b, k, rfl, -⟩ | ⟨m, a, b, k, x, rfl, -⟩ := h
  · exact traps_of (exec_vst ..) hi (by simp only [hd])
  · exact traps_of (exec_vsts ..) hi (by simp only [hd])
  · exact traps_of (exec_vsct ..) hi (by simp only [hd])

end

/-- Settles O31: the three forms of each are one access, on the element addresses of the form; its outcome is the instruction's. -/
theorem vectorAccesses : Obligations.VectorAccesses := by
  refine ⟨fun i s e d l late w es hi hform => ?load, fun i s e d l whole n es hi hform => ?store⟩
  case load =>
    have h : VectorLoad i s d l late w es := hform
    exact ⟨fun o hd hv => completes_of_finish (h.exec_eq hi hd) hv, fun o x hd hv => traps_of_finish (h.exec_eq hi hd) hv,
      fun o k u hd hv => holds_of_finish (h.exec_eq hi hd) hv, fun o st u hd hv => waits_of_finish (h.exec_eq hi hd) hv,
      h.traps_outside hi⟩
  case store =>
    have h : VectorStore i s d l whole n es := hform
    exact ⟨fun o hd hp hv => completes_of_finish (h.exec_eq hi hd hp) hv, fun o x hd hp hv => traps_of_finish (h.exec_eq hi hd hp) hv,
      fun o k u hd hp hv => holds_of_finish (h.exec_eq hi hd hp) hv, fun o st u hd hp hv => waits_of_finish (h.exec_eq hi hd hp) hv,
      fun o => h.exec_holds hi, h.traps_outside hi⟩

end Sys2Proof.Machine
end

section
/-! PROOFS. Register vector forms, and lanes moved between registers (11:R133, R139-R147, 07:R93). -/

namespace Sys2Proof.Machine
open Sys2Proof

-- Forms from registers to a v register

/-- The window offset of an operand that a vector form names; 0 where it has none. -/
def Thread.offset (t : Thread) (r : Option Reg) : Option Nat := match r with
  | some r => t.vo r.toNat
  | none => some 0
/-- The operand at that offset, and `bs` for one that is not named. -/
def Thread.source (t : Thread) (bs : List Byte) (r : Option Reg) (o : Nat) : List Byte × Nat := match r with
  | some r => t.operand r.toNat o
  | none => (bs, 0)
/-- Its bytes, and the offset of accumulator bytes. -/
theorem Thread.source_eq (t : Thread) (r : Option Reg) (o : Nat) : t.source [] r o =
    (match r with | some r => t.vread r.toNat o | none => [], match r with | some r => (t.operand r.toNat o).2 | none => 0) := by
  cases r <;> rfl
theorem Thread.operand_if (t : Thread) (rd : Bool) (r o : Nat) : (if rd then t.operand r o else ([], 0)) =
    (if rd then t.vread r o else [], if rd then (t.operand r o).2 else 0) := by
  cases rd <;> rfl

section
variable {i : Instr} {s : State} {m : Mark} {d : Reg} {rd : Bool} {a b : Option Reg} {xa xb : Thread → List Byte}
  (he : exec i s = s.vec i m d rd a b xa xb) (hi : Issues i s)
include he hi

theorem traps_vec (h : s.th.vo d.toNat = none ∨ s.th.offset a = none ∨ s.th.offset b = none) :
    Traps i s ⟨.illstate, 0, s.th.pc⟩ := by
  refine traps_of he hi ?_
  dsimp only
  split
  next od oa ob hd ha hb =>
    have ha' : s.th.offset a = some oa := ha
    have hb' : s.th.offset b = some ob := hb
    simp [hd, ha', hb'] at h
  next => rfl

variable {od oa ob : Nat} (hd : s.th.vo d.toNat = some od) (ha : s.th.offset a = some oa) (hb : s.th.offset b = some ob)
  {pa pb pd : List Byte × Nat} (hpa : s.th.source (xa s.th) a oa = pa) (hpb : s.th.source (xb s.th) b ob = pb)
  (hpd : (if rd then s.th.operand d.toNat od else ([], 0)) = pd)
include hd ha hb hpa hpb hpd

/-- A form whose registers exist waits for the commands on its destination, is long-latency where it reads accumulator bytes, or delivers
its result. -/
theorem exec_vec_of_offsets : exec i s = s.finish i (
    if !transientMark m && s.writeWaits s.th od 128 then .hold 1 s
    else if pa.2 + pb.2 + pd.2 != 0 then
      .ok (s.await ⟨0, (List.range 128).map (od + ·), .late i (s.th.late pa) (s.th.late pb) (s.th.late pd), none, 0⟩)
    else .ok (State.setfx { s with th := s.th.vdeliver m d.toNat od (vecEval i pa.1 pb.1 pd.1).1 } (vecEval i pa.1 pb.1 pd.1).2)) := by
  subst hpa hpb hpd
  refine he.trans ((State.issue_body hi).trans (congrArg _ ?_))
  dsimp only
  split
  next od' oa' ob' hd' ha' hb' =>
    obtain rfl : od' = od := Option.some.inj (hd'.symm.trans hd)
    obtain rfl : oa' = oa := Option.some.inj (ha'.symm.trans ha)
    obtain rfl : ob' = ob := Option.some.inj (hb'.symm.trans hb)
    rfl
  next hno => exact absurd hb (hno od oa ob hd ha)
theorem exec_vec_holds (hm : transientMark m = false) (hw : s.writeWaits s.th od 128 = true) :
    exec i s = .next (s.holding 1) :=
  holds_of_finish (exec_vec_of_offsets he hi hd ha hb hpa hpb hpd) (if_pos (by simp [hm, hw]))

variable (hw : transientMark m = false → s.writeWaits s.th od 128 = false)
include hw

theorem completes_vec (hk : pa.2 + pb.2 + pd.2 = 0) : let r := vecEval i pa.1 pb.1 pd.1
    Completes i s (State.setfx { s with th := s.th.vdeliver m d.toNat od r.1 } r.2) :=
  completes_of_finish (exec_vec_of_offsets he hi hd ha hb hpa hpb hpd) ((if_neg (by simpa using hw)).trans (if_neg (by simp [hk])))
theorem completes_vec_late (hk : pa.2 + pb.2 + pd.2 ≠ 0) : Completes i s
    (s.await ⟨0, (List.range 128).map (od + ·), .late i (s.th.late pa) (s.th.late pb) (s.th.late pd), none, 0⟩) :=
  completes_of_finish (exec_vec_of_offsets he hi hd ha hb hpa hpb hpd)
    ((if_neg (by simpa using hw)).trans (if_pos (by simpa using hk)))

end

/-- Every form of `vecShape` is a form from registers, with its operands. -/
theorem exec_of_vecShape {i : Instr} {m : Mark} {d a : Reg} {rd : Bool} {b : Option Reg} (h : vecShape i = some (m, d, rd, a, b))
    (s : State) : exec i s = s.vec i m d rd (some a) b noBytes noBytes := by
  cases i
  all_goals simp only [vecShape, Option.some.injEq, Prod.mk.injEq, reduceCtorEq] at h
  all_goals obtain ⟨rfl, rfl, rfl, rfl, rfl⟩ := h
  all_goals rfl

/-- Settles O32: the operands of the statement are those of the form, each with the offset it is kept under. -/
theorem vectorFormsComplete : Obligations.VectorFormsComplete := by
  intro i s m d a rd b hshape hi
  have he := exec_of_vecShape hshape s
  refine ⟨?inside, fun h => traps_vec he hi ?outside⟩
  case inside =>
    intro od oa ob hd ha hb at_ kb kd
    have hb : s.th.offset b = some ob := by cases b <;> exact hb
    have hpb := s.th.source_eq b ob
    have hpd := s.th.operand_if rd d.toNat od
    exact ⟨exec_vec_holds he hi hd ha hb rfl hpb hpd, completes_vec he hi hd ha hb rfl hpb hpd,
      completes_vec_late he hi hd ha hb rfl hpb hpd⟩
  case outside => exact h.imp_right (Or.imp_right fun ⟨r, hr, hnone⟩ => hr ▸ hnone)

-- VBCST, VEXT and VINS (R139)

theorem exec_vbcst (m : Mark) (d a : Reg) (e : BitVec 3) (s : State) : exec (.vbcst m d a e) s = execVbcst m d a e s := rfl
theorem exec_vext (m : Mark) (d a b : Reg) (e : BitVec 3) (s : State) : exec (.vext m d a b e) s = execVext m d a b e s := rfl
theorem exec_vins (m : Mark) (d a b : Reg) (e : BitVec 3) (s : State) : exec (.vins m d a b e) s = execVins m d a b e s := rfl

theorem Thread.operand_window {t : Thread} {o : Nat} (r : Nat) (h : t.meetsAcc o 128 = false) : t.operand r o = (t.vread r o, 0) := by
  simp [Thread.operand, h]
theorem Thread.operand_acc {t : Thread} {r o : Nat} (h : t.meetsAcc o 128 = true) (hb : t.bypassed true r = none) :
    t.operand r o = (t.vread r o, o) := by
  simp [Thread.operand, h, hb]

section
variable {m : Mark} {d a b : Reg} {e : BitVec 3} {s : State} {o : Nat}

theorem completes_vbcst (hi : Issues (.vbcst m d a e) s) (hd : s.th.vo d.toNat = some o) (hw : s.writeWaits s.th o 128 = false) :
    let bs := (List.range (128 / etW e)).flatMap (fun _ => leBytes (etW e) (s.th.gr a).toNat)
    Completes (.vbcst m d a e) s { s with th := s.th.winWrite o bs } :=
  completes_of (exec_vbcst ..) hi (by simp only [hd, hw, lanes_bytes, Bool.false_eq_true, if_false])
theorem traps_vbcst (hd : s.th.vo d.toNat = none) (hi : Issues (.vbcst m d a e) s) :
    Traps (.vbcst m d a e) s ⟨.illstate, 0, s.th.pc⟩ :=
  traps_of (exec_vbcst ..) hi (by simp only [hd])

theorem traps_vext (ha : s.th.vo a.toNat = none) (hi : Issues (.vext m d a b e) s) :
    Traps (.vext m d a b e) s ⟨.illstate, 0, s.th.pc⟩ :=
  traps_of (exec_vext ..) hi (by simp only [ha])

section
variable (hi : Issues (.vext m d a b e) s) (ha : s.th.vo a.toNat = some o)
include hi ha

theorem completes_vext (hacc : s.th.meetsAcc o 128 = false) :
    let x := lane (s.th.vread a.toNat o) (etW e) ((s.th.gr b).toNat % (128 / etW e))
    Completes (.vext m d a b e) s (s.gw d (BitVec.ofNat 64 (if e.toNat < 4 then sextN (8 * etW e) 64 x else x))) :=
  completes_of (exec_vext ..) hi (by
    simp only [ha, Thread.operand_window _ hacc, vecEval, leNat_leBytes_word, ofNat_leNat_leBytes_eight]
    simp [etS])

variable (hacc : s.th.meetsAcc o 128 = true) (hb : s.th.bypassed true a.toNat = none) (ho : o ≠ 0)
include hacc hb ho

theorem traps_vext_counts (hc : s.th.countsBy d = true) : Traps (.vext m d a b e) s ⟨.illstate, 0, s.th.pc⟩ :=
  traps_of (exec_vext ..) hi (by simp [ha, Thread.operand_acc hacc hb, ho, hc])
theorem completes_vext_late (hc : s.th.countsBy d = false) :
    Completes (.vext m d a b e) s (s.await ⟨d, [], .late (.vext m d a b e) (s.th.lateOp o (s.th.vread a.toNat o))
      (s.th.lateOp 0 (leBytes 8 (s.th.gr b).toNat)) (s.th.lateOp 0 []), none, 0⟩) :=
  completes_of (exec_vext ..) hi (by simp [ha, Thread.operand_acc hacc hb, ho, hc, Thread.late])

end

theorem traps_vins (hd : s.th.vo d.toNat = none) (hi : Issues (.vins m d a b e) s) :
    Traps (.vins m d a b e) s ⟨.illstate, 0, s.th.pc⟩ := traps_vec (exec_vins ..) hi (.inl hd)

/-- The bytes of VINS: those of its vector but for one lane. -/
theorem vecEval_vins (x y : Word) (vd : List Byte) : vecEval (.vins m d a b e) (leBytes 8 x.toNat) (leBytes 8 y.toNat) vd =
    ((List.range (128 / etW e)).flatMap (fun j => leBytes (etW e)
      (if j = y.toNat % (128 / etW e) then x.toNat else lane vd (etW e) j)), 0) := by
  have hw : etW e ≤ 8 := Nat.pow_le_pow_right two_pos (show e.toNat % 4 ≤ 3 by omega)
  refine Prod.ext ?_ (lanes_noFlag (fun _ => rfl) ..)
  simp only [vecEval, lanes_bytes, leNat_leBytes_word]
  congr 1
  funext j
  split
  · exact leBytes_leNat_take hw _
  · rfl

section
variable (hi : Issues (.vins m d a b e) s) (hd : s.th.vo d.toNat = some o) (hw : s.writeWaits s.th o 128 = false)
include hi hd hw

theorem completes_vins (hacc : s.th.meetsAcc o 128 = false) :
    let bs := (List.range (128 / etW e)).flatMap (fun j => leBytes (etW e)
      (if j = (s.th.gr b).toNat % (128 / etW e) then (s.th.gr a).toNat else lane (s.th.vread d.toNat o) (etW e) j))
    Completes (.vins m d a b e) s { s with th := s.th.vdeliver m d.toNat o bs } := by
  have h := completes_vec (exec_vins ..) hi hd rfl rfl rfl rfl (Thread.operand_window d.toNat hacc) (fun _ => hw) rfl
  simpa only [Thread.source, vecEval_vins, State.setfx_zero] using h
theorem completes_vins_late (hacc : s.th.meetsAcc o 128 = true) (hb : s.th.bypassed true d.toNat = none) (ho : o ≠ 0) :
    Completes (.vins m d a b e) s (s.await ⟨0, (List.range 128).map (o + ·), .late (.vins m d a b e)
      (s.th.lateOp 0 (leBytes 8 (s.th.gr a).toNat)) (s.th.lateOp 0 (leBytes 8 (s.th.gr b).toNat))
      (s.th.lateOp o (s.th.vread d.toNat o)), none, 0⟩) := by
  have h := completes_vec_late (exec_vins ..) hi hd rfl rfl rfl rfl (Thread.operand_acc hacc hb) (fun _ => hw)
  simp only [Thread.source, Thread.late, Nat.zero_add] at h
  exact h ho

end
end

/-- Settles O33: VINS is a form from registers; VBCST and VEXT have an effect of their own. -/
theorem laneMovement : Obligations.LaneMovement := by
  refine ⟨?vbcst, ?vext, ?vins, fun m d a b e s => ⟨traps_vbcst, traps_vext, traps_vins⟩,
    fun m d a b e s o ho => ⟨?vextLate, ?vinsLate⟩⟩
  case vbcst => exact fun m d a e s o hi hd hw => completes_vbcst hi hd hw
  case vext => exact fun m d a b e s o hi ha hacc => completes_vext hi ha hacc
  case vins => exact fun m d a b e s o hi hd hacc hw => completes_vins hi hd hw hacc
  case vextLate =>
    exact fun hi ha hacc hb => ⟨traps_vext_counts hi ha hacc hb ho, completes_vext_late hi ha hacc hb ho⟩
  case vinsLate => exact fun hi hd hacc hb hw => completes_vins_late hi hd hw hacc hb ho

end Sys2Proof.Machine
end

section
/-! PROOFS. Matrix commands of a thread, and waits for them (11:R148-R155, R161, R163). -/

namespace Sys2Proof.Machine
open Sys2Proof

theorem exec_mma (m : Mark) (q : BitVec 3) (c : BitVec 2) (a b : Reg) (k : BitVec 5) (s : State) :
    exec (.mma m q c a b k) s = execMma m q c a b k s := rfl
theorem exec_mzero (m : Mark) (q : BitVec 3) (a : Reg) (s : State) : exec (.mzero m q a) s = execMzero m q a s := rfl
theorem exec_mscl (m : Mark) (q : BitVec 3) (a b c : Reg) (s : State) : exec (.mscl m q a b c) s = execMscl m q a b c s := rfl
theorem exec_mwait (m : Mark) (k : BitVec 5) (s : State) : exec (.mwait m k) s = execMwait m k s := rfl
theorem exec_mwm (m : Mark) (a b : Reg) (s : State) : exec (.mwm m a b) s = execMwm m a b s := rfl

-- The queue of a thread's commands

theorem State.pushCmd_full {s : State} (q : BitVec 3) (c : MCmd) (f : Thread → Thread) (h : 8 ≤ s.th.flow.mq.length) :
    s.pushCmd q c f = .hold 1 s := if_pos h
theorem State.pushCmd_room {s : State} (q : BitVec 3) (c : MCmd) (f : Thread → Thread) (h : s.th.flow.mq.length < 8) :
    s.pushCmd q c f = .ok (let t := f s.th
      { s with th := { t with flow := { t.flow with mq := t.flow.mq ++ [⟨c, t.condTag q.toNat, t.tid, t.tid⟩] } } }) :=
  if_neg h.not_ge

section
variable {m : Mark} {q : BitVec 3} {s : State}

/-- MMA past its checks puts its command into the queue (R152-R153). -/
theorem exec_mma_pushes {acc : BitVec 2} {a b : Reg} {k : BitVec 5} (hi : Issues (.mma m q acc a b k) s)
    (hv : s.th.viewTrap acc.toNat = none) (hk : (s.th.gr k).toNat ≤ 0xFFFFFF)
    (hwin : s.windowTrap s.th [(s.th.gr a).toNat % 32, (s.th.gr b).toNat % 32] = none) (hc : s.th.capTrap acc.toNat = none)
    {oa ob : MOper} {wa wb : Win} (ho : (s.tile s.th.tile).operands (s.th.gr a) (s.th.gr b) (s.th.gr k) = .ok ((oa, wa), (ob, wb)))
    (ha : wa.state = 2) (hb : wb.state = 2) : exec (.mma m q acc a b k) s = s.finish (.mma m q acc a b k)
      (s.pushCmd q (.mma acc.toNat (s.th.bound ((s.th.ao acc.toNat).getD 0)) oa ob (s.th.gr k).toNat) (·.claim acc.toNat)) := by
  rw [exec_mma, execMma, State.issue_body hi]
  have hfind : [(oa.win, wa), (ob.win, wb)].find? (fun p => p.2.state != 2) = none := by simp [ha, hb]
  simp only [hv, if_neg hk.not_gt, hwin, hc, ho, hfind]
theorem exec_mzero_pushes {a : Reg} (hi : Issues (.mzero m q a) s) (hv : s.th.viewTrap a.toNat = none)
    (hc : s.th.capTrap a.toNat = none) : exec (.mzero m q a) s = s.finish (.mzero m q a)
      (s.pushCmd q (.mzero a.toNat (s.th.bound ((s.th.ao a.toNat).getD 0))) (·.claim a.toNat)) := by
  rw [exec_mzero, execMzero, State.issue_body hi]
  simp only [hv, hc]
/-- MSCL of entries in scratch puts its command into the queue (R163). -/
theorem exec_mscl_pushes {a b c : Reg} (hi : Issues (.mscl m q a b c) s) (hv : s.th.viewTrap c.toNat = none)
    (h1 : 1 ≤ (s.th.gr b).toNat) (h64 : (s.th.gr b).toNat ≤ 64) (ha : (s.th.gr a).toNat % 64 = 0)
    (he : s.entryCheck s.th (s.th.gr a).toNat (64 * (s.th.gr b).toNat) = .ok true) : exec (.mscl m q a b c) s =
      s.finish (.mscl m q a b c) (s.pushCmd q (.mscl c.toNat (s.th.gr a).toNat (s.th.gr b).toNat) id) := by
  have hok : (decide ((s.th.gr b).toNat < 1) || decide (64 < (s.th.gr b).toNat) || (s.th.gr a).toNat % 64 != 0) = false := by
    simp [ha, h1.not_gt, h64.not_gt]
  rw [exec_mscl, execMscl, State.issue_body hi]
  simp only [hv, hok, he, Bool.false_eq_true, if_false, if_true]
  rfl

theorem traps_mma_outside {acc : BitVec 2} {a b : Reg} {k : BitVec 5} {x : Trap} (hv : s.th.viewTrap acc.toNat = some x)
    (hi : Issues (.mma m q acc a b k) s) : Traps (.mma m q acc a b k) s x := traps_of (exec_mma ..) hi (by simp only [hv])
theorem traps_mzero_outside {a : Reg} {x : Trap} (hv : s.th.viewTrap a.toNat = some x) (hi : Issues (.mzero m q a) s) :
    Traps (.mzero m q a) s x := traps_of (exec_mzero ..) hi (by simp only [hv])
theorem traps_mscl_outside {a b c : Reg} {x : Trap} (hv : s.th.viewTrap c.toNat = some x) (hi : Issues (.mscl m q a b c) s) :
    Traps (.mscl m q a b c) s x := traps_of (exec_mscl ..) hi (by simp only [hv])

end

theorem Thread.viewTrap_eq {t : Thread} {a : Nat} {x : Trap} (h : t.viewTrap a = some x) : x = ⟨.illstate, 0, t.pc⟩ := by
  unfold Thread.viewTrap at h
  split at h
  · exact (Option.some.inj h).symm
  · cases h

/-- Settles O35: past its checks each of the three is the same push into the queue. -/
theorem matrixCommandsQueue : Obligations.MatrixCommandsQueue := by
  refine ⟨fun i s q c f hi hform => ?queue, fun m q acc a b c r k s x =>
    ⟨traps_mma_outside, traps_mzero_outside, traps_mscl_outside, Thread.viewTrap_eq⟩⟩
  case queue =>
    have hpush : exec i s = s.finish i (s.pushCmd q c f) := by
      obtain ⟨m, acc, a, b, k, oa, wa, ob, wb, rfl, hv, hk, hwin, hc, ho, ha, hb, rfl, rfl⟩ | ⟨m, a, rfl, hv, hc, rfl, rfl⟩ |
        ⟨m, a, b, acc, rfl, hv, h1, h64, ha, he, rfl, rfl⟩ := hform
      · exact exec_mma_pushes hi hv hk hwin hc ho ha hb
      · exact exec_mzero_pushes hi hv hc
      · exact exec_mscl_pushes hi hv h1 h64 ha he
    exact ⟨fun hroom => completes_of_finish hpush (State.pushCmd_room q c f hroom),
      fun hfull => holds_of_finish hpush (State.pushCmd_full q c f hfull)⟩

-- MWAIT and MWM (R161)

section
variable {m : Mark} {s : State}

/-- One of the accumulators that MWAIT names, all of them for none, has commands or rows to come. -/
def State.accsBusy (s : State) (k : BitVec 5) : Bool :=
  ((List.range 4).filter (fun a => k = 0 || bitOf k.toNat a)).any (fun a => s.accBusy s.th false a || s.th.mu.wm.getD a 32 != 32)
theorem exec_mwait_waits {k : BitVec 5} (hi : Issues (.mwait m k) s) (h : s.accsBusy k = true) :
    exec (.mwait m k) s = .next (s.waits .waiting) := waits_of (exec_mwait ..) hi (if_pos h)
theorem passes_mwait {k : BitVec 5} (hi : Issues (.mwait m k) s) (h : s.accsBusy k = false) : Passes (.mwait m k) s s := by
  have he : exec (.mwait m k) s = s.finish (.mwait m k) s.passed :=
    (exec_mwait ..).trans ((State.issue_body hi).trans (congrArg _ (if_neg (Bool.eq_false_iff.mp h))))
  refine ⟨fun hst hb => ?_, fun hst => ?_⟩
  · rw [he, State.passed, if_pos hst, State.finish_ok hb]
  · rw [he, State.passed, if_neg hst, State.finish_pass]

theorem completes_mwm {a b : Reg} {o : Nat} (hi : Issues (.mwm m a b) s) (hb : s.th.ao b.toNat = some o)
    (hc : s.th.countsBy a = false) : Completes (.mwm m a b) s (s.await ⟨a, [], .watermark b.toNat, none, 0⟩) :=
  completes_of (exec_mwm ..) hi (if_neg (by simp [hb, hc]))
theorem traps_mwm {a b : Reg} (hi : Issues (.mwm m a b) s) (h : s.th.ao b.toNat = none ∨ s.th.countsBy a = true) :
    Traps (.mwm m a b) s ⟨.illstate, 0, s.th.pc⟩ := traps_of (exec_mwm ..) hi (if_pos (by simpa using h))

end

end Sys2Proof.Machine
end

section
/-! PROOFS. Accumulators saved to memory and taken back (11:R166). -/

namespace Sys2Proof.Machine
open Sys2Proof

theorem exec_msave (m : Mark) (a b : Reg) (s : State) : exec (.msave m a b) s = execMsave m a b s := rfl
theorem exec_mrest (m : Mark) (a b : Reg) (s : State) : exec (.mrest m a b) s = execMrest m a b s := rfl

/-- The image of an accumulator at window offset `o`: its rows, its owner and its flags. -/
def Thread.accImage (t : Thread) (a o : Nat) : List Byte :=
  t.winRead o 4096 ++ leBytes 8 (t.mu.own.getD a 0 * 256 + (t.mu.fx.getD a 0).toNat) ++ List.replicate 56 0

section
variable {m : Mark} {a b : Reg} {s : State} {o : Nat} (hb : s.th.ao b.toNat = some o)
include hb

theorem traps_msave_misaligned (ha : (s.th.gr a).toNat % 64 ≠ 0) (hi : Issues (.msave m a b) s) :
    Traps (.msave m a b) s ⟨.align, 0, s.th.gr a⟩ := traps_of (exec_msave ..) hi (by
  simp only [hb, ne_eq, ha, not_false_eq_true, if_true])
theorem traps_mrest_misaligned (ha : (s.th.gr a).toNat % 64 ≠ 0) (hi : Issues (.mrest m a b) s) :
    Traps (.mrest m a b) s ⟨.align, 0, s.th.gr a⟩ := traps_of (exec_mrest ..) hi (by
  simp only [hb, Option.isNone_some, Bool.false_eq_true, if_false, ne_eq, ha, not_false_eq_true, if_true])

variable (ha : (s.th.gr a).toNat % 64 = 0)
include ha

section
variable (hi : Issues (.msave m a b) s) {s' : State} {ps : List Piece} (hp : s.pieces s.th.acc .write (s.th.gr a) 4160 = .ok (ps, s'))
include hi hp

theorem traps_msave_refused {x : Trap} (hx : ps.findSome? (s'.refusal s.th.acc) = some x) : Traps (.msave m a b) s x :=
  traps_of (exec_msave ..) hi (by
    simp only [hb, ha, hp, hx, ne_eq, not_true_eq_false, if_false, Option.isSome_some, if_true, Option.getD_some])
theorem completes_msave (hx : ps.findSome? (s'.refusal s.th.acc) = none) (hown : s.th.mu.own.getD b.toNat 0 ≤ s.th.priv.code + 1)
    (hd : s.accDrained s.th b.toNat = true) (hw : s'.accessWaits s.th.acc ps = false) (hblk : s'.storeBlock s.th.acc ps = none) :
    let u := (storePieces s.th.acc ps (s.th.accImage b.toNat o) s').asOne s.th.tid s'.fresh
    Completes (.msave m a b) s { u with th := { u.th with mu := u.th.mu.setOwn b.toNat 0 } } :=
  completes_of (exec_msave ..) hi (by
    simp only [hb, ha, hp, hx, hown.not_gt, hd, hw, hblk, State.storeAll_unrefused _ hx, ne_eq, not_true_eq_false, if_false,
      Option.isSome_none, Bool.false_eq_true, Bool.not_true]
    rfl)

end

/-- An image that MREST of the thread takes for accumulator `a`: its reserved bits are zero, and the mode may own what it says. -/
def Thread.takesImage (t : Thread) (bs : List Byte) : Prop :=
  let w := leNat ((bs.drop 4096).take 8)
  bits w 63 10 = 0 ∧ bits w 7 6 = 0 ∧ (bs.drop 4104).any (· != 0) = false ∧ bits w 9 8 ≤ t.priv.code + 1
theorem completes_mrest (hi : Issues (.mrest m a b) s) {s' s'' : State} {ps : List Piece} {bs : List Byte}
    (hp : s.pieces s.th.acc .read (s.th.gr a) 4160 = .ok (ps, s'')) (hc : s.th.capTrap b.toNat = none)
    (hread : s.ldHeld s.th.acc .read (s.th.gr a) 4160 = .ok bs s') (himg : s.th.takesImage bs)
    (hd : s'.accDrained s.th b.toNat = true) :
    let w := leNat ((bs.drop 4096).take 8)
    let th := s'.th.winWrite o (bs.take 4096)
    let mu := (th.mu.setOwn b.toNat (bits w 9 8)).setWm b.toNat 32
    Completes (.mrest m a b) s
      { s' with th := { th with mu := { mu with fx := th.mu.fx.set b.toNat (BitVec.ofNat 6 (bits w 5 0)) } } } := by
  obtain ⟨hhigh, hmid, hrest, hown⟩ := himg
  refine completes_of (exec_mrest ..) hi ?_
  simp only [hb, ha, hp, hc, Option.isNone_some, Bool.false_eq_true, if_false, ne_eq, not_true_eq_false]
  refine (Held.andThen_of_ok hread).trans ?_
  simp only [hhigh, hmid, hrest, hown.not_gt, hd, Bool.false_eq_true, not_true_eq_false, or_self, if_false, Bool.not_true]
  rfl

end

/-- Settles O36: MWAIT by its wait, MSAVE and MREST by the order of their checks. -/
theorem matrixWaitsAndImages : Obligations.MatrixWaitsAndImages := by
  refine ⟨⟨?mwait, ?mwm, ?mwmTraps⟩, ?msave, ?msaveRefused, ?mrest, ?misaligned⟩
  case mwait =>
    intro m k s hi
    exact ⟨fun h => (passes_mwait hi h).1, fun h => (passes_mwait hi h).2, exec_mwait_waits hi⟩
  case mwm => exact fun m a b s o hi hb hc => completes_mwm hi hb hc
  case mwmTraps => exact fun m a b s hi h => traps_mwm hi h
  case msave => exact fun m a b s s' o ps hi hb ha hp hx hown hd hw hblk => completes_msave hb ha hi hp hx hown hd hw hblk
  case msaveRefused => exact fun m a b s s' o ps x hi hb ha hp hx => traps_msave_refused hb ha hi hp hx
  case mrest =>
    exact fun m a b s s' s'' o ps bs hi hb ha hp hc hread hhigh hmid hrest hown hd =>
      completes_mrest hb ha hi hp hc hread ⟨hhigh, hmid, hrest, hown⟩ hd
  case misaligned => exact fun m a b s o hb ha => ⟨traps_msave_misaligned hb ha, traps_mrest_misaligned hb ha⟩

end Sys2Proof.Machine
end

section
/-! PROOFS. Conversions to scratch, remote commands and capabilities (11:R157-R159, R162, R164-R165). -/

namespace Sys2Proof.Machine
open Sys2Proof

theorem exec_mpln (m : Mark) (a b : Reg) (c : BitVec 5) (s : State) : exec (.mpln m a b c) s = execMpln m a b c s := rfl
theorem exec_acvt (m : Mark) (q : BitVec 3) (a b : Reg) (c : BitVec 5) (s : State) :
    exec (.acvt m q a b c) s = execAcvt m q a b c s := rfl
theorem exec_mmar (m : Mark) (q : BitVec 3) (c : BitVec 2) (a b : Reg) (k : BitVec 5) (s : State) :
    exec (.mmar m q c a b k) s = execMmar m q c a b k s := rfl
theorem exec_scalemc (m : Mark) (q : BitVec 3) (a b : Reg) (c : BitVec 5) (s : State) :
    exec (.scalemc m q a b c) s = execScalemc m q a b c s := rfl
theorem exec_capmint (m : Mark) (a b : Reg) (s : State) : exec (.capmint m a b) s = execCapmint m a b s := rfl

-- MPLN and ACVT

/-- A store to scratch in range that no command reads and no earlier access orders is made. -/
theorem State.putLocal_made {s : State} {e : Nat} {bs : List Byte} (f : State → State)
    (hc : s.localCheck s.th e bs.length e = .ok) (hr : s.matrixReads s.th e bs.length = false) (ho : s.th.ordered 2 = false) :
    s.putLocal e bs f = .ok (f (s.tileStore s.th.tile e bs)) := by
  simp only [State.putLocal, hc, hr, ho, Bool.false_eq_true, if_false]
  rfl

section
variable {m : Mark} {s : State}

theorem completes_mpln {a b : Reg} {c : BitVec 5} {o : Nat} {f : Mfc} (hi : Issues (.mpln m a b c) s) (hb : s.th.vo b.toNat = some o)
    (hc : (s.th.gr c).toNat < 64) (hf : mfcUpTo 0x2F (s.th.gr c).toNat = some f) (ha : (s.th.gr a).toNat % 4 = 0)
    (hp : s.th.accPending o = false) {bs : List Byte}
    (hbs : planeGroup f ((List.range 32).map (lane (s.th.vread b.toNat o) f.bytes)) = bs)
    (hl : s.localCheck s.th (s.th.gr a).toNat bs.length (s.th.gr a).toNat = .ok)
    (hr : s.matrixReads s.th (s.th.gr a).toNat bs.length = false) (ho : s.th.ordered 2 = false) :
    Completes (.mpln m a b c) s (s.tileStore s.th.tile (s.th.gr a).toNat bs) :=
  completes_of (exec_mpln ..) hi (by
    simp only [hb, hc, hf, ha, hp, hbs, State.putLocal_made _ hl hr ho, ne_eq, not_true_eq_false, if_true, if_false,
      Bool.false_eq_true, id_eq])

variable {q : BitVec 3} {a b : Reg} {c : BitVec 5} {k : AcvtCtl} (hi : Issues (.acvt m q a b c) s) (hk : acvtCtl (s.th.gr b) = some k)
  (hl : s.localCheck s.th (s.th.gr a).toNat k.size (s.th.gr a).toNat = .ok)
include hi hk hl

theorem completes_acvt (h0 : c = 0) (ht : s.th.accTrap k.acc = none) (hbusy : s.accBusy s.th false k.acc = false)
    (hrows : s.th.rowsDone k = true) {r : List Byte × Flags} (hr : s.th.acvtRows ((s.th.ao k.acc).getD 0) k = r)
    (hl' : s.localCheck s.th (s.th.gr a).toNat r.1.length (s.th.gr a).toNat = .ok)
    (hm : s.matrixReads s.th (s.th.gr a).toNat r.1.length = false) (ho : s.th.ordered 2 = false) :
    let u := s.tileStore s.th.tile (s.th.gr a).toNat r.1
    Completes (.acvt m q a b c) s (State.setfx { u with th := (u.th.claim k.acc).setGuard q.toNat .tru } r.2) :=
  completes_of (exec_acvt ..) hi (by
    simp only [hk, hl, h0, ht, hbusy, hrows, hr, State.putLocal_made _ hl' hm ho, if_true, Bool.not_true, Bool.or_self,
      Bool.false_eq_true, if_false])
/-- ACVT with a capability leaves for the tile that it names (R165). -/
theorem completes_acvt_remote (h0 : c ≠ 0) : Completes (.acvt m q a b c) s (State.toRouter { s with th := s.th.setGuard q.toNat .pend }
    (.acvt ((coordIdx (bits (s.th.gr c).toNat 53 43)).getD noTile) s.th.tid (s.th.resultTag q.toNat) (s.th.gr a) (s.th.gr b)
      (s.th.gr c) s.th.dom)) :=
  completes_of (exec_acvt ..) hi (by simp only [hk, hl, h0, if_false, BitVec.setWidth_eq])

end

/-- Settles O37: the store to scratch is one operation, which both conversions end in. -/
theorem matrixConversions : Obligations.MatrixConversions := by
  refine ⟨?mpln, ?acvt, ?acvtRemote⟩
  case mpln =>
    intro m a b c s o f hi hb hc hf ha hp bs hl hr ho
    exact completes_mpln hi hb hc hf ha hp rfl hl hr ho
  case acvt =>
    intro m q a b s k hi hk hl ht hbusy hrows r hl' hm ho
    exact completes_acvt hi hk hl rfl ht hbusy hrows rfl hl' hm ho
  case acvtRemote => exact fun m q a b c s k hi h0 hk hl => completes_acvt_remote hi hk hl h0

-- MMAR, SCALEMC and CAPMINT

/-- Sending messages changes no thread, so that each message may be made from the thread at the start. -/
theorem State.foldl_toRouter (is : List Nat) (f : Thread → Nat → RouterMsg) (s : State) :
    is.foldl (fun u i => u.toRouter (f u.th i)) s = is.foldl (fun u i => u.toRouter (f s.th i)) s := by
  induction is generalizing s with
  | nil => rfl
  | cons i is ih =>
    rw [List.foldl_cons, ih, State.toRouter_th]
    rfl

/-- Settles O38: MMAR checks nothing, SCALEMC its range and CAPMINT its control register. -/
theorem remoteMatrix : Obligations.RemoteMatrix := by
  refine ⟨?mmar, ?scalemc, ?capmint⟩
  case mmar => exact fun m q c a b k s hi => completes_of (exec_mmar ..) hi rfl
  case scalemc =>
    intro m q a b c s hi o n x loft hlaunch h1 h64 hal hfit hres hent hord bs es ts e
    refine completes_of (exec_scalemc ..) hi ?_
    have hpast : (!s.ofLoftLaunch s.th || decide (n < 1) || decide (64 < n)) = false := by
      simp [hlaunch, h1.not_gt, h64.not_gt]
    have hbad : decide (o % 64 ≠ 0 ∨ bits loft 44 24 < o + 64 * n ∨ bits x 63 32 ≠ 0) = false := by
      simp [hal, hfit.not_gt, hres]
    simp only [BitVec.setWidth_eq]
    rw [hpast, hbad, hent]
    simp only [hord, Bool.false_eq_true, if_false, if_true]
    rw [← apply_ite]
    congr 2
    -- The statement takes the sender's number, guard and domain from each state of the fold.
    refine Eq.trans ?_ (State.foldl_toRouter ts (fun t i => .scale ((bits x 29 28 * 16 + bits x 27 24) * 24 + i) t.tid
      (t.resultTag q.toNat) (bits x 31 30) t.dom es) _).symm
    simp [Thread.resultTag, o, n, x, loft, es, bs, ts]
  case capmint =>
    intro m a b s hissues hz x k cep uses hi host e
    refine completes_of (exec_capmint ..) hissues ((if_neg (not_not_intro hz)).trans ?_)
    have huses : bits (s.th.gr b).toNat 7 0 = (s.th.gr b).toNat % 256 := congrArg (· % 256) (Nat.div_one _)
    simp only [huses]
    rfl

end Sys2Proof.Machine
end

section
/-! PROOFS. Packets and guards (07:R94, 13:R180-R184). -/

namespace Sys2Proof.Machine
open Sys2Proof

theorem exec_send (m : Mark) (a b : Reg) (s : State) : exec (.send m a b) s = execSend m a b s := rfl
theorem exec_sende (m : Mark) (q : BitVec 3) (a b : Reg) (s : State) : exec (.sende m q a b) s = execSende m q a b s := rfl
theorem exec_recv (m : Mark) (a b : Reg) (c : BitVec 5) (s : State) : exec (.recv m a b c) s = execRecv m a b c s := rfl
theorem exec_gset (m : Mark) (q : BitVec 3) (a : Reg) (s : State) : exec (.gset m q a) s = execGset m q a s := rfl
theorem exec_gwait (m : Mark) (q : BitVec 3) (s : State) : exec (.gwait m q) s = execGwait m q s := rfl

-- The end of a wait

/-- A meaning that is over once its wait is. -/
theorem passes_of {i : Instr} {s t : State} {f : State → Done} (he : exec i s = s.issue i f) (hi : Issues i s)
    (hf : f s = t.passed) : Passes i s t := by
  have hex : exec i s = s.finish i t.passed := he.trans ((State.issue_body hi).trans (congrArg _ hf))
  refine ⟨fun hst hb => ?_, fun hst => ?_⟩
  · rw [hex, State.passed, if_pos hst, State.finish_ok hb]
  · rw [hex, State.passed, if_neg hst, State.finish_pass]

-- SEND and SENDE

section
variable {m : Mark} {q : BitVec 3} {a b : Reg} {s : State}

theorem completes_send {p : Packet} (hi : Issues (.send m a b) s) (hp : s.th.addBeat a b 0 = some p) :
    Completes (.send m a b) s { s with th := { s.th with flow := { s.th.flow with packet := some p } } } :=
  completes_of (exec_send ..) hi (by simp only [hp])
theorem traps_send (hi : Issues (.send m a b) s) (hp : s.th.addBeat a b 0 = none) :
    Traps (.send m a b) s ⟨.illstate, 0, s.th.pc⟩ := traps_of (exec_send ..) hi (by simp only [hp])

section
variable {p : Packet} (hi : Issues (.sende m q a b) s) (hp : s.th.addBeat a b (s.th.resultTag q.toNat) = some p)
include hi hp

theorem completes_sende (hroom : s.unaccepted s.th < 4) (hm : s.mayRelease s.th = true) :
    let t := s.th.setGuard q.toNat .pend
    Completes (.sende m q a b) s
      { s with th := { t with flow := { t.flow with packet := none, egress := t.flow.egress ++ [p] } } } :=
  completes_of (exec_sende ..) hi (by simp only [hp]; exact if_neg (by simp [hroom, hm]))
theorem holds_sende (h : 4 ≤ s.unaccepted s.th ∨ s.mayRelease s.th = false) :
    exec (.sende m q a b) s = .next (s.holding 2) :=
  holds_of (exec_sende ..) hi (by simp only [hp]; exact if_pos (by simpa using h))

end

theorem traps_sende (hi : Issues (.sende m q a b) s) (hp : s.th.addBeat a b (s.th.resultTag q.toNat) = none) :
    Traps (.sende m q a b) s ⟨.illstate, 0, s.th.pc⟩ := traps_of (exec_sende ..) hi (by simp only [hp])

end

-- RECV

/-- The receive queue of the thread's domain on its tile: the fifth, of no domain, where it has none. -/
def State.rxQueue (s : State) : Nat := (((s.tile s.th.tile).dp? s.th.dom).map (·.1)).getD 4

section
variable {m : Mark} {a b : Reg} {c : BitVec 5} {s : State} (hi : Issues (.recv m a b c) s)
include hi

theorem completes_recv {y : Beat} {rest : List Beat} (hq : (s.tile s.th.tile).rxq.getD s.rxQueue [] = y :: rest) :
    Completes (.recv m a b c) s
      (((s.setTile s.th.tile { s.tile s.th.tile with rxq := (s.tile s.th.tile).rxq.set s.rxQueue rest }).gw a y.data).gw b y.status) := by
  unfold State.rxQueue at hq ⊢
  exact completes_of (exec_recv ..) hi (by simp only [hq])

variable (hq : (s.tile s.th.tile).rxq.getD s.rxQueue [] = [])
include hq

theorem completes_recv_empty (hc : c = 0) : Completes (.recv m a b c) s ((s.gw a 0).gw b 0) := by
  unfold State.rxQueue at hq
  exact completes_of (exec_recv ..) hi (by simp only [hq, hc, if_true])
theorem holds_recv_empty (hc : c ≠ 0) : exec (.recv m a b c) s = .next (s.holding 1) := by
  unfold State.rxQueue at hq
  exact holds_of (exec_recv ..) hi (by simp only [hq, hc, if_false])

end

/-- Settles O29: SEND and SENDE by what the beat makes of the open packet, RECV by its queue. -/
theorem packets : Obligations.Packets := by
  refine ⟨?send, ?sendTraps, ?sende, ?sendeHolds, ?sendeTraps, ?recv⟩
  case send => exact fun m a b s p hi hp => completes_send hi hp
  case sendTraps => exact fun m a b s hi hp => traps_send hi hp
  case sende => exact fun m q a b s p hi hp hroom hm => completes_sende hi hp hroom hm
  case sendeHolds => exact fun m q a b s p hi hp h => holds_sende hi hp h
  case sendeTraps => exact fun m q a b s hi hp => traps_sende hi hp
  case recv =>
    exact fun m a b c s hi => ⟨fun y rest hq => completes_recv hi hq,
      fun hq => ⟨completes_recv_empty hi hq, holds_recv_empty hi hq⟩⟩

-- GSET and GWAIT

section
variable {m : Mark} {q : BitVec 3} {a : Reg} {s : State}

theorem guardOf_ne_zero (x : Word) : guardOf (x != 0) = if x = 0 then .fls else .tru := by
  by_cases h : x = 0 <;> simp [guardOf, h]
theorem completes_gset (hi : Issues (.gset m q a) s) (hg : s.th.gst q.toNat ≠ .pend) :
    Completes (.gset m q a) s { s with th := s.th.setGuard q.toNat (if s.th.gr a = 0 then .fls else .tru) } :=
  completes_of (exec_gset ..) hi ((if_neg hg).trans (by rw [guardOf_ne_zero]))
theorem holds_gset (hi : Issues (.gset m q a) s) (hg : s.th.gst q.toNat = .pend) :
    exec (.gset m q a) s = .next (s.holding 1) := holds_of (exec_gset ..) hi (if_pos hg)
theorem passes_gwait (hi : Issues (.gwait m q) s) (hg : s.th.gst q.toNat ≠ .pend) : Passes (.gwait m q) s s :=
  passes_of (exec_gwait ..) hi (if_neg hg)
theorem waits_gwait (hi : Issues (.gwait m q) s) (hg : s.th.gst q.toNat = .pend) :
    exec (.gwait m q) s = .next (s.waits .waiting) := waits_of (exec_gwait ..) hi (if_pos hg)

end

section
variable (t : Thread) (g : Guard)

@[simp] theorem Thread.gst_zero : t.gst 0 = .tru := if_pos rfl
@[simp] theorem Thread.setGuard_zero : t.setGuard 0 g = t := if_pos rfl
theorem Thread.gst_setGuard_self {i : Nat} (h1 : 1 ≤ i) (hlen : i ≤ t.guards.length) : (t.setGuard i g).gst i = g := by
  have h0 : i ≠ 0 := Nat.one_le_iff_ne_zero.mp h1
  have hlt : i - 1 < t.guards.length := by omega
  simp [Thread.gst, Thread.setGuard, h0, hlt]
theorem Thread.gst_setGuard_ne {i j : Nat} (h : j ≠ i) : (t.setGuard i g).gst j = t.gst j := by
  obtain rfl | hi := Nat.eq_zero_or_pos i
  · rw [Thread.setGuard_zero]
  obtain rfl | hj := Nat.eq_zero_or_pos j
  · rw [Thread.gst_zero, Thread.gst_zero]
  have hne : i - 1 ≠ j - 1 := by omega
  simp [Thread.gst, Thread.setGuard, hi.ne', hj.ne', List.getElem?_set_ne hne]

end

/-- Settles O30: the two instructions by the state of their guard; the guards are a list of seven, read where they are written. -/
theorem guards : Obligations.Guards := by
  refine ⟨?gset, ?gsetHolds, ?gwait, ?gwaitWaits, ?registers⟩
  case gset => exact fun m q a s hi hg => completes_gset hi hg
  case gsetHolds => exact fun m q a s hi hg => holds_gset hi hg
  case gwait => exact fun m q s hi hg => passes_gwait hi hg
  case gwaitWaits => exact fun m q s hi hg => waits_gwait hi hg
  case registers =>
    exact fun t i j g hlen h1 h7 => ⟨t.gst_setGuard_self g h1 (hlen ▸ h7), t.gst_setGuard_ne g, t.setGuard_zero g, t.gst_zero⟩

end Sys2Proof.Machine
end

section
/-! PROOFS. Flagged stores and fences (13:R170-R172, 27:R313). -/

namespace Sys2Proof.Machine
open Sys2Proof

theorem exec_fst (m : Mark) (d a b : Reg) (z : BitVec 2) (s : State) : exec (.fst m d a b z) s = execFst m d a b z s := rfl
theorem exec_fblk (m : Mark) (d a b : Reg) (s : State) : exec (.fblk m d a b) s = execFblk m d a b s := rfl
theorem exec_fence (m : Mark) (k : BitVec 5) (c : BitVec 3) (s : State) : exec (.fence m k c) s = execFence m k c s := rfl
theorem exec_lbfence (m : Mark) (s : State) : exec (.lbfence m) s = execLbfence m s := rfl

-- The end of a flagged store, which FST and FBLK share

section
variable {s : State} {ps qs : List Piece} (bs : List Byte) (blk : Bool) (hr : s.irrFirst = none)
include hr

theorem State.flagged_waits (hw : s.accessWaits s.th.acc (ps ++ qs) = true) : s.flagged ps qs bs blk = .hold 2 s := by
  simp only [State.flagged, hr, hw, if_true]
theorem State.flagged_made (hw : s.accessWaits s.th.acc (ps ++ qs) = false) (hblk : s.storeBlock s.th.acc (ps ++ qs) = none) :
    ∃ e, s.flagged ps qs bs blk = .ok e := by
  simp only [State.flagged, hr, hw, hblk, Bool.false_eq_true, if_false]
  split <;> exact ⟨_, rfl⟩

/-- An instruction that ends in a flagged store which nothing stops: it holds, or its stores are made. -/
theorem exec_of_flagged {i : Instr} {t : State} (he : exec i t = t.finish i (s.flagged ps qs bs blk)) :
    (s.accessWaits s.th.acc (ps ++ qs) = true → exec i t = .next (s.holding 2)) ∧
    (s.accessWaits s.th.acc (ps ++ qs) = false → s.storeBlock s.th.acc (ps ++ qs) = none →
      ∃ e, s.flagged ps qs bs blk = .ok e ∧ Completes i t e) := by
  refine ⟨fun hw => holds_of_finish he (State.flagged_waits bs blk hr hw), fun hw hblk => ?_⟩
  obtain ⟨e, hf⟩ := State.flagged_made bs blk hr hw hblk
  exact ⟨e, hf, completes_of_finish he hf⟩

end

-- FST

section
variable {m : Mark} {d a b : Reg} {z : BitVec 2} {s : State} (hi : Issues (.fst m d a b z) s)
include hi

theorem traps_fst_datum (ha : (s.th.gr a).toNat % 2 ^ z.toNat ≠ 0) : Traps (.fst m d a b z) s ⟨.align, 0, s.th.gr a⟩ :=
  traps_of (exec_fst ..) hi (if_pos ha)

variable (ha : (s.th.gr a).toNat % 2 ^ z.toNat = 0)
include ha

theorem traps_fst_flag (hb : (s.th.gr b).toNat % 8 ≠ 0) : Traps (.fst m d a b z) s ⟨.align, 0, s.th.gr b⟩ :=
  traps_of (exec_fst ..) hi ((if_neg (not_not_intro ha)).trans (if_pos hb))

variable (hb : (s.th.gr b).toNat % 8 = 0)
include hb

theorem traps_fst_check {x : Trap} (hc : s.flagChecks (s.th.gr a) (2 ^ z.toNat) (s.th.gr b) = .error x) :
    Traps (.fst m d a b z) s x := traps_of (exec_fst ..) hi (by simp [ha, hb, hc])
theorem exec_fst_of_checks {u : State} {ps qs : List Piece}
    (hc : s.flagChecks (s.th.gr a) (2 ^ z.toNat) (s.th.gr b) = .ok (ps, qs, u)) : exec (.fst m d a b z) s =
      s.finish (.fst m d a b z) (u.flagged ps qs (leBytes (2 ^ z.toNat) (s.th.gr d).toNat)) := by
  rw [exec_fst, execFst, State.issue_body hi]
  simp [ha, hb, hc, regBytes]

end

-- FBLK

section
variable {m : Mark} {d a b : Reg} {s : State} (hi : Issues (.fblk m d a b) s)
include hi

theorem traps_fblk_count (hn : 0x100000 < (s.th.gr (b + 1)).toNat) : Traps (.fblk m d a b) s ⟨.illstate, 0, s.th.gr (b + 1)⟩ :=
  traps_of (exec_fblk ..) hi (if_pos hn)

variable (hn : (s.th.gr (b + 1)).toNat ≤ 0x100000)
include hn

theorem traps_fblk_flag (hb : (s.th.gr b).toNat % 8 ≠ 0) : Traps (.fblk m d a b) s ⟨.align, 0, s.th.gr b⟩ :=
  traps_of (exec_fblk ..) hi ((if_neg hn.not_gt).trans (if_pos hb))

variable (hb : (s.th.gr b).toNat % 8 = 0)
include hb

theorem traps_fblk_check {x : Trap}
    (hc : s.flagChecks (s.th.gr d) (s.th.gr (b + 1)).toNat (s.th.gr b) (some (s.th.gr a)) = .error x) :
    Traps (.fblk m d a b) s x := traps_of (exec_fblk ..) hi (by
    simp only [hn.not_gt, hb, hc, ne_eq, not_true_eq_false, if_false])
/-- With its checks passed FBLK is the read of its source, and the flagged store of what it gives. -/
theorem exec_fblk_of_checks {u : State} {ps qs : List Piece}
    (hc : s.flagChecks (s.th.gr d) (s.th.gr (b + 1)).toNat (s.th.gr b) (some (s.th.gr a)) = .ok (ps, qs, u)) :
    exec (.fblk m d a b) s = s.finish (.fblk m d a b)
      ((u.ldHeld s.th.acc .read (s.th.gr a) (s.th.gr (b + 1)).toNat).andThen (fun bs v => v.flagged ps qs bs true)) := by
  rw [exec_fblk, execFblk, State.issue_body hi]
  simp only [hn.not_gt, hb, hc, ne_eq, not_true_eq_false, if_false]

end

/-- Settles O21: both end in `flagged` once their checks have passed, FBLK after the read of its source. -/
theorem flaggedStores : Obligations.FlaggedStores := by
  refine ⟨?fst, ?fstMisaligned, ?fstCheck, ?fblk, ?fblkCount, ?fblkTraps⟩
  case fst => exact fun m d a b z s u ps qs hi ha hb hc hr => exec_of_flagged _ _ hr (exec_fst_of_checks hi ha hb hc)
  case fstMisaligned => exact fun m d a b z s hi => ⟨traps_fst_datum hi, traps_fst_flag hi⟩
  case fstCheck => exact fun m d a b z s x hi ha hb hc => traps_fst_check hi ha hb hc
  case fblk =>
    intro m d a b s s' u ps qs bs hi hn hb hc hread hr
    have hex := exec_fblk_of_checks hi hn hb hc
    rw [Held.andThen_of_ok hread] at hex
    exact exec_of_flagged bs true hr hex
  case fblkCount => exact fun m d a b s hi hn => traps_fblk_count hi hn
  case fblkTraps =>
    refine fun m d a b s hi hn => ⟨traps_fblk_flag hi hn, fun hb x => ⟨traps_fblk_check hi hn hb, fun ps qs s' hc hread => ?_⟩⟩
    exact traps_of_finish (exec_fblk_of_checks hi hn hb hc) (by rw [hread]; rfl)

-- FENCE and LBFENCE

/-- What a fence of the thread orders is there: for an acquire its loads and atomics, for the other kinds its stores also. -/
def State.fenced (s : State) (k : BitVec 5) : Bool :=
  if k = 1 then s.th.loadsDone && !s.pl.posted.any (fun p => p.tid == s.th.tid && p.atom) else s.mayRelease s.th

section
variable {m : Mark} {k : BitVec 5} {c : BitVec 3} {s : State}

theorem exec_fence_issued (hi : Issues (.fence m k c) s) :
    exec (.fence m k c) s = s.finish (.fence m k c) (if s.fenced k = true then .ok s else .hold 2 s) := by
  rw [exec_fence, execFence, State.issue_body hi]
  unfold State.fenced
  by_cases hk : k = 1
  · rw [if_pos hk, if_pos hk]
  · rw [if_neg hk, if_neg hk]
theorem completes_fence (hi : Issues (.fence m k c) s) (h : s.fenced k = true) : Completes (.fence m k c) s s :=
  completes_of_finish (exec_fence_issued hi) (if_pos h)
theorem holds_fence (hi : Issues (.fence m k c) s) (h : s.fenced k = false) : exec (.fence m k c) s = .next (s.holding 2) :=
  holds_of_finish (exec_fence_issued hi) (if_neg (Bool.eq_false_iff.mp h))
theorem completes_lbfence (hi : Issues (.lbfence m) s) (h : s.localReads s.th = false) : Completes (.lbfence m) s s :=
  completes_of (exec_lbfence ..) hi (if_neg (Bool.eq_false_iff.mp h))
theorem holds_lbfence (hi : Issues (.lbfence m) s) (h : s.localReads s.th = true) : exec (.lbfence m) s = .next (s.holding 2) :=
  holds_of (exec_lbfence ..) hi (if_pos h)

end

/-- Settles O22: each fence is one test. -/
theorem fences : Obligations.Fences := by
  refine ⟨?fence, ?fenceHolds, ?lbfence, ?lbfenceHolds⟩
  case fence => exact fun m k c s hi hb h => completes_fence hi h hb
  case fenceHolds => exact fun m k c s hi h => holds_fence hi h
  case lbfence => exact fun m s hi hb h => completes_lbfence hi h hb
  case lbfenceHolds => exact fun m s hi h => holds_lbfence hi h

end Sys2Proof.Machine
end

section
/-! PROOFS. Jobs and their handles (13:R188-R191, R195, 19:R256). -/

namespace Sys2Proof.Machine
open Sys2Proof

theorem exec_job (m : Mark) (q : BitVec 3) (a b : Reg) (s : State) : exec (.job m q a b) s = execJob m q a b s := rfl
theorem exec_coll (m : Mark) (q : BitVec 3) (a b : Reg) (s : State) : exec (.coll m q a b) s = execColl m q a b s := rfl
theorem exec_jobw (m : Mark) (a : Reg) (s : State) : exec (.jobw m a) s = execJobw m a s := rfl
theorem exec_jobq (m : Mark) (a b : Reg) (s : State) : exec (.jobq m a b) s = execJobq m a b s := rfl
theorem exec_jobx (m : Mark) (a : Reg) (s : State) : exec (.jobx m a) s = execJobx m a s := rfl

-- Submission

/-- JOB or COLL of the thread of `s` with its class and its engine. -/
def Submission (i : Instr) (s : State) (eng cls : Nat) (q : BitVec 3) (a b : Reg) : Prop :=
  (∃ m, i = .job m q a b ∧ cls = 0 ∧ eng = copyEngine s.th.tile) ∨ (∃ m, i = .coll m q a b ∧ cls = 2 ∧ eng = 192 + dieOf s.th.tile)
/-- The entry that the thread hands to an engine, in its group's interval `rin`. -/
def Thread.jobEntry (t : Thread) (cls q : Nat) (card : Word) (rin : Nat) : JobEntry :=
  { cls := cls, jid := 0, card := card, tid := t.tid, tile := t.tile, who := t.who, dom := t.dom, priv := t.priv,
    guard := t.noted (t.condTag q), win := none, graph := 0, reads := [], writes := [], preds := [], acts := [], orphan := false,
    early := false, stage := 0, todo := [], esz := 1, st := 0, code := 0, fx := 0, faddr := 0, rin := rin }
/-- A copy engine has taken a tile's submission: the tile is the last in its turn (01:R13). -/
def State.turnTaken (s : State) (eng tile : Nat) : State := if eng < 192 then s.setEngine eng { s.engine eng with last := tile } else s

theorem Submission.exec_eq {i : Instr} {s : State} {eng cls : Nat} {q : BitVec 3} {a b : Reg} (h : Submission i s eng cls q a b)
    (hi : Issues i s) : exec i s = s.finish i (s.submitJob eng cls q.toNat a b) := by
  obtain ⟨m, rfl, rfl, rfl⟩ | ⟨m, rfl, rfl, rfl⟩ := h
  · exact (exec_job ..).trans (State.issue_body hi)
  · exact (exec_coll ..).trans (State.issue_body hi)

section
variable {s : State} {eng cls q : Nat} {a b : Reg}

theorem State.submitJob_misaligned (hb : (s.th.gr b).toNat % 256 ≠ 0) :
    s.submitJob eng cls q a b = .trap ⟨.align, 0, s.th.gr b⟩ := if_pos hb

variable (hb : (s.th.gr b).toNat % 256 = 0)
include hb

theorem State.submitJob_fault {x : Trap} (hp : s.pieces s.th.acc .read (s.th.gr b) 256 = .error x) :
    s.submitJob eng cls q a b = .trap x := by simp only [State.submitJob, hb, hp, ne_eq, not_true_eq_false, if_false]

variable {ps : List Piece} {u : State} (hp : s.pieces s.th.acc .read (s.th.gr b) 256 = .ok (ps, u))
include hp

theorem State.submitJob_unreleased (hm : u.mayRelease s.th = false) : s.submitJob eng cls q a b = .hold 2 u := by
  simp only [State.submitJob, hb, hp, hm, ne_eq, not_true_eq_false, if_false, Bool.not_false, if_true]

variable (hm : u.mayRelease s.th = true)
include hm

theorem State.submitJob_full (h : u.engineFull eng = true ∨ u.outranked eng s.th.tile = true) :
    s.submitJob eng cls q a b = .hold 1 u := by
  have hor : (u.engineFull eng || u.outranked eng s.th.tile) = true := by simpa using h
  simp only [State.submitJob, hb, hp, hm, hor, ne_eq, not_true_eq_false, if_false, Bool.not_true, Bool.false_eq_true, if_true]
theorem State.submitJob_accepted (hf : u.engineFull eng = false) (ho : u.outranked eng s.th.tile = false) :
    let v := u.turnTaken eng s.th.tile
    let e := v.accept eng (s.th.jobEntry cls q (s.th.gr b) (v.rinOf s.th.dom))
    s.submitJob eng cls q a b = .ok { e.2 with th := (e.2.th.gw a (handleOf eng e.1)).countEv 12 1 } := by
  simp only [State.submitJob, hb, hp, hm, hf, ho, ne_eq, not_true_eq_false, if_false, Bool.not_true, Bool.false_eq_true, Bool.or_self]
  rfl

end

-- JOBW

section
variable {m : Mark} {a : Reg} {s : State} (hi : Issues (.jobw m a) s)
include hi

theorem traps_jobw (h : handleEngine (s.th.gr a) = none) : Traps (.jobw m a) s ⟨.illstate, 0, s.th.pc⟩ :=
  traps_of (exec_jobw ..) hi (if_pos (by simp [h]))

variable (h : handleEngine (s.th.gr a) ≠ none)
include h

theorem passes_jobw_unknown (hj : s.job? (s.th.gr a) s.th.who = none) : Passes (.jobw m a) s s :=
  passes_of (exec_jobw ..) hi (by simp [h, hj])

variable {e : Nat} {j : JobEntry} (hj : s.job? (s.th.gr a) s.th.who = some (e, j))
include hj

theorem waits_jobw (hst : j.stage ≠ 2) : exec (.jobw m a) s = .next (s.waits .waiting) :=
  waits_of (exec_jobw ..) hi (by simp [h, hj, hst])
/-- JOBW of a failed job takes the engine trap with the job retired (R191). -/
theorem exec_jobw_failed (hst : j.stage = 2) (hs : j.st = 4) : exec (.jobw m a) s =
    .next ((s.dropJob e j.jid).clock.raise ⟨.engine, j.code, j.card⟩ s.th.faultPc) := by
  rw [exec_jobw, execJobw, State.issue_body hi]
  simp [h, hj, hst, hs]
theorem passes_jobw (hst : j.stage = 2) (hs : j.st ≠ 4) : Passes (.jobw m a) s ((s.dropJob e j.jid).setfx j.fx) :=
  passes_of (exec_jobw ..) hi (by simp [h, hj, hst, hs])

end

-- JOBQ

section
variable {m : Mark} {a b : Reg} {s : State} (hi : Issues (.jobq m a b) s)
include hi

theorem traps_jobq (h : handleEngine (s.th.gr b) = none ∨ s.th.countsBy a = true) :
    Traps (.jobq m a b) s ⟨.illstate, 0, s.th.pc⟩ := traps_of (exec_jobq ..) hi (if_pos (by simpa using h))
theorem completes_jobq (h : handleEngine (s.th.gr b) ≠ none) (hc : s.th.countsBy a = false) :
    Completes (.jobq m a b) s (s.await ⟨a, [], .jobState (s.th.gr b), none, 0⟩) :=
  completes_of (exec_jobq ..) hi (if_neg (by simp [h, hc]))

end

-- JOBX

section
variable {m : Mark} {a : Reg} {s : State} (hi : Issues (.jobx m a) s)
include hi

theorem traps_jobx (h : handleEngine (s.th.gr a) = none) : Traps (.jobx m a) s ⟨.illstate, 0, s.th.pc⟩ :=
  traps_of (exec_jobx ..) hi (if_pos (by simp [h]))

variable (h : handleEngine (s.th.gr a) ≠ none)
include h

theorem completes_jobx_unknown (hj : s.job? (s.th.gr a) s.th.who = none) : Completes (.jobx m a) s s :=
  completes_of (exec_jobx ..) hi (by simp [h, hj])

variable {e : Nat} {j : JobEntry} (hj : s.job? (s.th.gr a) s.th.who = some (e, j))
include hj

theorem completes_jobx_ended (hst : j.stage = 2) : Completes (.jobx m a) s (s.dropJob e j.jid) :=
  completes_of (exec_jobx ..) hi (by simp [h, hj, hst])

variable (hst : j.stage ≠ 2)
include hst

theorem holds_jobx_posted (hp : s.jobPosted (jobTid e j.jid) = true) : exec (.jobx m a) s = .next (s.holding 2) :=
  holds_of (exec_jobx ..) hi (by simp [h, hj, hst, hp])

variable (hp : s.jobPosted (jobTid e j.jid) = false) {r : State × Option Trap × List Byte}
  (hr : s.writeStatus j.acc (jobTid e j.jid) j.card 6 0 0 j.jid 0 = r)
include hp hr

theorem holds_jobx_larder (hft : r.2.1 = none) (hleft : r.2.2 ≠ []) : exec (.jobx m a) s = .next (s.holding 3) := by
  obtain ⟨u, ft, left⟩ := r
  obtain rfl : ft = none := hft
  obtain ⟨y, ys, rfl⟩ := List.exists_cons_of_ne_nil hleft
  exact holds_of (exec_jobx ..) hi (by
    simp only [Option.isNone_iff_eq_none, h, hj, hst, hp, hr, Bool.false_eq_true, if_false])
theorem completes_jobx_cancels (hw : r.2.1 ≠ none ∨ r.2.2 = []) :
    Completes (.jobx m a) s (((r.1.dropJob e j.jid).completeKey (e, j.jid)).count (128 + e) j.dom 0 1) :=
  completes_of (exec_jobx ..) hi (by
    simp only [Option.isNone_iff_eq_none, h, hj, hst, hp, hr, Bool.false_eq_true, if_false]
    split
    next => simp at hw
    next => rfl)

end

/-- Settles O40: a submission by its checks, in their order; the others by the job that their handle names. -/
theorem jobs : Obligations.Jobs := by
  refine ⟨fun i s eng cls q a b hi hform => ?submit, fun m a b s => ?handles, fun m a s h hj => ?unknown,
    fun m a s e j h hj => ?job⟩
  case submit =>
    have hex := Submission.exec_eq hform hi
    refine ⟨fun hb => traps_of_finish hex (State.submitJob_misaligned hb), fun hb =>
      ⟨fun x hp => traps_of_finish hex (State.submitJob_fault hb hp), fun ps u hp => ⟨fun hm => ?_, fun hm h => ?_, fun hm hf ho => ?_⟩⟩⟩
    · exact holds_of_finish hex (State.submitJob_unreleased hb hp hm)
    · exact holds_of_finish hex (State.submitJob_full hb hp hm h)
    · exact completes_of_finish hex (State.submitJob_accepted hb hp hm hf ho)
  case handles =>
    exact ⟨fun h => ⟨fun hi => traps_jobw hi h, fun hi => traps_jobx hi h⟩, fun h hi => traps_jobq hi h,
      fun h hc hi => completes_jobq hi h hc⟩
  case unknown => exact ⟨fun hi => passes_jobw_unknown hi h hj, fun hi => completes_jobx_unknown hi h hj⟩
  case job =>
    exact ⟨fun hi => ⟨waits_jobw hi h hj, exec_jobw_failed hi h hj, passes_jobw hi h hj⟩,
      fun hi => ⟨completes_jobx_ended hi h hj, holds_jobx_posted hi h hj, fun hst hp =>
        ⟨holds_jobx_larder hi h hj hst hp rfl, completes_jobx_cancels hi h hj hst hp rfl⟩⟩⟩

end Sys2Proof.Machine
end

section
/-! PROOFS. Region windows: WBIND, WDROP and WSTAT (13:R192-R194). -/

namespace Sys2Proof.Machine
open Sys2Proof

theorem exec_wbind (m : Mark) (a b : Reg) (s : State) : exec (.wbind m a b) s = execWbind m a b s := rfl
theorem exec_wdrop (m : Mark) (a : Reg) (s : State) : exec (.wdrop m a) s = execWdrop m a s := rfl
theorem exec_wstat (m : Mark) (a b : Reg) (s : State) : exec (.wstat m a b) s = execWstat m a b s := rfl

-- WBIND

/-- What WBIND of the thread `t` does for window `w` as its card `c` and the layout `l` describe it. -/
def State.bindWindow (s : State) (t : Thread) (w : Nat) (card : Word) (c l : List Byte) : Done :=
  let x := windowOf card l (bits (cardWord c 200) 28 16) (bits (cardWord c 200) 13 0) t.fn t.priv
  match layoutBreaches l, s.windowBank t.tile t.dom x with
  | _, some o => .trap ⟨.domain, 0, BitVec.ofNat 64 o⟩
  | o :: _, none => .trap ⟨.illstate, 0, if 32 ≤ w then t.pc else BitVec.ofNat 64 (cardWord c 192) + BitVec.ofNat 64 o⟩
  | [], none =>
    if 32 ≤ w || (s.tile t.tile).windowBad w x then .trap ⟨.illstate, 0, if 32 ≤ w then t.pc else card + 200⟩
    else if ((s.tile t.tile).win? w).any (·.state == 1) then .trap ⟨.illstate, 0, t.pc⟩
    else if bitOf (cardWord c 208) 0 then
      (if !s.mayRelease t || s.engineFull (copyEngine t.tile) then .hold 2 s else .ok (s.startFill t.tile w x t false))
    else .ok (s.setTile t.tile ((s.tile t.tile).setWin w x))

section
variable {m : Mark} {a b : Reg} {s : State} (hi : Issues (.wbind m a b) s)
include hi

theorem traps_wbind_misaligned (hb : (s.th.gr b).toNat % 256 ≠ 0) : Traps (.wbind m a b) s ⟨.align, 0, s.th.gr b⟩ :=
  traps_of (exec_wbind ..) hi (if_pos hb)

variable (hb : (s.th.gr b).toNat % 256 = 0) {c : List Byte} {s1 : State} (hc : s.ldHeld s.th.acc .read (s.th.gr b) 256 = .ok c s1)
include hb hc

theorem traps_wbind_card {o : Nat} {r : List Nat} (h : cardBreaches 2 c ++ windowBreaches c = o :: r) : Traps (.wbind m a b) s
    ⟨.illstate, 0, if 32 ≤ (s.th.gr a).toNat then s.th.pc else s.th.gr b + BitVec.ofNat 64 o⟩ :=
  traps_of (exec_wbind ..) hi ((if_neg (not_not_intro hb)).trans ((Held.andThen_of_ok hc).trans (by simp only [h])))
/-- WBIND with a card that keeps to its map, once its layout is read. -/
theorem exec_wbind_of_reads {l : List Byte} {s2 : State} (hcard : cardBreaches 2 c = []) (hbody : windowBreaches c = [])
    (hl : s1.ldHeld s.th.acc .read (BitVec.ofNat 64 (cardWord c 192)) 128 = .ok l s2) : exec (.wbind m a b) s =
      s.finish (.wbind m a b) (s2.bindWindow s.th (s.th.gr a).toNat (s.th.gr b) c l) := by
  refine ((exec_wbind ..).trans (State.issue_body hi)).trans (congrArg _ ?_)
  refine (if_neg (not_not_intro hb)).trans ((Held.andThen_of_ok hc).trans ?_)
  simp only [hcard, hbody, List.append_nil]
  exact (Held.andThen_of_ok hl).trans rfl

end

section
variable {s : State} {t : Thread} {w : Nat} {card : Word} {c l : List Byte} {x : Win}
  (hx : windowOf card l (bits (cardWord c 200) 28 16) (bits (cardWord c 200) 13 0) t.fn t.priv = x)
include hx

theorem State.bindWindow_foreign {o : Nat} (h : s.windowBank t.tile t.dom x = some o) :
    s.bindWindow t w card c l = .trap ⟨.domain, 0, BitVec.ofNat 64 o⟩ := by simp only [State.bindWindow, hx, h]

variable (hbank : s.windowBank t.tile t.dom x = none)
include hbank

theorem State.bindWindow_layout {o : Nat} {r : List Nat} (h : layoutBreaches l = o :: r) : s.bindWindow t w card c l =
    .trap ⟨.illstate, 0, if 32 ≤ w then t.pc else BitVec.ofNat 64 (cardWord c 192) + BitVec.ofNat 64 o⟩ := by
  simp only [State.bindWindow, hx, hbank, h]

variable (hl : layoutBreaches l = [])
include hl

theorem State.bindWindow_number (hw : 32 ≤ w) : s.bindWindow t w card c l = .trap ⟨.illstate, 0, t.pc⟩ := by
  simp only [State.bindWindow, hx, hbank, hl, hw, decide_true, Bool.true_or, if_true]

variable (hw : w < 32)
include hw

theorem State.bindWindow_misfit (hbad : (s.tile t.tile).windowBad w x = true) :
    s.bindWindow t w card c l = .trap ⟨.illstate, 0, card + 200⟩ := by
  simp only [State.bindWindow, hx, hbank, hl, hw.not_ge, hbad, Bool.or_true, if_true, if_false]

variable (hfit : (s.tile t.tile).windowBad w x = false)
include hfit

theorem State.bindWindow_filling (h : ((s.tile t.tile).win? w).any (·.state == 1) = true) :
    s.bindWindow t w card c l = .trap ⟨.illstate, 0, t.pc⟩ := by
  simp only [State.bindWindow, hx, hbank, hl, hw.not_ge, hfit, h, decide_false, Bool.or_self, Bool.false_eq_true, if_false, if_true]

variable (hstill : ((s.tile t.tile).win? w).any (·.state == 1) = false)
include hstill

/-- A window that may be bound is bound absent, or with PREFETCH fills. -/
theorem State.bindWindow_binds : s.bindWindow t w card c l =
    if bitOf (cardWord c 208) 0 = true then
      (if s.mayRelease t = false ∨ s.engineFull (copyEngine t.tile) = true then .hold 2 s else .ok (s.startFill t.tile w x t false))
    else .ok (s.setTile t.tile ((s.tile t.tile).setWin w x)) := by
  simp only [State.bindWindow, hx, hbank, hl, hw.not_ge, hfit, hstill, decide_false, Bool.or_self, Bool.false_eq_true, if_false,
    Bool.or_eq_true, Bool.not_eq_true']

end

-- WDROP and WSTAT

section
variable {m : Mark} {a b : Reg} {s : State}

section
variable (hi : Issues (.wdrop m a) s)
include hi

theorem traps_wdrop (hw : 32 ≤ (s.th.gr a).toNat) : Traps (.wdrop m a) s ⟨.illstate, 0, s.th.pc⟩ :=
  traps_of (exec_wdrop ..) hi (if_pos hw)

variable (hw : (s.th.gr a).toNat < 32)
include hw

theorem completes_wdrop_unbound (h : (s.tile s.th.tile).win? (s.th.gr a).toNat = none) : Completes (.wdrop m a) s s :=
  completes_of (exec_wdrop ..) hi (by simp only [hw.not_ge, h, if_false])

variable {x : Win} (h : (s.tile s.th.tile).win? (s.th.gr a).toNat = some x)
include h

theorem completes_wdrop (hst : x.state ≠ 1) : Completes (.wdrop m a) s (s.dropWindow s.th.tile (s.th.gr a).toNat) :=
  completes_of (exec_wdrop ..) hi (by simp only [hw.not_ge, h, hst, if_false])
theorem holds_wdrop_filling (hst : x.state = 1) : exec (.wdrop m a) s = .next (State.holding
    (s.setTile s.th.tile ((s.tile s.th.tile).setWin (s.th.gr a).toNat { x with drop := true })) 2) :=
  holds_of (exec_wdrop ..) hi (by simp only [hw.not_ge, h, hst, if_false, if_true])

end

theorem completes_wstat (hi : Issues (.wstat m a b) s) (hc : s.th.countsBy a = false) :
    Completes (.wstat m a b) s (s.await ⟨a, [], .winState (bits (s.th.gr b).toNat 4 0), none, 0⟩) :=
  completes_of (exec_wstat ..) hi (if_neg (Bool.eq_false_iff.mp hc))
theorem traps_wstat (hi : Issues (.wstat m a b) s) (hc : s.th.countsBy a = true) :
    Traps (.wstat m a b) s ⟨.illstate, 0, s.th.pc⟩ := traps_of (exec_wstat ..) hi (if_pos hc)

end

/-- Settles O41: WBIND by its reads and then `bindWindow`, whose outcome is the first that applies; WDROP by the window's state. -/
theorem windows : Obligations.Windows := by
  refine ⟨?wbind, ?wbindCard, ?wdrop, ?wstat⟩
  case wbind =>
    intro m a b s s1 s2 c l hi hb hc hcard hbody hl hth x w
    have hex : exec (.wbind m a b) s = s.finish (.wbind m a b) (s2.bindWindow s.th w (s.th.gr b) c l) :=
      exec_wbind_of_reads hi hb hc hcard hbody hl
    refine ⟨fun o hbank => ?foreign, fun o r hbank hl' => ?layout, fun hbank hl' hw => ?number, fun hbank hl' hw hbad => ?misfit,
      fun hbank hl' hw hfit h => ?filling, fun hbank hl' hw hfit hstill => ?binds⟩
    case foreign => exact traps_of_finish hex (State.bindWindow_foreign rfl hbank)
    case layout => exact traps_of_finish hex (State.bindWindow_layout rfl hbank hl')
    case number => exact traps_of_finish hex (State.bindWindow_number rfl hbank hl' hw)
    case misfit => exact traps_of_finish hex (State.bindWindow_misfit rfl hbank hl' hw hbad)
    case filling => exact traps_of_finish hex (State.bindWindow_filling rfl hbank hl' hw hfit h)
    case binds =>
      have hbinds := State.bindWindow_binds rfl hbank hl' hw hfit hstill
      refine ⟨fun hp => completes_of_finish hex ?_, fun hp hm he => completes_of_finish hex ?_,
        fun hp h => holds_of_finish hex ?_⟩
      · exact hbinds.trans (if_neg (Bool.eq_false_iff.mp hp))
      · exact hbinds.trans ((if_pos hp).trans (if_neg (by simp [hm, he])))
      · exact hbinds.trans ((if_pos hp).trans (if_pos h))
  case wbindCard => exact fun m a b s hi => ⟨traps_wbind_misaligned hi, fun c s1 o r hb hc h => traps_wbind_card hi hb hc h⟩
  case wdrop =>
    exact fun m a s hi => ⟨traps_wdrop hi, completes_wdrop_unbound hi,
      fun x hw h => ⟨completes_wdrop hi hw h, holds_wdrop_filling hi hw h⟩⟩
  case wstat => exact fun m a b s hi => ⟨completes_wstat hi, traps_wstat hi⟩

end Sys2Proof.Machine
end

section
/-! PROOFS. Task nodes: TASK and TDONE (13:R196-R198, 19:R256). -/

namespace Sys2Proof.Machine
open Sys2Proof

theorem exec_task (m : Mark) (a b : Reg) (s : State) : exec (.task m a b) s = execTask m a b s := rfl
theorem exec_tdone (m : Mark) (s : State) : exec (.tdone m) s = execTdone m s := rfl

-- TASK

/-- The least identifier that no node of a die has (13:R197, log 25). -/
def State.freeNode (s : State) (die : Nat) : Option Nat :=
  let live := (s.eng.tasks.filter (fun n => n.die == die)).map (·.id)
  (List.range (live.length + 1)).find? (fun i => i < 65536 && !live.contains i)
/-- What TASK of the thread `t` does with a checked card `c` and its kernel `k`. -/
def State.admitTask (s : State) (t : Thread) (a : Reg) (card : Word) (c : List Byte) (k : Kern) : Done :=
  if !s.mayRelease t then .hold 2 s
  else match s.freeNode (dieOf t.tile) with
    | none => .hold 2 s
    | some id =>
      let u := State.feedPantry { s with eng := { s.eng with tasks := s.eng.tasks ++ [s.nodeFor t id card c k] } }
      .ok { u with th := (u.th.gw a (BitVec.ofNat 64 id)).countEv 12 1 }

section
variable {s : State} {t : Thread} {a : Reg} {card : Word} {c : List Byte} {k : Kern}

theorem State.admitTask_waits (h : s.mayRelease t = false ∨ s.freeNode (dieOf t.tile) = none) :
    s.admitTask t a card c k = .hold 2 s := by
  unfold State.admitTask
  split
  · rfl
  next hm => rw [h.resolve_left (by simpa using hm)]
theorem State.admitTask_admits {id : Nat} (hm : s.mayRelease t = true) (hid : s.freeNode (dieOf t.tile) = some id) :
    let u := State.feedPantry { s with eng := { s.eng with tasks := s.eng.tasks ++ [s.nodeFor t id card c k] } }
    s.admitTask t a card c k = .ok { u with th := (u.th.gw a (BitVec.ofNat 64 id)).countEv 12 1 } := by
  simp only [State.admitTask, hm, hid, Bool.not_true, Bool.false_eq_true, if_false]

end

section
variable {m : Mark} {a b : Reg} {s : State} (hi : Issues (.task m a b) s)
include hi

theorem traps_task_misaligned (hb : (s.th.gr b).toNat % 256 ≠ 0) : Traps (.task m a b) s ⟨.align, 0, s.th.gr b⟩ :=
  traps_of (exec_task ..) hi (if_pos hb)
/-- TASK with a card and a kernel header that keep to their maps. -/
theorem exec_task_of_reads {c h : List Byte} {s1 s2 : State} (hb : (s.th.gr b).toNat % 256 = 0)
    (hc : s.ldHeld s.th.acc .read (s.th.gr b) 256 = .ok c s1) (hcard : cardBreaches 4 c = []) (hbody : taskBreaches c = [])
    (hh : s1.ldHeld s.th.acc .read (BitVec.ofNat 64 (cardWord c 192)) 64 = .ok h s2) (herr : headerErrors h = [])
    (hpriv : privRank (kernOf (BitVec.ofNat 64 (cardWord c 192)) h).priv ≤ privRank s.th.priv) : exec (.task m a b) s =
      s.finish (.task m a b) (s2.admitTask s.th a (s.th.gr b) c (kernOf (BitVec.ofNat 64 (cardWord c 192)) h)) := by
  refine ((exec_task ..).trans (State.issue_body hi)).trans (congrArg _ ?_)
  refine (if_neg (not_not_intro hb)).trans ((Held.andThen_of_ok hc).trans ?_)
  simp only [hcard, hbody, List.append_nil]
  refine (Held.andThen_of_ok hh).trans ?_
  simp only [herr, hpriv.not_gt, if_false]
  rfl

end

-- TDONE

section
variable {s : State} {n : TaskNode}

theorem State.nodeDone_posted (hp : s.jobPosted (nodeTid n.die n.id) = true) : s.nodeDone n = .hold 2 s := if_pos hp

variable (hp : s.jobPosted (nodeTid n.die n.id) = false)
include hp

theorem State.nodeDone_over (hst : n.stage = 2) : s.nodeDone n = .ok (s.nodeOver n) :=
  (if_neg (Bool.eq_false_iff.mp hp)).trans (if_pos hst)
/-- A node whose actions are made and performed goes on to its status. -/
theorem State.nodeDone_acts {u : State} {c : Nat} (hst : n.stage ≠ 2) (hf : n.fail = none)
    (hacts : s.runActs (n.acc s.th) (nodeTid n.die n.id) n.acts n.code = (u, [], c, none))
    (hu : u.jobPosted (nodeTid n.die n.id) = false) : s.nodeDone n = u.nodeStatus n 3 c 0 := by
  simp only [State.nodeDone, hp, hst, hf, hacts, hu, Bool.false_eq_true, if_false]

omit hp
theorem State.nodeStatus_written {v : State} {c : Nat}
    (hw : s.writeStatus (n.acc s.th) (nodeTid n.die n.id) n.card 3 c 0 n.id 0 = (v, none, [])) : s.nodeStatus n 3 c 0 =
      if v.jobPosted (nodeTid n.die n.id) = true then .hold 2 (v.setNode { n with acts := [], code := c, stage := 2 })
      else .ok (v.nodeOver n) := by simp only [State.nodeStatus, hw]

end

section
variable {m : Mark} {s : State} (hi : Issues (.tdone m) s)
include hi

theorem traps_tdone (h : s.nodeOfThread s.th = none ∨ s.th.flow.tdone = true) : Traps (.tdone m) s ⟨.illstate, 0, s.th.pc⟩ :=
  traps_of (exec_tdone ..) hi (by
    dsimp only
    split
    next => rfl
    next n hn => rw [h.resolve_left (by simp [hn])]; exact if_pos (by simp))

variable {n : TaskNode} (hn : s.nodeOfThread s.th = some n) (hk : s.th.info.kind = 2) (htd : s.th.flow.tdone = false)
include hn hk htd

theorem holds_tdone_unreleased (hst : n.stage = 0) (hm : s.mayRelease s.th = false) :
    exec (.tdone m) s = .next (s.holding 2) := holds_of (exec_tdone ..) hi (by simp [hn, hk, htd, hst, hm])
theorem exec_tdone_of_released (h : n.stage ≠ 0 ∨ s.mayRelease s.th = true) :
    exec (.tdone m) s = s.finish (.tdone m) (s.nodeDone n) := by
  have hgo : (decide (n.stage = 0) && !s.mayRelease s.th) = false := by
    simpa using fun h0 => h.resolve_left (not_not_intro h0)
  rw [exec_tdone, execTdone, State.issue_body hi]
  simp [hn, hk, htd, hgo]

end

/-- Settles O42: TASK by its two reads, TDONE by the steps of its node. -/
theorem tasks : Obligations.Tasks := by
  refine ⟨?task, ?taskMisaligned, ?tdone, ?tdoneTraps⟩
  case task =>
    intro m a b s s1 s2 c h hi hb hc hcard hbody kh hh herr hpriv live free
    have hex := exec_task_of_reads hi hb hc hcard hbody hh herr hpriv
    exact ⟨fun hw => holds_of_finish hex (State.admitTask_waits hw),
      fun id hm hid => completes_of_finish hex (State.admitTask_admits hm hid)⟩
  case taskMisaligned => exact fun m a b s hi hb => traps_task_misaligned hi hb
  case tdone =>
    intro m s n hi hn hk htd job done
    refine ⟨holds_tdone_unreleased hi hn hk htd, fun h hp => ?posted, fun h hp => ?performed⟩
    case posted => exact holds_of_finish (exec_tdone_of_released hi hn hk htd h) (State.nodeDone_posted hp)
    case performed =>
      have hex := exec_tdone_of_released hi hn hk htd h
      refine ⟨fun hst => completes_of_finish hex (State.nodeDone_over hp hst), fun u v c hst hf hacts hu hw => ?_⟩
      have hend := (State.nodeDone_acts hp hst hf hacts hu).trans (State.nodeStatus_written hw)
      exact ⟨fun hv => completes_of_finish hex (hend.trans (if_neg (Bool.eq_false_iff.mp hv))),
        fun hv => holds_of_finish hex (hend.trans (if_pos hv))⟩
  case tdoneTraps => exact fun m s hi h => traps_tdone hi h

end Sys2Proof.Machine
end

section
/-! PROOFS. SEAL and SEALW (13:R200-R202, 19:R253). -/

namespace Sys2Proof.Machine
open Sys2Proof

theorem exec_seal (m : Mark) (s : State) : exec (.seal m) s = execSeal m s := rfl
theorem exec_sealw (m : Mark) (a : Reg) (s : State) : exec (.sealw m a) s = execSealw m a s := rfl

section
variable {m : Mark} {s : State} (hi : Issues (.seal m) s)
include hi

theorem traps_seal (h : s.nodeOf s.th.dom = none ∨ (s.memberOf s.th.tid).isSome = true) :
    Traps (.seal m) s ⟨.illstate, 0, s.th.pc⟩ := traps_of (exec_seal ..) hi (by
  dsimp only
  split
  next => rfl
  next n hn => exact if_pos (h.resolve_left (by simp [hn])))

variable {n : Nat} (hn : s.nodeOf s.th.dom = some n) (hmem : s.memberOf s.th.tid = none)
include hn hmem

theorem holds_seal (hr : s.leaveReady s.th = false) : exec (.seal m) s = .next (s.holding 2) :=
  holds_of (exec_seal ..) hi (by simp [hn, hmem, hr])

variable (hr : s.leaveReady s.th = true)
include hr

theorem waits_seal_inCall (hc : s.th.caller.isSome = true) : exec (.seal m) s = .next ((s.beginSeal n).waits .waiting) :=
  waits_of (exec_seal ..) hi (by simp [hn, hmem, hr, hc])

variable (hc : s.th.caller = none) {r : State × Bool}
  (hcp : (s.beginSeal n).checkpoint (s.th.loopStep.countEv 2 1) s.th.loopStep.pc = r)
include hc hcp

theorem waits_seal (h : r.2 = true) : exec (.seal m) s =
    .next (State.waits { r.1 with th := { r.1.th with flow := { r.1.th.flow with sealed := true } } } .sealing) :=
  waits_of (exec_seal ..) hi (by simp [hn, hmem, hr, hc, hcp, h])
/-- A thread whose checkpoint could not be written has ended (21:R267). -/
theorem exec_seal_ended (h : r.2 = false) : exec (.seal m) s = .next r.1 := by
  rw [exec_seal, execSeal, State.issue_body hi]
  simp [hn, hmem, hr, hc, hcp, h]

end

section
variable {m : Mark} {a : Reg} {s : State} (hi : Issues (.sealw m a) s)
include hi

theorem completes_sealw (h : sealedPast (s.rinOf s.th.dom) (bits (s.th.gr a).toNat 31 0) = true) : Completes (.sealw m a) s s :=
  completes_of (exec_sealw ..) hi (if_pos h)
theorem holds_sealw (h : sealedPast (s.rinOf s.th.dom) (bits (s.th.gr a).toNat 31 0) = false) :
    exec (.sealw m a) s = .next (s.holding 1) := holds_of (exec_sealw ..) hi (if_neg (Bool.eq_false_iff.mp h))

end

/-- Settles O44: SEAL by the order of its checks, the last of them whether its checkpoint was written. -/
theorem seals : Obligations.Seals := by
  refine ⟨?atSeal, ?sealTraps, ?sealHolds, ?sealw⟩
  case atSeal =>
    exact fun m s n hi hn hmem hr => ⟨waits_seal_inCall hi hn hmem hr,
      fun hc => ⟨waits_seal hi hn hmem hr hc rfl, exec_seal_ended hi hn hmem hr hc rfl⟩⟩
  case sealTraps => exact fun m s hi h => traps_seal hi h
  case sealHolds => exact fun m s n hi hn hmem hr => holds_seal hi hn hmem hr
  case sealw => exact fun m a s hi => ⟨completes_sealw hi, holds_sealw hi⟩

end Sys2Proof.Machine
end

section
/-! PROOFS. What caches and store tagging leave unchanged (17:R237-R241, 21:R265, R273). -/

namespace Sys2Proof.Machine
open Sys2Proof

/-- `t` is `s` but for copies in caches, counts, charges and the agenda: what the caches do besides memory. -/
def State.CacheWork (s t : State) : Prop :=
  ∃ tiles l2 under counts used inbox, t = { s with
    tiles := tiles, inbox := inbox, ms := { s.ms with l2 := l2, under := under }, eng := { s.eng with counts := counts }
    st := { s.st with used := used } }

theorem State.CacheWork.refl (s : State) : s.CacheWork s := ⟨_, _, _, _, _, _, rfl⟩
theorem State.CacheWork.trans {s t u : State} : s.CacheWork t → t.CacheWork u → s.CacheWork u := by
  rintro ⟨_, _, _, _, _, _, rfl⟩ ⟨_, _, _, _, _, _, rfl⟩
  exact ⟨_, _, _, _, _, _, rfl⟩
theorem State.CacheWork.foldl {α : Type} {s t : State} (h : s.CacheWork t) {f : State → α → State}
    (hf : ∀ (u : State) x, u.CacheWork (f u x)) (l : List α) : s.CacheWork (l.foldl f t) :=
  foldl_keeps _ f l (fun u x hu => hu.trans (hf u x)) t h

theorem State.cacheWork_count (s : State) (u f e n : Nat) : s.CacheWork (s.count u f e n) := ⟨_, _, _, _, _, _, rfl⟩
theorem State.cacheWork_charge (s : State) (f k n : Nat) : s.CacheWork (s.charge f k n) := ⟨_, _, _, _, _, _, rfl⟩
theorem State.cacheWork_plan (s : State) (ts : List Turn) : s.CacheWork (s.plan ts) := ⟨_, _, _, _, _, _, rfl⟩
theorem State.cacheWork_setL2 (s : State) (l : List L2Line) : s.CacheWork { s with ms := { s.ms with l2 := l } } :=
  ⟨_, _, _, _, _, _, rfl⟩
theorem State.cacheWork_setUnder (s : State) (u : List (Nat × List Byte)) : s.CacheWork { s with ms := { s.ms with under := u } } :=
  ⟨_, _, _, _, _, _, rfl⟩
theorem State.cacheWork_postOnce (s : State) (i : Instr) : s.CacheWork (s.postOnce i) := by
  unfold State.postOnce
  split
  · exact .refl s
  · exact s.cacheWork_plan _
theorem State.cacheWork_detect (s : State) (off : Nat) : s.CacheWork (s.detect off).2 := by
  unfold State.detect
  split
  · exact s.cacheWork_postOnce _
  · exact .refl s
theorem State.cacheWork_sees (s : State) (off n : Nat) : s.CacheWork (s.sees off n) := by
  unfold State.sees
  split
  · exact s.cacheWork_detect off
  · exact .refl s
theorem State.cacheWork_l2Evict (s : State) (p : L2Line → Bool) : s.CacheWork (s.l2Evict p) :=
  (State.CacheWork.foldl (.refl s) (fun u (e : L2Line) => u.cacheWork_charge e.fn 0 4) _).trans (State.cacheWork_setL2 _ _)
theorem State.CacheWork.ite {s t u : State} {p : Prop} [Decidable p] (ht : s.CacheWork t) (hu : s.CacheWork u) :
    s.CacheWork (if p then t else u) := by split <;> assumption
theorem State.cacheWork_l2Access (s : State) (line f : Nat) (wb : Bool) : s.CacheWork (s.l2Access line f wb) := by
  have hs : s.CacheWork (if wb then s.sees line 192 else s) := .ite (s.cacheWork_sees line 192) (.refl s)
  unfold State.l2Access
  generalize (if wb then s.sees line 192 else s) = u at hs ⊢
  refine hs.trans ?_
  dsimp only
  split
  next => exact (u.cacheWork_count _ _ _ _).trans (State.cacheWork_setL2 _ _)
  next =>
    generalize hv : State.charge (if wb then _ else _) f 0 4 = v
    have huv : u.CacheWork v :=
      hv ▸ State.CacheWork.trans (.ite (u.cacheWork_count _ _ _ _) (u.cacheWork_count _ _ _ _)) (State.cacheWork_charge _ _ _ _)
    refine huv.trans ?_
    split
    next => exact .refl v
    next =>
      exact (((v.cacheWork_count _ _ _ _).trans (State.cacheWork_charge _ _ _ _)).trans (State.cacheWork_l2Evict _ _)).trans
        (State.cacheWork_setL2 _ _)
/-- Copies of a line elsewhere are written back, or go. -/
theorem State.cacheWork_othersYield (s : State) (tile dom line : Nat) (inval : Bool) :
    s.CacheWork (s.othersYield tile dom line inval) := by
  unfold State.othersYield
  dsimp only
  split
  next => exact ⟨_, _, _, _, _, _, rfl⟩
  next => exact State.CacheWork.foldl ⟨_, _, _, _, _, _, rfl⟩ (fun u f => u.cacheWork_l2Access line f true) _
theorem State.cacheWork_unitRead (s : State) (f line : Nat) : s.CacheWork (s.unitRead f line) :=
  (s.cacheWork_othersYield _ _ _ _).trans (State.cacheWork_l2Access _ _ _ _)
theorem State.cacheWork_unitWrite (s : State) (f line : Nat) : s.CacheWork (s.unitWrite f line) :=
  ((s.cacheWork_othersYield _ _ _ _).trans (State.cacheWork_setUnder _ _)).trans (State.cacheWork_l2Access _ _ _ _)
theorem State.cacheWork_writeBacks (s : State) (p : Nat → Bool) : s.CacheWork (s.writeBacks p) := by
  unfold State.writeBacks
  exact State.CacheWork.foldl (.refl s) (fun u c => u.cacheWork_l2Access _ _ true) _
theorem State.cacheWork_cleanLines (s : State) (p : Nat → Bool) : s.CacheWork (s.cleanLines p) :=
  (s.cacheWork_writeBacks p).trans ⟨_, _, _, _, _, _, rfl⟩
/-- A copy of a line enters a tile's cache; a store keeps the memory-side bytes of its sectors. -/
theorem State.cacheWork_put (s : State) (tile : Nat) (t : Tile) (wr : Bool) (u : List (Nat × List Byte)) :
    s.CacheWork { s.setTile tile t with ms := if wr then { s.ms with under := u } else s.ms } := by
  cases wr <;> exact ⟨_, _, _, _, _, _, rfl⟩
/-- An access through a tile's cache: the copy's bytes are those of memory, which stays. -/
theorem State.cacheWork_cacheAccess (s : State) (tile dom line mask : Nat) (wr : Bool) (cp : Nat) :
    s.CacheWork (s.cacheAccess tile dom line mask wr cp).1 := by
  unfold State.cacheAccess
  refine (s.cacheWork_othersYield tile dom line wr).trans ?_
  generalize s.othersYield tile dom line wr = u
  have hread := u.cacheWork_l2Access line dom false
  dsimp only
  split
  next =>
    split
    next => exact u.cacheWork_put ..
    next =>
      split
      next => exact hread
      next => exact hread.trans (State.cacheWork_put ..)
  next =>
    split
    next => exact hread
    next =>
      refine hread.trans (State.CacheWork.trans ?_ (State.cacheWork_put ..))
      split
      next => exact .ite (.refl _) ((State.cacheWork_setUnder _ _).trans (State.cacheWork_l2Access ..))
      next => exact .refl _

theorem State.cacheWork_flits (s : State) (f k : Nat) : s.CacheWork (s.flits f k) :=
  .ite ((s.cacheWork_charge f 1 1).trans (State.cacheWork_count _ _ _ _ _))
    ((s.cacheWork_charge f 1 k).trans (State.cacheWork_count _ _ _ _ _))

section
variable {s t : State} (h : s.CacheWork t)
include h

theorem State.CacheWork.mem : t.ms.mem = s.ms.mem := by obtain ⟨_, _, _, _, _, _, rfl⟩ := h; rfl
theorem State.CacheWork.waits : t.ms.waits = s.ms.waits := by obtain ⟨_, _, _, _, _, _, rfl⟩ := h; rfl
theorem State.CacheWork.pinOf (l : Piece) : t.pinOf l = s.pinOf l := by obtain ⟨_, _, _, _, _, _, rfl⟩ := h; rfl

end

-- Tagging

/-- `t` is `s` but for the cellar, the stamps, the agenda, and what its groups note of their intervals besides the numbers. -/
def State.TagWork (s t : State) : Prop :=
  (∃ cellar stamps rgs inbox, t = { s with
    inbox := inbox, ms := { s.ms with cellar := cellar, stamps := stamps }, st := { s.st with rgs := rgs } }) ∧
  ∀ n, (t.rgs n).rin = (s.rgs n).rin

theorem State.TagWork.refl (s : State) : s.TagWork s := ⟨⟨_, _, _, _, rfl⟩, fun _ => rfl⟩
theorem State.rin_setRgs {s : State} {n : Nat} {g : Rgs} (h : g.rin = (s.rgs n).rin) (k : Nat) :
    ((s.setRgs n g).rgs k).rin = (s.rgs k).rin := by
  obtain rfl | hk := eq_or_ne k n
  · rw [State.setRgs_rgs, h]
  · exact congrArg Rgs.rin (lookupD_setKey_ne s.st.rgs g .reset hk)
theorem State.tagWork_tagStore {s t : State} {dom line rin : Nat} {x req : Bool} (h : s.tagStore dom line rin x = .ok t req) :
    s.TagWork t := by
  unfold State.tagStore at h
  split at h
  next => cases h; exact .refl s
  next n =>
    dsimp only at h
    (repeat' split at h) <;> cases h
    · exact .refl s
    · exact .refl s
    · exact ⟨⟨_, _, _, _, rfl⟩, State.rin_setRgs rfl⟩
theorem State.tagWork_tagged {s t : State} {dom line rin off : Nat} {x : Bool} (h : s.tagged dom line rin off x = .ok t) :
    s.TagWork t := by
  unfold State.tagged at h
  split at h
  next u req hu =>
    cases h
    obtain ⟨⟨_, _, _, _, rfl⟩, hrin⟩ := State.tagWork_tagStore hu
    unfold State.sealAsks
    split
    · exact ⟨⟨_, _, _, _, rfl⟩, hrin⟩
    · exact ⟨⟨_, _, _, _, rfl⟩, hrin⟩
  all_goals cases h
/-- Where a rollback stops the store, the group is asked for it. -/
theorem State.cacheWork_tagged_roll {s t : State} {dom line rin off : Nat} {x : Bool} (h : s.tagged dom line rin off x = .roll t) :
    s.CacheWork t := by
  unfold State.tagged at h
  split at h <;> cases h <;> exact s.cacheWork_postOnce _
/-- A store that forces no seal has nothing asked. -/
theorem State.sealAsks_forcedOf (s : State) (f : Nat) : s.sealAsks (s.forcedOf f) false f = s := by
  unfold State.sealAsks
  split
  next => rfl
  next n hn => simp [State.forcedOf, hn, State.plan]
/-- A line of no cellar is not tagged (21:R265). -/
theorem State.tagged_of_no_cellar {s : State} {dom line : Nat} (rin off : Nat) (x : Bool) (h : s.cellarNode dom line = none) :
    s.tagged dom line rin off x = .ok s := by
  simp only [State.tagged, State.tagStore, h, State.sealAsks_forcedOf]

end Sys2Proof.Machine
end

section
/-! PROOFS. What the accesses of the device's units, and the wakes that they make, leave of threads, compacts and intervals (03:R27-R29,
13:R178, 17:R227-R232, 23:R286). -/

namespace Sys2Proof.Machine
open Sys2Proof

/-- What tells a thread and its gang. -/
def Thread.ident (t : Thread) : Bool × Nat × RecInfo × Nat := (t.live, t.tid, t.info, t.home)
/-- The threads of a package, as they are told apart. -/
def State.roster (s : State) : List (Bool × Nat × RecInfo × Nat) := (s.th :: s.others).map Thread.ident

/-- The threads, the compacts, the functions' partitions and the intervals stay; no queued record is dropped. -/
structure State.Stays (s t : State) : Prop where
  roster : t.roster = s.roster
  compacts : t.eng.compacts = s.eng.compacts
  binds : t.st.binds = s.st.binds
  rin : ∀ n, (t.rgs n).rin = (s.rgs n).rin
  runq : s.st.runq ⊆ t.st.runq
/-- The same, and no waiter is woken. -/
structure State.Unwoken (s t : State) : Prop extends State.Stays s t where
  waits : t.ms.waits = s.ms.waits

theorem State.Stays.refl (s : State) : s.Stays s := ⟨rfl, rfl, rfl, fun _ => rfl, List.Subset.refl _⟩
theorem State.Stays.trans {s t u : State} (h : s.Stays t) (k : t.Stays u) : s.Stays u :=
  ⟨k.roster.trans h.roster, k.compacts.trans h.compacts, k.binds.trans h.binds, fun n => (k.rin n).trans (h.rin n),
    List.Subset.trans h.runq k.runq⟩
theorem State.Unwoken.refl (s : State) : s.Unwoken s := ⟨.refl s, rfl⟩
theorem State.Unwoken.trans {s t u : State} (h : s.Unwoken t) (k : t.Unwoken u) : s.Unwoken u :=
  ⟨h.toStays.trans k.toStays, k.waits.trans h.waits⟩
theorem State.Unwoken.foldl {α : Type} {s t : State} (h : s.Unwoken t) {f : State → α → State}
    (hf : ∀ (u : State) x, u.Unwoken (f u x)) (l : List α) : s.Unwoken (l.foldl f t) :=
  foldl_keeps _ f l (fun u x hu => hu.trans (hf u x)) t h
theorem State.Stays.foldl {α : Type} {s t : State} (h : s.Stays t) {f : State → α → State}
    (hf : ∀ (u : State) x, u.Stays (f u x)) (l : List α) : s.Stays (l.foldl f t) :=
  foldl_keeps _ f l (fun u x hu => hu.trans (hf u x)) t h
/-- A change of other parts of the state. -/
theorem State.Unwoken.of_eq {s t : State} (hr : t.roster = s.roster) (hc : t.eng.compacts = s.eng.compacts) (hst : t.st = s.st)
    (hw : t.ms.waits = s.ms.waits) : s.Unwoken t :=
  ⟨⟨hr, hc, by rw [hst], fun n => by rw [State.rgs, hst, State.rgs], by rw [hst]; exact List.Subset.refl _⟩, hw⟩
theorem State.CacheWork.unwoken {s t : State} (h : s.CacheWork t) : s.Unwoken t := by
  obtain ⟨_, _, _, _, _, _, rfl⟩ := h
  exact ⟨⟨rfl, rfl, rfl, fun _ => rfl, List.Subset.refl _⟩, rfl⟩
theorem State.TagWork.unwoken {s t : State} (h : s.TagWork t) : s.Unwoken t := by
  obtain ⟨⟨_, _, _, _, rfl⟩, hrin⟩ := h
  exact ⟨⟨rfl, rfl, rfl, hrin, List.Subset.refl _⟩, rfl⟩

-- What such a change leaves as it was

section
variable {s t : State} (h : s.Stays t)
include h

theorem State.Stays.nodeOf (f : Nat) : t.nodeOf f = s.nodeOf f := by rw [State.nodeOf, State.nodeOf, h.binds]
theorem State.Stays.rinOf (f : Nat) : t.rinOf f = s.rinOf f := by
  unfold State.rinOf
  rw [h.nodeOf f]
  cases s.nodeOf f with
  | none => rfl
  | some n => exact h.rin n
omit h in
theorem State.thread?_ident (s : State) (k : Nat) :
    (s.thread? k).map Thread.ident = s.roster.find? (fun x => x.1 && x.2.1 == k) := by
  rw [State.roster, List.find?_map]
  refine congrArg _ ?_
  by_cases hk : (s.th.live && s.th.tid == k) = true
  · simp [State.thread?, Thread.ident, hk]
  · simp [State.thread?, Thread.ident, hk, Function.comp_def]
theorem State.Stays.thread? (k : Nat) : (t.thread? k).map Thread.ident = (s.thread? k).map Thread.ident := by
  rw [State.thread?_ident, State.thread?_ident, h.roster]
theorem State.Stays.memberOf (k : Nat) : t.memberOf k = s.memberOf k := by
  have hk := h.thread? k
  unfold State.memberOf
  rw [h.compacts]
  cases hs : s.thread? k with
  | none =>
    have hn : t.thread? k = none := Option.map_eq_none_iff.mp (hk.trans (by rw [hs]; rfl))
    rw [hn]
  | some u =>
    rw [hs] at hk
    obtain ⟨v, hv, huv⟩ := Option.map_eq_some_iff.mp hk
    obtain ⟨-, -, hinfo, hhome⟩ : v.live = u.live ∧ v.tid = u.tid ∧ v.info = u.info ∧ v.home = u.home := by
      simpa [Thread.ident] using huv
    simp only [hv, hinfo, hhome]
end

-- Messages

theorem State.unwoken_emit (s : State) (m : OutMsg) : s.Unwoken (s.emit m) := .of_eq rfl rfl rfl rfl
theorem State.unwoken_tick (s : State) : s.Unwoken s.tick := .of_eq rfl rfl rfl rfl
theorem State.unwoken_plan (s : State) (ts : List Turn) : s.Unwoken (s.plan ts) := .of_eq rfl rfl rfl rfl
theorem State.unwoken_write (s : State) (off : Nat) (bs : List Byte) : s.Unwoken (s.write off bs) := .of_eq rfl rfl rfl rfl
theorem State.unwoken_posts (s : State) (x : Posted) : s.Unwoken (s.posts x) := .of_eq rfl rfl rfl rfl
/-- A message with its flits, and the counter advanced for its tag. -/
theorem State.unwoken_send (s : State) (m : OutMsg) (f k : Nat) : s.Unwoken ((s.emit m).flits f k).tick :=
  ((s.unwoken_emit m).trans (State.cacheWork_flits ..).unwoken).trans (State.unwoken_tick _)
theorem State.unwoken_request (s : State) (a : Acc) (k : ReqKind) (p : Piece) (bs : List Byte) :
    s.Unwoken (s.request a k p bs).2 := s.unwoken_send ..
theorem State.unwoken_postWrite (s : State) (off : Nat) (bs : List Byte) (h : Bool) : s.Unwoken (s.postWrite off bs h) := by
  unfold State.postWrite
  dsimp only
  split <;> exact s.unwoken_plan _

-- Translation (17:R227-R232)

theorem State.unwoken_walkRead (s : State) (fn ea : Nat) : s.Unwoken (s.walkRead fn ea) := by
  unfold State.walkRead
  dsimp only
  generalize hu : (if ea / 2 ^ 48 = s.me then _ else _) = u
  have hsu : s.Unwoken u := by
    subst hu
    split
    · exact (s.cacheWork_sees _ _).unwoken
    · exact s.unwoken_send ..
  refine hsu.trans ?_
  split
  · exact (u.cacheWork_unitRead ..).unwoken
  · exact .refl u
theorem State.unwoken_walkSet (s : State) (fn ea e k : Nat) : s.Unwoken (s.walkSet fn ea e k) := by
  unfold State.walkSet
  dsimp only
  split
  · exact .refl s
  · split
    · exact s.unwoken_send ..
    · have hput (u : State) : u.Unwoken (match u.unitLoc (ea % 2 ^ 48) with
          | some loc => u.write loc (leBytes 8 (e ||| k))
          | none => u) := by
        split
        · exact u.unwoken_write ..
        · exact .refl u
      refine State.Unwoken.trans ?_ (hput _)
      split
      · exact (s.cacheWork_unitWrite ..).unwoken
      · exact .refl s
theorem State.unwoken_tlbFill (s : State) (t : TlbEntry) : s.Unwoken (s.tlbFill t) := .of_eq rfl rfl rfl rfl
theorem State.unwoken_walk {s : State} {tile fn : Nat} {m : Priv} {k : AccKind} {va : Word} {r : Nat × Nat × State}
    (h : s.walk tile fn m k va = .ok r) : s.Unwoken r.2.2 := by
  unfold State.walk at h
  dsimp only at h
  (repeat' split at h) <;> cases h
  exact ((State.Unwoken.foldl (.refl s) (fun u a => u.unwoken_walkRead fn a) _).trans (State.unwoken_walkSet ..)).trans
    (State.unwoken_tlbFill ..)
theorem State.unwoken_translate {s : State} {tile fn : Nat} {m : Priv} {k : AccKind} {va : Word} {r : Nat × Nat × State}
    (h : s.translate tile fn m k va = .ok r) : s.Unwoken r.2.2 := by
  unfold State.translate at h
  split at h
  next => cases h
  next =>
    split at h
    next =>
      split at h
      next => cases h
      next =>
        split at h
        next => cases h; exact .refl s
        next => exact State.unwoken_walk h
    next => exact State.unwoken_walk h

theorem Thread.ident_countEv (t : Thread) (e n : Nat) : (t.countEv e n).ident = t.ident := by simp [Thread.ident, Thread.home]
theorem Thread.ident_walkEvents (t : Thread) (k : AccKind) (found : Option TlbEntry) : (t.walkEvents k found).ident = t.ident := by
  unfold Thread.walkEvents
  split
  · rw [Thread.ident_countEv, Thread.ident_countEv]
  · split
    · rfl
    · exact t.ident_countEv 7 1
theorem State.unwoken_setTh {s : State} {t : Thread} (h : t.ident = s.th.ident) : s.Unwoken { s with th := t } :=
  .of_eq (congrArg (· :: s.others.map Thread.ident) h) rfl rfl rfl

-- Accesses

theorem unwoken_piecesFrom {a : Acc} {k : AccKind} {fuel n : Nat} {va : Word} {s : State} {ps : List Piece}
    {t : State} (h : piecesFrom a k fuel va n s = .ok (ps, t)) : s.Unwoken t := by
  induction fuel generalizing va n s ps with
  | zero => cases h; exact .refl _
  | succ fuel ih =>
    rw [piecesFrom] at h
    split at h
    next => cases h; exact .refl _
    next =>
      dsimp only at h
      split at h
      next => cases h
      next pa leaf u hu =>
        have hsu : s.Unwoken u := State.unwoken_translate hu
        split at h
        next => cases h
        next ps v hv =>
          cases h
          refine (hsu.trans ?_).trans (ih hv)
          split
          · exact State.unwoken_setTh (Thread.ident_walkEvents ..)
          · exact .refl u
theorem unwoken_accessPieces {a : Acc} {k : AccKind} {n : Nat} {va : Word} {s : State} {ps : List Piece} {t : State}
    (h : accessPieces a k va n s = .ok (ps, t)) : s.Unwoken t := by
  unfold accessPieces at h
  split at h
  next => cases h
  next hp => cases h; exact unwoken_piecesFrom hp
theorem State.unwoken_pieces {s : State} {a : Acc} {k : AccKind} {n : Nat} {va : Word} {ord : Bool} {ps : List Piece} {t : State}
    (h : s.pieces a k va n ord = .ok (ps, t)) : s.Unwoken t := by
  unfold State.pieces at h
  split at h
  next => cases h
  next hp =>
    split at h <;> cases h
    exact unwoken_accessPieces hp
theorem State.unwoken_sysPieces {s : State} {f : Nat} {k : AccKind} {n : Nat} {va : Word} {ps : List Piece} {t : State}
    (h : s.sysPieces f k va n = .ok (ps, t)) : s.Unwoken t := by
  unfold State.sysPieces at h
  split at h
  next => cases h
  next hp =>
    split at h <;> cases h
    exact (State.unwoken_pieces hp).trans (.of_eq rfl rfl rfl rfl)
theorem State.unwoken_writeLine (s : State) (line rin off : Nat) (bs : List Byte) : s.Unwoken (s.writeLine line rin off bs) := by
  unfold State.writeLine
  split
  · exact .of_eq rfl rfl rfl rfl
  · exact s.unwoken_write off bs
theorem State.unwoken_devStoreIn (s : State) (dom rin off : Nat) (bs : List Byte) : s.Unwoken (s.devStoreIn dom rin off bs) := by
  unfold State.devStoreIn
  split
  next =>
    split
    next => exact .refl s
    next line _ =>
      split
      next u hu =>
        exact ((State.tagWork_tagged hu).unwoken.trans (State.cacheWork_unitWrite ..).unwoken).trans (State.unwoken_writeLine ..)
      next => exact .refl s
      next u hu => exact (State.cacheWork_tagged_roll hu).unwoken
  next =>
    split
    · exact s.unwoken_write off bs
    · exact .refl s
  next => exact s.unwoken_postWrite ..
  next => exact s.unwoken_write off bs
  next => exact .refl s
theorem State.unwoken_sysFar (s : State) (f : Nat) (p : Piece) (bs : List Byte) : s.Unwoken (s.sysFar f p bs) :=
  (s.unwoken_request ..).trans (State.unwoken_posts _ _)
theorem State.unwoken_sysWrite {s t : State} {f : Nat} {va : Word} {bs : List Byte} (h : s.sysWrite f va bs = .ok t) : s.Unwoken t := by
  unfold State.sysWrite at h
  split at h
  next => cases h
  next ps u hu =>
    cases h
    refine (State.unwoken_sysPieces hu).trans ?_
    refine foldl_keeps (fun x : State × List Byte => u.Unwoken x.1) _ ps (fun x p hx => hx.trans ?_) (u, bs) (.refl u)
    dsimp only
    split
    · exact State.unwoken_devStoreIn ..
    · exact State.unwoken_sysFar ..
theorem State.unwoken_sysPut (s : State) (f : Nat) (va : Word) (bs : List Byte) : s.Unwoken (s.sysPut f va bs) := by
  unfold State.sysPut
  split
  next t ht => exact State.unwoken_sysWrite ht
  next => exact .refl s

-- Records and wakes (03:R27, 13:R178, 23:R286)

theorem State.unwoken_setRecState (s : State) (f : Nat) (recA : Word) (st : Nat) : s.Unwoken (s.setRecState f recA st) := by
  unfold State.setRecState
  split
  · exact .refl s
  · exact s.unwoken_sysPut ..
theorem State.unwoken_linkRec (s : State) (f : Nat) (recA next : Word) : s.Unwoken (s.linkRec f recA next) := by
  unfold State.linkRec
  split
  · exact .refl s
  · exact s.unwoken_sysPut ..
theorem State.unwoken_enqueue (s : State) (e : RunEntry) : s.Unwoken (s.enqueue e) := by
  have hput (u : State) : u.Unwoken { u with st := { u.st with runq := u.st.runq ++ [e] } } :=
    ⟨⟨rfl, rfl, rfl, fun _ => rfl, List.subset_append_left ..⟩, rfl⟩
  unfold State.enqueue
  split
  · exact .refl s
  · refine State.Unwoken.trans ?_ (hput _)
    split
    · exact .refl s
    · exact s.unwoken_linkRec ..
/-- A record of a bound function is queued (25:R295, log 78). -/
theorem State.mem_enqueue {s : State} {e : RunEntry} (h : (s.nodeOf e.dom).isSome = true) : e ∈ (s.enqueue e).st.runq := by
  unfold State.enqueue
  rw [if_neg (by simp [Option.isSome_iff_ne_none.mp h])]
  exact List.mem_append_right _ (List.mem_singleton.mpr rfl)
theorem State.unwoken_wakeOne (s : State) (w : Waiter) : s.Unwoken (s.wakeOne w) := by
  unfold State.wakeOne
  split
  · exact (s.unwoken_emit _).trans (State.cacheWork_flits ..).unwoken
  · exact (s.unwoken_setRecState ..).trans (State.unwoken_enqueue ..)
theorem State.mem_wakeOne {s : State} {w : Waiter} (hf : w.far = none) (hn : (s.nodeOf w.dom).isSome = true) :
    (⟨w.die, w.dom, w.pri, w.recA⟩ : RunEntry) ∈ (s.wakeOne w).st.runq := by
  unfold State.wakeOne
  rw [hf]
  exact State.mem_enqueue (by rw [(s.unwoken_setRecState ..).nodeOf]; exact hn)
theorem State.roster_mapThreads (s : State) {f : Thread → Thread} (hf : ∀ t : Thread, (f t).ident = t.ident) :
    (s.mapThreads f).roster = s.roster := by
  have hth : (s.mapThreads f).th.ident = s.th.ident := (apply_ite Thread.ident _ _ _).trans (by rw [hf, ite_self])
  have ho : (s.mapThreads f).others.map Thread.ident = s.others.map Thread.ident := by
    rw [State.mapThreads, List.map_map]
    exact List.map_congr_left (fun t _ => hf t)
  rw [State.roster, State.roster, List.map_cons, List.map_cons, hth, ho]
/-- A resident thread that is told to read its word again keeps what tells it from others. -/
theorem State.unwoken_noteWaiters (s : State) (line : Nat) : s.Unwoken (s.noteWaiters line) := by
  unfold State.noteWaiters
  dsimp only
  split
  · exact .of_eq (s.roster_mapThreads (fun t => by split <;> rfl)) rfl rfl rfl
  · exact .refl s

/-- A line with its waiters taken off its list, before they are queued. -/
def State.unlisted (s : State) (line : Nat) : State :=
  { s.noteWaiters line with ms := { (s.noteWaiters line).ms with waits := (s.noteWaiters line).ms.waits.filter (·.line != line) } }

@[simp] theorem State.noteWaiters_ms (s : State) (line : Nat) : (s.noteWaiters line).ms = s.ms := by
  unfold State.noteWaiters
  dsimp only
  split <;> rfl
theorem State.stays_unlisted (s : State) (line : Nat) : s.Stays (s.unlisted line) :=
  (s.unwoken_noteWaiters line).toStays.trans ⟨rfl, rfl, rfl, fun _ => rfl, List.Subset.refl _⟩
theorem State.wakeLine_eq (s : State) (line : Nat) :
    s.wakeLine line = (s.ms.waits.filter (·.line == line)).foldl State.wakeOne (s.unlisted line) := by
  rw [State.wakeLine, State.unlisted, State.noteWaiters_ms]
/-- Without a waiter a wake changes nothing of memory. -/
theorem State.wakeLine_ms {s : State} {line : Nat} (h : ∀ w ∈ s.ms.waits, w.line ≠ line) : (s.wakeLine line).ms = s.ms := by
  have hnone : s.ms.waits.filter (·.line == line) = [] := by simpa using h
  have hall : s.ms.waits.filter (·.line != line) = s.ms.waits := by simpa using h
  rw [State.wakeLine_eq, hnone, List.foldl_nil, State.unlisted, State.noteWaiters_ms, hall]
theorem State.unwoken_wakes (s : State) (line : Nat) : (s.unlisted line).Unwoken (s.wakeLine line) := by
  rw [State.wakeLine_eq]
  exact State.Unwoken.foldl (.refl _) State.unwoken_wakeOne _
/-- A wake changes neither threads, compacts and partitions nor intervals. -/
theorem State.stays_wakeLine (s : State) (line : Nat) : s.Stays (s.wakeLine line) :=
  (s.stays_unlisted line).trans (s.unwoken_wakes line).toStays
/-- A wake leaves the waiters of other lines (13:R178). -/
theorem State.wakeLine_waits (s : State) (line : Nat) : (s.wakeLine line).ms.waits = s.ms.waits.filter (·.line != line) := by
  rw [(s.unwoken_wakes line).waits, State.unlisted, State.noteWaiters_ms]
/-- Waking some waiters queues the record of each one of a bound function. -/
theorem State.mem_foldl_wakeOne {ws : List Waiter} {w : Waiter} (hw : w ∈ ws) (hf : w.far = none) {s : State}
    (hn : (s.nodeOf w.dom).isSome = true) : (⟨w.die, w.dom, w.pri, w.recA⟩ : RunEntry) ∈ (ws.foldl State.wakeOne s).st.runq := by
  induction ws generalizing s with
  | nil => cases hw
  | cons v ws ih =>
    rw [List.foldl_cons]
    obtain rfl | hw := List.mem_cons.mp hw
    · exact (State.Unwoken.foldl (.refl _) State.unwoken_wakeOne ws).runq (State.mem_wakeOne hf hn)
    · exact ih hw (by rw [(s.unwoken_wakeOne v).nodeOf]; exact hn)
theorem State.mem_wakeLine {s : State} {w : Waiter} (hw : w ∈ s.ms.waits) (hf : w.far = none)
    (hn : (s.nodeOf w.dom).isSome = true) : (⟨w.die, w.dom, w.pri, w.recA⟩ : RunEntry) ∈ (s.wakeLine w.line).st.runq := by
  rw [State.wakeLine_eq]
  exact State.mem_foldl_wakeOne (by simp [hw]) hf
    (by rw [(s.stays_unlisted w.line).nodeOf]; exact hn)

end Sys2Proof.Machine
end

section
/-! PROOFS. GBAR, WAITA and WAKE (13:R177-R179). -/

namespace Sys2Proof.Machine
open Sys2Proof

theorem exec_gbar (m : Mark) (s : State) : exec (.gbar m) s = execGbar m s := rfl
theorem exec_waita (m : Mark) (a b : Reg) (c : BitVec 5) (s : State) : exec (.waita m a b c) s = execWaita m a b c s := rfl
theorem exec_wake (m : Mark) (a : Reg) (s : State) : exec (.wake m a) s = execWake m a s := rfl

/-- A meaning whose effect completes as a suspension point. -/
theorem suspends_of {s t : State} {i : Instr} {f : State → Done} (he : exec i s = s.issue i f) (hi : Issues i s)
    (hf : f s = .pass t) : exec i s = .next (t.passes s.th i) := by
  rw [he, State.issue_body hi, hf, State.finish_pass]

-- GBAR

section
variable {m : Mark} {s : State} (hi : Issues (.gbar m) s)
include hi

theorem exec_gbar_completed (hd : s.th.flow.gdone = true) : exec (.gbar m) s =
    .next (State.passes { s with th := { s.th with flow := { s.th.flow with gdone := false } } } s.th (.gbar m)) :=
  suspends_of (exec_gbar ..) hi (if_pos hd)

variable (hd : s.th.flow.gdone = false)
include hd

theorem waits_gbar_member (hk : s.th.info.kind = 1) : exec (.gbar m) s =
    .next (State.waits { s with th := { s.th with flow := { s.th.flow with gba := true } } } .gbar) :=
  waits_of (exec_gbar ..) hi ((if_neg (Bool.eq_false_iff.mp hd)).trans (if_pos hk))
theorem exec_gbar_lone (hk : s.th.info.kind ≠ 1) : exec (.gbar m) s = .next (s.passes s.th (.gbar m)) :=
  suspends_of (exec_gbar ..) hi ((if_neg (Bool.eq_false_iff.mp hd)).trans (if_neg hk))

end

-- WAITA

/-- The thread waits no more on its word. -/
def State.waitOver (s : State) : State :=
  { s with th := { s.th with flow := { s.th.flow with waitVa := none, waitAt := none, heldReads := [] } } }
/-- The thread waits on the word at `va`, whose first piece is that of `ps`. -/
def State.waitOn (s : State) (va : Word) (ps : List Piece) : State :=
  { s with th := { s.th with flow := { s.th.flow with
      waitVa := some va, waitAt := (ps.head?.map (·.pa)).map unitOf, heldReads := [] } } }

section
variable {m : Mark} {a b : Reg} {c : BitVec 5} {s : State} (hi : Issues (.waita m a b c) s)
include hi

theorem traps_waita_misaligned (ha : (s.th.gr a).toNat % 8 ≠ 0) : Traps (.waita m a b c) s ⟨.align, 0, s.th.gr a⟩ :=
  traps_of (exec_waita ..) hi (if_pos ha)

variable (ha : (s.th.gr a).toNat % 8 = 0) {ps : List Piece} {u v : State} {bs : List Byte}
  (hp : s.pieces s.th.acc .read (s.th.gr a) 8 true = .ok (ps, v)) (hread : s.ldHeld s.th.acc .read (s.th.gr a) 8 = .ok bs u)
include ha hp hread

theorem passes_waita (h : waitCond (c.toNat % 4) (BitVec.ofNat 64 (leNat bs)) (s.th.gr b) = true) :
    Passes (.waita m a b c) s u.waitOver :=
  passes_of (exec_waita ..) hi (by simp only [ha, hp, hread, h, ne_eq, not_true_eq_false, if_false, if_true]; rfl)
theorem waits_waita (h : waitCond (c.toNat % 4) (BitVec.ofNat 64 (leNat bs)) (s.th.gr b) = false) :
    exec (.waita m a b c) s = .next ((u.waitOn (s.th.gr a) ps).waits .waiting) :=
  waits_of (exec_waita ..) hi (by
    simp only [ha, hp, hread, h, ne_eq, not_true_eq_false, if_false, Bool.false_eq_true]; rfl)

end

-- WAKE

section
variable {m : Mark} {a : Reg} {s : State} (hi : Issues (.wake m a) s)
include hi

theorem traps_wake_misaligned (ha : (s.th.gr a).toNat % 8 ≠ 0) : Traps (.wake m a) s ⟨.align, 0, s.th.gr a⟩ :=
  traps_of (exec_wake ..) hi (if_pos ha)
theorem completes_wake (ha : (s.th.gr a).toNat % 8 = 0) {p : Piece} {u : State}
    (hp : s.pieces s.th.acc .read (s.th.gr a) 8 = .ok ([p], u)) : Completes (.wake m a) s
      (if p.pkg = u.me then u.wakeLine (waitLine p.off) else (u.request s.th.acc .wake p []).2) :=
  completes_of (exec_wake ..) hi (by
    simp only [ha, hp, ne_eq, not_true_eq_false, if_false, List.foldl_cons, List.foldl_nil, beq_iff_eq])

end

/-- Settles O28: the instructions by their tests; a line's wake by what it leaves of the wait lists and queues record by record. -/
theorem waitsAndWakes : Obligations.WaitsAndWakes := by
  refine ⟨⟨?gbarCompleted, ?gbarMember, ?gbarLone, ?waita, ?wake, ?misaligned⟩, fun s line => ?wakeLine⟩
  case gbarCompleted => exact fun m s hi hd => exec_gbar_completed hi hd
  case gbarMember => exact fun m s hi hd hk => waits_gbar_member hi hd hk
  case gbarLone => exact fun m s hi hd hk => exec_gbar_lone hi hd hk
  case waita =>
    exact fun m a b c s u v ps bs hi ha hp hread =>
      ⟨fun h => passes_waita hi ha hp hread h, fun h => waits_waita hi ha hp hread h⟩
  case wake => exact fun m a s u p hi ha hp => completes_wake hi ha hp
  case misaligned => exact fun m a b c s ha => ⟨fun hi => traps_waita_misaligned hi ha, fun hi => traps_wake_misaligned hi ha⟩
  case wakeLine =>
    rw [State.wakeLine_waits]
    refine ⟨fun w hw => ?_, fun w hw hl => List.mem_filter.mpr ⟨hw, by simpa using hl⟩, fun w hw hl hf hn => ?_⟩
    · simpa using (List.mem_filter.mp hw).2
    · subst hl
      exact State.mem_wakeLine hw hf hn

end Sys2Proof.Machine
end

section
/-! PROOFS. DISCARD, CWB and CINV (13:R199). -/

namespace Sys2Proof.Machine
open Sys2Proof

theorem exec_discard (m : Mark) (a b : Reg) (s : State) : exec (.discard m a b) s = execDiscard m a b s := rfl
theorem exec_cwb (m : Mark) (a b : Reg) (s : State) : exec (.cwb m a b) s = execCwb m a b s := rfl
theorem exec_cinv (m : Mark) (a b : Reg) (s : State) : exec (.cinv m a b) s = execCinv m a b s := rfl

-- Ranges

theorem State.rangeLines_fault {s : State} {k : AccKind} {va : Word} {n : Nat} {x : Trap}
    (h : s.pieces s.th.acc k va n = .error x) : s.rangeLines k va n = .error x := by simp only [State.rangeLines, h]
/-- With no line elsewhere no home is asked. -/
theorem State.homesAnswer_nil (s : State) (r : ReqKind) (k : Nat) : s.homesAnswer r k [] = none := rfl

section
variable {ls : List Piece} {k : Nat} (h : ∀ l ∈ ls, l.pkg = k)
include h

theorem filter_far_eq_nil : ls.filter (fun l => l.pkg != k) = [] := List.filter_eq_nil_iff.mpr (fun l hl => by simp [h l hl])
theorem filter_near_eq_self : ls.filter (fun l => l.pkg == k) = ls := List.filter_eq_self.mpr (fun l hl => by simp [h l hl])

end

-- DISCARD

theorem State.unwoken_dropLines_discard (s : State) (p : Nat → Bool) : s.Unwoken (s.dropLines p true) := .of_eq rfl rfl rfl rfl
theorem State.stays_discardLine (s : State) (dom rin line : Nat) (x : Bool) : s.Stays (s.discardLine dom rin line x) := by
  unfold State.discardLine
  split
  next u hu =>
    exact ((State.tagWork_tagged hu).unwoken.trans (u.unwoken_dropLines_discard _)).toStays.trans (State.stays_wakeLine _ _)
  next => exact .refl s
  next u hu => exact (State.cacheWork_tagged_roll hu).unwoken.toStays
/-- Lines discarded one after the other: the interval and the member that each is tagged for are those of the start. -/
theorem State.foldl_discardLine (dom tid : Nat) (ls : List Piece) {u z : State} (h : u.Stays z) :
    ls.foldl (fun z l => z.discardLine dom (z.rinOf dom) l.off (z.memberOf tid).isSome) z =
      ls.foldl (fun z l => z.discardLine dom (u.rinOf dom) l.off (u.memberOf tid).isSome) z := by
  induction ls generalizing z with
  | nil => rfl
  | cons l ls ih =>
    rw [List.foldl_cons, List.foldl_cons, h.rinOf, h.memberOf]
    exact ih (h.trans (z.stays_discardLine ..))
/-- A line of no cellar loses its copies, and its waiters are woken. -/
theorem State.discardLine_ms {s : State} {dom line : Nat} (rin : Nat) (x : Bool) (h : s.cellarNode dom line = none) :
    (s.discardLine dom rin line x).ms = ((s.dropLines (· == line) true).wakeLine line).ms := by
  simp only [State.discardLine, State.tagged_of_no_cellar rin line x h]

section
variable {m : Mark} {a b : Reg} {s : State} (hi : Issues (.discard m a b) s)
include hi

theorem traps_discard_wraps (hw : wraps (s.th.gr a) (s.th.gr b) = true) : Traps (.discard m a b) s ⟨.illstate, 0, s.th.pc⟩ :=
  traps_of (exec_discard ..) hi (if_pos hw)

variable (hw : wraps (s.th.gr a) (s.th.gr b) = false)
include hw

theorem traps_discard_check {x : Trap} (hp : s.pieces s.th.acc .write (s.th.gr a) (s.th.gr b).toNat = .error x) :
    Traps (.discard m a b) s x :=
  traps_of (exec_discard ..) hi (by simp only [hw, State.rangeLines_fault hp, Bool.false_eq_true, if_false])

variable {ps ls : List Piece} {u : State} (hr : s.rangeLines .write (s.th.gr a) (s.th.gr b).toNat = .ok (ps, ls, u))
include hr

theorem holds_discard (ha : u.accessWaits s.th.acc ps = true) : exec (.discard m a b) s = .next (u.holding 2) :=
  holds_of (exec_discard ..) hi (by simp only [hw, hr, ha, Bool.false_eq_true, if_false, if_true])

variable (ha : u.accessWaits s.th.acc ps = false)
include ha

theorem traps_discard_pinned {l : Piece} (hl : ls.find? (fun l => (u.pinOf l).isSome) = some l) :
    Traps (.discard m a b) s ⟨.cprot, 0, l.va⟩ :=
  traps_of (exec_discard ..) hi (by simp only [hw, hr, ha, hl, Bool.false_eq_true, if_false])
theorem completes_discard (hls : ∀ l ∈ ls, l.pkg = u.me ∧ u.pinOf l = none) (hblk : u.storeBlock s.th.acc ls = none) :
    Completes (.discard m a b) s
      (ls.foldl (fun z l => z.discardLine s.th.dom (u.rinOf s.th.dom) l.off (u.memberOf s.th.tid).isSome) u) := by
  have hfree : ls.find? (fun l => (u.pinOf l).isSome) = none := List.find?_eq_none.mpr (fun l hl => by simp [(hls l hl).2])
  have hnear : ∀ l ∈ ls, l.pkg = u.me := fun l hl => (hls l hl).1
  refine completes_of (exec_discard ..) hi ?_
  simp only [hw, hr, ha, hfree, filter_far_eq_nil hnear, filter_near_eq_self hnear, State.homesAnswer_nil, List.any_nil, hblk,
    Bool.false_eq_true, if_false, Option.getD_none, State.foldl_discardLine _ _ _ (.refl u)]

end

-- CWB

/-- CWB of one line for the thread `t`: a copy is written back, the member's own pinned line goes home, one pinned for others is skipped. -/
def State.cleanHome (t : Thread) (s : State) (l : Piece) : State := match s.pinOf l with
  | some p =>
    if s.ownsPin t.tid p then
      let v := s.writeBackPin t.dom ((s.nodeOf t.dom).getD 0) p false
      { v with ms := { v.ms with pins := v.ms.pins.map (fun (q : Pin) => if q.line = p.line && q.far.isNone then { q with dirty := 0 } else q) } }
    else s
  | none => if l.pkg = s.me then s.cleanLines (· == l.off) else s
/-- CWB of lines of this package: it waits for what its pinned lines send home. -/
def State.cleanHere (s : State) (t : Thread) (ls : List Piece) : Done :=
  let e := ls.foldl (State.cleanHome t) s
  if ((ls.filterMap s.pinOf).filter (s.ownsPin t.tid)).any (fun p => e.pl.posted.any (·.tid == 2 ^ 60 + p.bar)) then .hold 2 e else .ok e

theorem State.cleanHome_own {s : State} {t : Thread} {l : Piece} {p : Pin} (hp : s.pinOf l = some p) (ho : s.ownsPin t.tid p = true) :
    let v := s.writeBackPin t.dom ((s.nodeOf t.dom).getD 0) p false
    s.cleanHome t l = { v with ms := { v.ms with
      pins := v.ms.pins.map (fun (q : Pin) => if q.line = p.line && q.far.isNone then { q with dirty := 0 } else q) } } := by
  simp only [State.cleanHome, hp, ho, if_true]
/-- A line that the thread's gang has not pinned is written back unless it is pinned. -/
theorem State.cleanHome_other {s : State} {t : Thread} {l : Piece} (hl : l.pkg = s.me)
    (ho : ∀ p, s.pinOf l = some p → s.ownsPin t.tid p = false) :
    s.cleanHome t l = if (s.pinOf l).isSome then s else s.cleanLines (· == l.off) := by
  unfold State.cleanHome
  split
  next p hp => simp [hp, ho p hp]
  next hp => simp [hp, hl]
theorem State.CacheWork.ownsPin {s t : State} (h : s.CacheWork t) (k : Nat) (p : Pin) : t.ownsPin k p = s.ownsPin k p := by
  rw [State.ownsPin, h.unwoken.memberOf, State.ownsPin]
theorem State.CacheWork.me {s t : State} (h : s.CacheWork t) : t.me = s.me := by obtain ⟨_, _, _, _, _, _, rfl⟩ := h; rfl

section
variable {u : State} {t : Thread} {ls : List Piece}
  (hls : ∀ l ∈ ls, l.pkg = u.me ∧ ∀ p, u.pinOf l = some p → u.ownsPin t.tid p = false)
include hls

theorem State.foldl_cleanHome {z : State} (h : u.CacheWork z) : ls.foldl (State.cleanHome t) z =
    ls.foldl (fun z l => if (u.pinOf l).isSome then z else z.cleanLines (· == l.off)) z := by
  induction ls generalizing z with
  | nil => rfl
  | cons l ls ih =>
    obtain ⟨hl, ho⟩ := hls l List.mem_cons_self
    have hstep : z.cleanHome t l = if (u.pinOf l).isSome then z else z.cleanLines (· == l.off) := by
      rw [State.cleanHome_other (hl.trans h.me.symm) (fun p hp => by rw [h.ownsPin]; exact ho p (h.pinOf l ▸ hp)), h.pinOf]
    rw [List.foldl_cons, List.foldl_cons, hstep]
    exact ih (fun l hl => hls l (List.mem_cons_of_mem _ hl)) (h.trans (.ite (.refl z) (z.cacheWork_cleanLines _)))
theorem State.cleanHere_others : u.cleanHere t ls =
    .ok (ls.foldl (fun z l => if (u.pinOf l).isSome then z else z.cleanLines (· == l.off)) u) := by
  have hown : (ls.filterMap u.pinOf).filter (u.ownsPin t.tid) = [] := by
    rw [List.filter_eq_nil_iff]
    intro p hp
    obtain ⟨l, hl, hlp⟩ := List.mem_filterMap.mp hp
    simp [(hls l hl).2 p hlp]
  simp only [State.cleanHere, hown, List.any_nil, Bool.false_eq_true, if_false, State.foldl_cleanHome hls (.refl u)]

end

section
variable {m : Mark} {a b : Reg} {s : State} (hi : Issues (.cwb m a b) s)
include hi

theorem traps_cwb_wraps (hw : wraps (s.th.gr a) (s.th.gr b) = true) : Traps (.cwb m a b) s ⟨.illstate, 0, s.th.pc⟩ :=
  traps_of (exec_cwb ..) hi (if_pos hw)

variable (hw : wraps (s.th.gr a) (s.th.gr b) = false)
include hw

theorem traps_cwb_check {x : Trap} (hp : s.pieces s.th.acc .read (s.th.gr a) (s.th.gr b).toNat = .error x) :
    Traps (.cwb m a b) s x :=
  traps_of (exec_cwb ..) hi (by simp only [hw, State.rangeLines_fault hp, Bool.false_eq_true, if_false])

variable {ps ls : List Piece} {u : State} (hr : s.rangeLines .read (s.th.gr a) (s.th.gr b).toNat = .ok (ps, ls, u))
include hr

theorem holds_cwb (ha : u.accessWaits s.th.acc ps = true) : exec (.cwb m a b) s = .next (u.holding 2) :=
  holds_of (exec_cwb ..) hi (by simp only [hw, hr, ha, Bool.false_eq_true, if_false, if_true])
theorem exec_cwb_of_near (ha : u.accessWaits s.th.acc ps = false) (hls : ∀ l ∈ ls, l.pkg = u.me) :
    exec (.cwb m a b) s = s.finish (.cwb m a b) (u.cleanHere s.th ls) := by
  have hfar : ls.filter (fun l => l.pkg != u.me && (u.pinOf l).isNone) = [] :=
    List.filter_eq_nil_iff.mpr (fun l hl => by simp [hls l hl])
  refine ((exec_cwb ..).trans (State.issue_body hi)).trans (congrArg _ ?_)
  simp only [hw, hr, ha, hfar, State.homesAnswer_nil, Bool.false_eq_true, if_false]
  rfl

end

-- CINV

section
variable {m : Mark} {a b : Reg} {s : State} (hi : Issues (.cinv m a b) s)
include hi

theorem traps_cinv_wraps (hw : wraps (s.th.gr a) (s.th.gr b) = true) : Traps (.cinv m a b) s ⟨.illstate, 0, s.th.pc⟩ :=
  traps_of (exec_cinv ..) hi (if_pos hw)

variable (hw : wraps (s.th.gr a) (s.th.gr b) = false)
include hw

theorem traps_cinv_check {x : Trap} (hp : s.pieces s.th.acc .read (s.th.gr a) (s.th.gr b).toNat = .error x) :
    Traps (.cinv m a b) s x :=
  traps_of (exec_cinv ..) hi (by simp only [hw, State.rangeLines_fault hp, Bool.false_eq_true, if_false])

variable {ps ls : List Piece} {u : State} (hr : s.rangeLines .read (s.th.gr a) (s.th.gr b).toNat = .ok (ps, ls, u))
include hr

theorem holds_cinv (ha : u.accessWaits s.th.acc ps = true) : exec (.cinv m a b) s = .next (u.holding 2) :=
  holds_of (exec_cinv ..) hi (by simp only [hw, hr, ha, Bool.false_eq_true, if_false, if_true])
theorem completes_cinv (ha : u.accessWaits s.th.acc ps = false) (hls : ∀ l ∈ ls, l.pkg = u.me) : Completes (.cinv m a b) s
    ((ls.filter (fun l => (u.pinOf l).isNone)).foldl (fun z l => z.dropLines (· == l.off) false) u) := by
  have hnear : ∀ l ∈ ls.filter (fun l => (u.pinOf l).isNone), l.pkg = u.me := fun l hl => hls l (List.mem_filter.mp hl).1
  refine completes_of (exec_cinv ..) hi ?_
  simp only [hw, hr, ha, filter_far_eq_nil hnear, filter_near_eq_self hnear, State.homesAnswer_nil, Bool.false_eq_true, if_false]

end

/-- Settles O43: the three by their range and its lines; with every line on this package no home is asked. -/
theorem cacheMaintenance : Obligations.CacheMaintenance := by
  refine ⟨?wraps, ?checks, ?discard, fun s dom rin line x h => State.discardLine_ms rin x h, ?cwb, ?cinv⟩
  case wraps =>
    exact fun m a b s hw => ⟨fun hi => traps_discard_wraps hi hw, fun hi => traps_cwb_wraps hi hw, fun hi => traps_cinv_wraps hi hw⟩
  case checks =>
    exact fun m a b s x hw => ⟨fun hp hi => traps_discard_check hi hw hp,
      fun hp => ⟨fun hi => traps_cwb_check hi hw hp, fun hi => traps_cinv_check hi hw hp⟩⟩
  case discard =>
    exact fun m a b s u ps ls hw hi hr => ⟨holds_discard hi hw hr, fun l ha hl => traps_discard_pinned hi hw hr ha hl,
      completes_discard hi hw hr⟩
  case cwb =>
    intro m a b s u ps ls hw hi hr
    refine ⟨holds_cwb hi hw hr, fun ha hls => ?free, fun l p ha hl hpkg hp ho => ?own, fun ha hls => ?others⟩
    case free =>
      have hex := exec_cwb_of_near hi hw hr ha (fun l hl => (hls l hl).1)
      have hclean := State.cleanHere_others (t := s.th) (fun l hl => ⟨(hls l hl).1, fun p hp => nomatch (hls l hl).2.symm.trans hp⟩)
      rw [List.foldl_ext _ _ _ (fun z l hl => if_neg (by simp [(hls l hl).2]))] at hclean
      exact completes_of_finish hex hclean
    case own =>
      intro v e hv
      subst hl
      refine completes_of_finish (exec_cwb_of_near hi hw hr ha (by simpa using hpkg)) ?_
      simp only [State.cleanHere, List.foldl_cons, List.foldl_nil, State.cleanHome_own hp ho]
      exact if_neg (by simpa [hp, ho] using hv)
    case others =>
      exact completes_of_finish (exec_cwb_of_near hi hw hr ha (fun l hl => (hls l hl).1)) (State.cleanHere_others hls)
  case cinv => exact fun m a b s u ps ls hw hi hr => ⟨holds_cinv hi hw hr, completes_cinv hi hw hr⟩

end Sys2Proof.Machine
end

section
/-! PROOFS. Atomics (13:R168-R169, 19:R253). -/

namespace Sys2Proof.Machine
open Sys2Proof

-- The nine instructions

/-- The instruction is an atomic of `n` bytes: its operation, whether its old value is sign-extended, its operands and its order. -/
def AtomicForm (i : Instr) (f : AOp) (n : Nat) (sg : Bool) (d a b : Reg) (o : BitVec 2) : Prop :=
  (∃ m x w, i = .aadd m d a b o x w ∧ f = .add ∧ n = (if w = 1 then 4 else 8) ∧ sg = false) ∨
  (∃ m x w, i = .aand m d a b o x w ∧ f = .and ∧ n = (if w = 1 then 4 else 8) ∧ sg = false) ∨
  (∃ m x w, i = .aor m d a b o x w ∧ f = .or ∧ n = (if w = 1 then 4 else 8) ∧ sg = false) ∨
  (∃ m x w, i = .axor m d a b o x w ∧ f = .xor ∧ n = (if w = 1 then 4 else 8) ∧ sg = false) ∨
  (∃ m x w, i = .aswp m d a b o x w ∧ f = .swp ∧ n = (if w = 1 then 4 else 8) ∧ sg = false) ∨
  (∃ m x w u, i = .amin m d a b o x w u ∧ f = .min (u == 1) ∧ n = (if w = 1 then 4 else 8) ∧ sg = (u == 0)) ∨
  (∃ m x w u, i = .amax m d a b o x w u ∧ f = .max (u == 1) ∧ n = (if w = 1 then 4 else 8) ∧ sg = (u == 0)) ∨
  (∃ m x w, i = .acas m d a b o x w ∧ f = .cas ∧ n = (if w = 1 then 4 else 8) ∧ sg = false) ∨
  (∃ m x, i = .afadd m d a b o x ∧ f = .fadd ∧ n = 4 ∧ sg = false)

/-- All nine are the one access `State.atomic`. -/
theorem AtomicForm.exec_eq {i : Instr} {f : AOp} {n : Nat} {sg : Bool} {d a b : Reg} {o : BitVec 2} {s : State} (hi : Issues i s)
    (hform : AtomicForm i f n sg d a b o) : exec i s = s.finish i (s.atomic f n sg d a b o) := by
  have hissue : exec i s = s.issue i (fun s => s.atomic f n sg d a b o) := by
    obtain ⟨_, _, _, rfl, rfl, rfl, rfl⟩ | ⟨_, _, _, rfl, rfl, rfl, rfl⟩ | ⟨_, _, _, rfl, rfl, rfl, rfl⟩ |
      ⟨_, _, _, rfl, rfl, rfl, rfl⟩ | ⟨_, _, _, rfl, rfl, rfl, rfl⟩ | ⟨_, _, _, _, rfl, rfl, rfl, rfl⟩ |
      ⟨_, _, _, _, rfl, rfl, rfl, rfl⟩ | ⟨_, _, _, rfl, rfl, rfl, rfl⟩ | ⟨_, _, rfl, rfl, rfl, rfl⟩ := hform <;> rfl
  exact hissue.trans (State.issue_body hi)

-- The outcomes of the access

/-- The outstanding result of an atomic whose old value comes from `src` (13:R168). -/
def AOp.outst (f : AOp) (n : Nat) (sg : Bool) (d : Reg) (y : Nat) (acq : Bool) (p : Piece) (src : Part) : Outst :=
  ⟨d, [], .parts [src] (if f = .fadd then .afadd y else .old n sg), none, loadOrd acq [p]⟩

section
variable {s : State} {f : AOp} {n : Nat} {sg : Bool} {d a b : Reg} {o : BitVec 2}

theorem State.atomic_misaligned (h : (s.th.gr a).toNat % n ≠ 0) : s.atomic f n sg d a b o = .trap ⟨.align, 0, s.th.gr a⟩ := if_pos h

variable (hal : (s.th.gr a).toNat % n = 0)
include hal

theorem State.atomic_fault {x : Trap} (hp : s.atomicPieces s.th.acc (s.th.gr a) n false = .error x) :
    s.atomic f n sg d a b o = .trap x := by
  simp only [State.atomic, hal, hp, ne_eq, not_true_eq_false, if_false]

section
variable {ps : List Piece} {u : State} (hp : s.atomicPieces s.th.acc (s.th.gr a) n false = .ok (ps, u)) (hd : s.th.countsBy d = false)
include hp hd

theorem State.atomic_unreleased (hrel : bitOf o.toNat 1 = true) (hm : s.mayRelease s.th = false) :
    s.atomic f n sg d a b o = .hold 2 s := by
  simp [State.atomic, hal, hp, hd, hrel, hm]

end

variable {p : Piece} {u : State} (hp : s.atomicPieces s.th.acc (s.th.gr a) n false = .ok ([p], u)) (hd : s.th.countsBy d = false)
  (hm : bitOf o.toNat 1 = true → s.mayRelease s.th = true) (hw : u.accessWaits s.th.acc [p] = false)
  (hblk : u.storeBlock s.th.acc [p] = none)
include hp hd hm hw hblk

/-- On this package it is made at once: the result is outstanding where one is awaited. -/
theorem State.atomic_made {old : List Byte} {e : State} (hpkg : p.pkg = u.me)
    (h : u.atomicPiece s.th.acc p (fun v => f.eval n v ((s.th.gr b).toNat % 2 ^ (8 * n)) ((s.th.gr d).toNat % 2 ^ (8 * n))) = .ok (old, e)) :
    s.atomic f n sg d a b o = .ok (if d ≠ 0 ∨ f = .fadd ∨ bitOf o.toNat 0 = true then
      e.await (f.outst n sg d ((s.th.gr b).toNat % 2 ^ (8 * n)) (bitOf o.toNat 0) p (.have old)) else e) := by
  simp [State.atomic, AOp.outst, hal, hp, hd, not_unreleased hm, hw, hblk, hpkg, h, or_assoc]
theorem State.atomic_refused {x : Trap} (hpkg : p.pkg = u.me)
    (h : u.atomicPiece s.th.acc p (fun v => f.eval n v ((s.th.gr b).toNat % 2 ^ (8 * n)) ((s.th.gr d).toNat % 2 ^ (8 * n))) = .error x) :
    s.atomic f n sg d a b o = .ok (u.refuseD s.th.tid x) := by
  simp [State.atomic, hal, hp, hd, not_unreleased hm, hw, hblk, hpkg, h]

variable (hpkg : p.pkg ≠ u.me) (hpin : u.pinOfFar p.pa = none) (hlive : u.pkgLive p.pkg = true)
include hpkg hpin hlive

/-- To another package the operation is sent; its result is awaited under the request's tag. -/
theorem State.atomic_sent (hres : d ≠ 0 ∨ f = .fadd ∨ bitOf o.toNat 0 = true) :
    let y := (s.th.gr b).toNat % 2 ^ (8 * n)
    s.atomic f n sg d a b o = .ok
      ((u.request s.th.acc (.acc .atomic) p (f.payload n y ((s.th.gr d).toNat % 2 ^ (8 * n)))).2.await
        (f.outst n sg d y (bitOf o.toNat 0) p (.wait u.fresh 0 n (s.th.gr a) p.pa))) := by
  have hlong : (d != 0 || f == .fadd || bitOf o.toNat 0) = true := by simpa [or_assoc] using hres
  have hfar : (p.pkg != u.me && ((u.pinOfFar p.pa).filter (u.ownsPin s.th.tid)).isNone) = true := by simp [hpkg, hpin]
  simp only [State.atomic, AOp.outst, hal, hp, hd, not_unreleased hm, hw, hblk, hfar, hlive, hlong, ne_eq, not_true_eq_false, if_false,
    if_true, Bool.not_true, Bool.false_eq_true, beq_iff_eq, State.request]
/-- One that awaits no result is a posted store. -/
theorem State.atomic_posted (hz : d = 0) (hf : f ≠ .fadd) (hacq : bitOf o.toNat 0 = false) :
    let v := (u.request s.th.acc (.acc .atomic) p
      (f.payload n ((s.th.gr b).toNat % 2 ^ (8 * n)) ((s.th.gr d).toNat % 2 ^ (8 * n)))).2
    s.atomic f n sg d a b o = .ok (v.posts
      { Posted.of u.fresh s.th.tid (s.th.gr a) p.pa (p.oc == 1) ((v.nodeOf s.th.dom).getD 0) with atom := true }) := by
  have hlong : (d != 0 || f == .fadd || bitOf o.toNat 0) = false := by simp [hz, hf, hacq]
  have hfar : (p.pkg != u.me && ((u.pinOfFar p.pa).filter (u.ownsPin s.th.tid)).isNone) = true := by simp [hpkg, hpin]
  simp only [State.atomic, hal, hp, hd, not_unreleased hm, hw, hblk, hfar, hlive, hlong, ne_eq, not_true_eq_false, if_false,
    if_true, Bool.not_true, Bool.false_eq_true, State.request]

end

-- The target of an atomic

section
variable {s u : State} {a : Acc} {va : Word} {n : Nat} {ps : List Piece}

/-- An atomic is outside neither memory nor its partition: no piece is one that a larder would hold (13:R169, 21:R270). -/
theorem State.atomicLeaves_inside (h : s.atomicLeaves a va n false = .ok (ps, u)) {p : Piece} (hp : p ∈ ps) :
    regionOf p.off ≠ .mmio ∧ regionOf p.off ≠ .host ∧ leafXt p.leaf = false := by
  unfold State.atomicLeaves at h
  split at h
  next => cases h
  next =>
    dsimp only at h
    split at h <;> cases h
    next hout _ _ =>
      have hin := List.find?_eq_none.mp hout p hp
      simp only [Bool.not_false, Bool.true_and, Bool.or_eq_true, beq_iff_eq, not_or, Bool.not_eq_true] at hin
      exact ⟨hin.1, hin.2.2, hin.2.1⟩
theorem State.atomicLeaves_of_atomicPieces {flag : Bool} (h : s.atomicPieces a va n flag = .ok (ps, u)) :
    s.atomicLeaves a va n flag = .ok (ps, u) := by
  unfold State.atomicPieces at h
  split at h
  next => cases h
  next hl => split at h <;> cases h; exact hl
theorem State.held_of_atomicPieces (h : s.atomicPieces a va n false = .ok (ps, u)) {p : Piece} (hp : p ∈ ps) (t : State) :
    t.held a p = false := by
  obtain ⟨hmmio, hhost, hxt⟩ := State.atomicLeaves_inside (State.atomicLeaves_of_atomicPieces h) hp
  simp [State.held, hmmio, hhost, hxt]

end

/-- An access ends in its refusal, or is made where it has none. -/
def EndsIn {α : Type} (refusal : Option Trap) (r : Except Trap α) : Prop :=
  (∀ x, refusal = some x → r = .error x) ∧ (refusal = none → ∃ y, r = .ok y)

theorem EndsIn.ok {α : Type} (y : α) : EndsIn none (.ok y) := ⟨fun _ h => (nomatch h), fun _ => ⟨y, rfl⟩⟩
theorem EndsIn.error {α : Type} (x : Trap) : EndsIn (α := α) (some x) (.error x) :=
  ⟨fun _ h => congrArg _ (Option.some.inj h), fun h => nomatch h⟩
/-- A pinned line refuses all but its owners. -/
theorem EndsIn.owned {α : Type} (own : Bool) (x : Trap) (y : α) :
    EndsIn (if own then none else some x) (if !own then .error x else .ok y) := by
  cases own with
  | true => exact .ok y
  | false => exact .error x

/-- The refusals of a store are those of an atomic. -/
theorem State.atomicPiece_endsIn {s : State} {a : Acc} {p : Piece} (hpkg : p.pkg = s.me) (hheld : s.held a p = false)
    (f : Nat → Option Nat) (rin : Nat) : EndsIn (s.refusal a p) (s.atomicPiece a p f rin) := by
  unfold State.refusal State.atomicPiece
  simp only [hpkg, hheld, bne_self_eq_false, Bool.or_self, Bool.false_eq_true, if_false]
  cases hr : regionOf p.off with
  | dram =>
    cases hl : lineOf p.off with
    | none => exact .ok _
    | some line =>
      dsimp only [Option.bind_some]
      cases hpin : s.pinOfHome line with
      | some pin => exact .owned ..
      | none =>
        dsimp only
        split
        · exact .ok _
        · exact .ok _
        · split <;> exact .ok _
  | tiles =>
    dsimp only
    split
    · exact .error _
    · split
      · exact .ok _
      · cases hpin : s.pinOfSram p.slot.1 (p.slot.2 / 192) with
        | some pin => exact .owned ..
        | none => exact .ok _
  | host | mmio | reserved => exact .ok _

-- An atomic on a line of DRAM

theorem State.onThread_ms (s : State) (tid : Nat) (f : Thread → Thread) : (s.onThread tid f).ms = s.ms := by
  unfold State.onThread
  split
  next => unfold State.setThread; split <;> rfl
  next => rfl
theorem State.writeLine_mem (s : State) (line rin off : Nat) (bs : List Byte) :
    (s.writeLine line rin off bs).ms.mem = writeBytes s.ms.mem off bs := by
  unfold State.writeLine
  split <;> rfl
theorem State.writeLine_waits (s : State) (line rin off : Nat) (bs : List Byte) : (s.writeLine line rin off bs).ms.waits = s.ms.waits := by
  unfold State.writeLine
  split <;> rfl

/-- The state in which an atomic reads its bytes, made of the one whose tag is set: the line is in the cache, a miss is counted. -/
def State.atomicReady (s : State) (a : Acc) (line : Nat) (p : Piece) : State :=
  let r := s.cacheAccess a.tile a.dom line (sectorMask line p.off p.n) true a.cp
  if r.2 then r.1.onThread a.tid (fun t => t.countEv 5 1) else r.1

section
variable (s : State) (a : Acc) (line : Nat) (p : Piece)

theorem State.atomicReady_ms : (s.atomicReady a line p).ms =
    (s.cacheAccess a.tile a.dom line (sectorMask line p.off p.n) true a.cp).1.ms := by
  unfold State.atomicReady
  dsimp only
  split
  · exact State.onThread_ms ..
  · rfl
theorem State.atomicReady_mem : (s.atomicReady a line p).ms.mem = s.ms.mem := by
  rw [State.atomicReady_ms, (s.cacheWork_cacheAccess ..).mem]
theorem State.atomicReady_waits : (s.atomicReady a line p).ms.waits = s.ms.waits := by
  rw [State.atomicReady_ms, (s.cacheWork_cacheAccess ..).waits]

end

theorem State.TagWork.mem {s t : State} (h : s.TagWork t) : t.ms.mem = s.ms.mem := by obtain ⟨⟨_, _, _, _, rfl⟩, _⟩ := h; rfl
theorem State.TagWork.waits {s t : State} (h : s.TagWork t) : t.ms.waits = s.ms.waits := by obtain ⟨⟨_, _, _, _, rfl⟩, _⟩ := h; rfl

/-- After the write of an atomic, which wakes the line; nothing happens where its operation writes nothing. -/
def State.atomicStored (s : State) (line rin : Nat) (p : Piece) : Option Nat → State
  | some x => (s.writeLine line rin p.off (leBytes p.n x)).wakeLine line
  | none => s

theorem State.atomicPiece_dram {s v : State} {a : Acc} {p : Piece} {f : Nat → Option Nat} {rin l : Nat} (hpkg : p.pkg = s.me)
    (hr : regionOf p.off = .dram) (hl : lineOf p.off = some l) (hpin : s.pinOfHome l = none)
    (ht : s.tagged a.dom l rin p.off ((s.memberOf a.tid).isSome || a.who.isNone) = .ok v) :
    let u := v.atomicReady a l p
    s.atomicPiece a p f rin = .ok (u.read p.off p.n, u.atomicStored l rin p (f (leNat (u.read p.off p.n)))) := by
  simp only [State.atomicPiece, hpkg, hr, hl, hpin, ht, bne_self_eq_false, Bool.false_eq_true, if_false]
  cases hx : f (leNat ((v.atomicReady a l p).read p.off p.n)) with
  | none | some x =>
    unfold State.atomicReady at hx
    simp only [hx]
    rfl

theorem State.atomicStored_mem {s : State} {line : Nat} (rin : Nat) (p : Piece) (h : ∀ w ∈ s.ms.waits, w.line ≠ line)
    (r : Option Nat) :
    (s.atomicStored line rin p r).ms.mem = r.elim s.ms.mem (fun x => writeBytes s.ms.mem p.off (leBytes p.n x)) := by
  cases r with
  | none => rfl
  | some x =>
    have hnone : ∀ w ∈ (s.writeLine line rin p.off (leBytes p.n x)).ms.waits, w.line ≠ line := by rwa [State.writeLine_waits]
    rw [State.atomicStored, State.wakeLine_ms hnone, State.writeLine_mem, Option.elim_some]

-- The values of the operations

section
variable {k n : Nat} (hk : 8 * n = k) (x y c : BitVec k)
include hk

theorem AOp.eval_add : AOp.eval .add n x.toNat y.toNat c.toNat = some (x + y).toNat := by
  subst hk
  rw [BitVec.toNat_add]
  rfl
theorem AOp.eval_min_signed (hn : 0 < n) : AOp.eval (.min false) n x.toNat y.toNat c.toNat = some (if x.slt y then x else y).toNat := by
  subst hk
  have hw : 0 < 8 * n := by omega
  simp [AOp.eval, sInt_toNat _ hw, BitVec.slt_iff_toInt_lt, apply_ite BitVec.toNat]
theorem AOp.eval_max_signed (hn : 0 < n) : AOp.eval (.max false) n x.toNat y.toNat c.toNat = some (if x.slt y then y else x).toNat := by
  subst hk
  have hw : 0 < 8 * n := by omega
  simp [AOp.eval, sInt_toNat _ hw, BitVec.slt_iff_toInt_lt, apply_ite BitVec.toNat]

end

section
variable {k : Nat} (n : Nat) (x y c : BitVec k)

theorem AOp.eval_min_unsigned : AOp.eval (.min true) n x.toNat y.toNat c.toNat = some (if x.ult y then x else y).toNat := by
  simp [AOp.eval, BitVec.ult_iff_toNat_lt, apply_ite BitVec.toNat]
theorem AOp.eval_max_unsigned : AOp.eval (.max true) n x.toNat y.toNat c.toNat = some (if x.ult y then y else x).toNat := by
  simp [AOp.eval, BitVec.ult_iff_toNat_lt, apply_ite BitVec.toNat]
theorem AOp.eval_cas : AOp.eval .cas n x.toNat y.toNat c.toNat = if x = c then some y.toNat else none := by
  simp only [AOp.eval, BitVec.toNat_inj]

end

/-- Settles O20: the nine instructions by the outcome of their access, what it writes by the state in which it reads, the values by the
numbers of their patterns. -/
theorem atomicsComplete : Obligations.AtomicsComplete := by
  refine ⟨fun i s f n sg d a b o hi hform => ?accesses, fun s e a p f l old hpkg hr hl hpin hw ht hmade => ?line, ?words, ?halves⟩
  case accesses =>
    have hex := AtomicForm.exec_eq hi hform
    refine ⟨fun hal => traps_of_finish hex (State.atomic_misaligned hal), fun hal => ⟨fun x hp => ?fault,
      fun ps u hp hd hrel hm => ?unreleased, fun p u hp hd hm hw hblk => ?_⟩⟩
    case fault => exact traps_of_finish hex (State.atomic_fault hal hp)
    case unreleased => exact holds_of_finish hex (State.atomic_unreleased hal hp hd hrel hm)
    have hheld := State.held_of_atomicPieces hp (List.mem_singleton_self p) u
    refine ⟨fun hpkg hfree => ?made, fun x hpkg hx => ?refused, fun hpkg hpin hlive hres => ?sent,
      fun hpkg hpin hlive hz hf hacq => ?posted⟩
    case made =>
      obtain ⟨⟨old, e⟩, hmade⟩ := (State.atomicPiece_endsIn hpkg hheld _ _).2 hfree
      exact ⟨old, e, hmade, completes_of_finish hex (State.atomic_made hal hp hd hm hw hblk hpkg hmade)⟩
    case refused =>
      exact completes_of_finish hex (State.atomic_refused hal hp hd hm hw hblk hpkg ((State.atomicPiece_endsIn hpkg hheld _ _).1 x hx))
    case sent => exact completes_of_finish hex (State.atomic_sent hal hp hd hm hw hblk hpkg hpin hlive hres)
    case posted => exact completes_of_finish hex (State.atomic_posted hal hp hd hm hw hblk hpkg hpin hlive hz hf hacq)
  case line =>
    obtain ⟨v, ht⟩ := ht
    have hwork := State.tagWork_tagged ht
    have hmem : (v.atomicReady a l p).ms.mem = s.ms.mem := (v.atomicReady_mem a l p).trans hwork.mem
    have hnone : ∀ w ∈ (v.atomicReady a l p).ms.waits, w.line ≠ l := by rwa [State.atomicReady_waits, hwork.waits]
    have hread : (v.atomicReady a l p).read p.off p.n = s.read p.off p.n := by rw [State.read, hmem, State.read]
    rw [State.atomicPiece_dram hpkg hr hl hpin ht, hread] at hmade
    cases hmade
    refine ⟨rfl, ?_⟩
    rw [State.atomicStored_mem _ _ hnone, hmem]
    cases f (leNat (s.read p.off p.n)) <;> rfl
  case words =>
    exact fun x y c => ⟨AOp.eval_add (n := 8) rfl x y c, congrArg some (BitVec.toNat_and x y).symm,
      congrArg some (BitVec.toNat_or x y).symm, congrArg some (BitVec.toNat_xor x y).symm, rfl,
      AOp.eval_min_signed (n := 8) rfl x y c (by decide), AOp.eval_max_signed (n := 8) rfl x y c (by decide),
      AOp.eval_min_unsigned 8 x y c, AOp.eval_max_unsigned 8 x y c, AOp.eval_cas 8 x y c⟩
  case halves =>
    exact fun x y c => ⟨AOp.eval_add (n := 4) rfl x y c,
      AOp.eval_min_signed (n := 4) rfl x y c (by decide), AOp.eval_max_signed (n := 4) rfl x y c (by decide)⟩

end Sys2Proof.Machine
end

section
/-! PROOFS. Taking an exception (03:R30-R31, R35, 07:R88, 15:R207). -/

namespace Sys2Proof.Machine
open Sys2Proof

-- The end of a turn

theorem State.passOn_cases (s : State) (k : Nat) : (∃ j, s.passOn k = s.grant j) ∨ s.passOn k = s := by
  unfold State.passOn
  split
  · exact .inl ⟨_, rfl⟩
  · split
    · exact .inl ⟨_, rfl⟩
    · exact .inr rfl
theorem Thread.slotGiven_holder (k : Nat) (t : Thread) :
    ∃ b, t.slotGiven k = { t with flow := { t.flow with holder := b } } := by
  unfold Thread.slotGiven
  split <;> exact ⟨_, rfl⟩
theorem Sole.thread_grant {s : State} (h : Sole s) (k : Nat) :
    ∃ b, (s.grant k).thread? s.th.tid = some { s.th with flow := { s.th.flow with holder := b } } := by
  have hp (t : Thread) : t.Progresses (t.slotGiven k) := by
    obtain ⟨f, hf⟩ := t.slotGiven_eq k
    exact ⟨_, _, f, hf⟩
  obtain ⟨b, hb⟩ := s.th.slotGiven_holder k
  have hth : (s.mapThreads (Thread.slotGiven k)).th = { s.th with flow := { s.th.flow with holder := b } } := by
    simp [State.mapThreads, h.1, hb]
  have hu := (h.mapThreads hp).thread_focus k
  rw [hth] at hu
  exact ⟨b, hu⟩
/-- A suspension point leaves of the thread everything but whether it holds its issue slot. -/
theorem Sole.thread_suspend {s : State} (h : Sole s) :
    ∃ b, s.suspend.thread? s.th.tid = some { s.th with flow := { s.th.flow with holder := b } } := by
  have hr : Sole (s.restartWatchdog s.th.tid) := h
  unfold State.suspend
  obtain ⟨j, hj⟩ | hj := (s.restartWatchdog s.th.tid).passOn_cases s.th.tid <;> rw [hj]
  · exact hr.thread_grant j
  · exact ⟨_, hr.thread⟩

-- Entry to a handler

/-- The thread at the vector `vec` of the mode `m`, its trap `y` and restart point saved in that mode's bank (15:R207). -/
def Thread.inHandler (t : Thread) (y : Trap) (m : Priv) (vec epc : Word) : Thread :=
  { t.setBank m { t.bank m with
      epc := epc, estat := pack [(b2n t.flow.packet.isSome, 3), (1, 2), (t.priv.code, 0)],
      cause := pack [(y.sub, 8), (y.cause.code, 0)], tval := y.tval } with
    priv := m, pc := vec, status := .ready,
    flow := { t.flow with
      bypass := [], chain := none, group := none, jumped := false, packet := none, pend := none, hold := 0, heldReads := [],
      waitVa := none, waitAt := none, irr := 0, decoded := false } }

theorem State.enterTrap_of_redirect {s : State} {x y : Trap} {m : Priv} (epc : Word) (h : s.redirect s.th x = .ok (y, m)) :
    s.enterTrap x epc = State.suspend { s with th := s.th.inHandler y m (s.tvec m s.th.dom) epc } := by
  unfold State.enterTrap
  dsimp only
  rw [h]
  simp only [Thread.inHandler, Thread.setBank_flow, Thread.setBank_dom]

section
variable (t : Thread) (y : Trap) (m : Priv) (vec epc : Word)

@[simp] theorem Thread.inHandler_live : (t.inHandler y m vec epc).live = t.live := by simp [Thread.inHandler]
@[simp] theorem Thread.inHandler_tid : (t.inHandler y m vec epc).tid = t.tid := by simp [Thread.inHandler]
/-- The bank of the handling mode holds the trap, with the scratch register it had. -/
theorem Thread.inHandler_bank : (t.inHandler y m vec epc).bank m = { t.bank m with
    epc := epc, estat := pack [(b2n t.flow.packet.isSome, 3), (1, 2), (t.priv.code, 0)],
    cause := pack [(y.sub, 8), (y.cause.code, 0)], tval := y.tval } := by
  cases m <;> rfl
/-- The bank of the other mode stays. -/
theorem Thread.inHandler_otherBank :
    (m = .h → (t.inHandler y m vec epc).sb = t.sb) ∧ (m ≠ .h → (t.inHandler y m vec epc).hb = t.hb) := by
  cases m <;> simp [Thread.inHandler, Thread.setBank]
theorem Thread.inHandler_kept : let u := t.inHandler y m vec epc
    u.regs = t.regs ∧ u.win = t.win ∧ u.fx = t.fx ∧ u.lp0 = t.lp0 ∧ u.lp1 = t.lp1 := by
  simp [Thread.inHandler]

end

-- A fault with no result outstanding

theorem Thread.capture_of_no_results {t : Thread} (h : t.flow.outs = []) : t.capture = t := by
  rw [Thread.capture, h, List.map_nil, ← h]
theorem State.settle_of_no_results {s : State} (h : s.th.flow.outs = []) : s.settle = ([], s) := by
  simp only [State.settle, Thread.capture_of_no_results h, h, State.settleFrom]
  rw [← h]
theorem sortTraps_singleton (x : Trap) : sortTraps [x] = [x] := by
  obtain ⟨c, sub, v⟩ := x
  cases c <;> rfl

/-- A park with nothing outstanding takes the fault that waits for it. -/
theorem State.takePark_of_pend {s : State} {x : Trap} {epc : Word} (ho : s.th.flow.outs = []) (hp : s.th.flow.pend = some (x, epc)) :
    s.takePark = s.enterTrap x epc := by
  have hall : (if s.th.flow.decoded then [x] ++ sortTraps [] else sortTraps ([] ++ [x])) = [x] := by
    split
    · rfl
    · exact sortTraps_singleton x
  simp only [State.takePark, State.settle_of_no_results ho, hp, hall, List.map_nil]
  rw [← hp]
  rfl

/-- The thread that gives up its run's chain, group and bypass for the fault `x` (07:R88). -/
def Thread.faulting (t : Thread) (x : Trap) (epc : Word) : Thread :=
  { t with flow := { t.flow with
      bypass := [], chain := none, group := none, jumped := false, hold := 0, heldReads := [], pend := some (x, epc) } }

/-- A fault of a thread with no result outstanding is taken at once. -/
theorem State.raise_of_no_results {s : State} (x : Trap) (epc : Word) (h : s.th.flow.outs = []) :
    s.raise x epc = State.enterTrap { s with th := s.th.faulting x epc } x epc := by
  have hdone : (s.th.faulting x epc).outsDone = true := by simp [Thread.outsDone, Thread.faulting, h]
  exact (if_pos hdone).trans (State.takePark_of_pend (s := { s with th := s.th.faulting x epc }) h rfl)

/-- Settles O23: the thread enters its handler by `inHandler`, and the suspension point that follows leaves it so. -/
theorem takingAnException : Obligations.TakingAnException := by
  refine ⟨fun s x y m epc hs hr => ?enters, fun s x epc h => ?taken⟩
  case enters =>
    rw [State.enterTrap_of_redirect epc hr]
    have hs' : Sole { s with th := s.th.inHandler y m (s.tvec m s.th.dom) epc } := by simpa [Sole] using hs
    obtain ⟨b, hb⟩ := hs'.thread_suspend
    have hbank := s.th.inHandler_bank y m (s.tvec m s.th.dom) epc
    obtain ⟨hh, hsup⟩ := s.th.inHandler_otherBank y m (s.tvec m s.th.dom) epc
    obtain ⟨hregs, hwin, hfx, hlp0, hlp1⟩ := s.th.inHandler_kept y m (s.tvec m s.th.dom) epc
    refine ⟨_, (s.th.inHandler_tid ..) ▸ hb, rfl, rfl, ?_⟩
    exact ⟨congrArg TrapBank.epc hbank, congrArg TrapBank.tval hbank, congrArg TrapBank.cause hbank, congrArg TrapBank.estat hbank,
      (congrArg TrapBank.scr hbank :), hh, hsup, hregs, hwin, hfx, hlp0, hlp1, rfl, rfl, rfl, rfl, by simp⟩
  case taken =>
    exact ⟨_, State.raise_of_no_results x epc h, rfl, rfl, rfl, rfl, rfl, rfl, rfl, rfl, rfl⟩

end Sys2Proof.Machine
end

section
/-! PROOFS. TRAP, SVC, ERET and HALT (15:R203, R208-R209). -/

namespace Sys2Proof.Machine
open Sys2Proof

theorem exec_trap (m : Mark) (n : BitVec 15) (s : State) : exec (.trap m n) s = execTrap m n s := rfl
theorem exec_svc (m : Mark) (n : BitVec 15) (s : State) : exec (.svc m n) s = execSvc m n s := rfl
theorem exec_eret (m : Mark) (s : State) : exec (.eret m) s = execEret m s := rfl
theorem exec_halt (m : Mark) (s : State) : exec (.halt m) s = execHalt m s := rfl

section
variable {m : Mark} {n : BitVec 15} {s : State} (hi : Issues (.svc m n) s)
include hi

theorem exec_svc_serves (hp : s.th.priv ≠ .h) : exec (.svc m n) s =
    .next ((State.clock { s with th := s.th.past.countEv 2 1 }).raise ⟨.svc, 0, n.setWidth 64⟩ (s.th.pc + 4)) := by
  rw [exec_svc, execSvc, State.issue_body hi, if_neg hp, State.finish_trapAt]
  rfl
theorem traps_svc_highest (hp : s.th.priv = .h) : Traps (.svc m n) s ⟨.illstate, 0, s.th.pc⟩ :=
  traps_of (exec_svc ..) hi (if_pos hp)

end

/-- The mode that a trap bank has saved, 3 for the reserved one (15:R206). -/
def TrapBank.mode (b : TrapBank) : Nat := b.estat.toNat % 4

theorem TrapBank.bits_estat_mode (b : TrapBank) : bits b.estat.toNat 1 0 = b.mode := by simp [bits, TrapBank.mode]

/-- The thread after its return to the mode that its own mode's bank has saved, the bank left idle (15:R209). -/
def Thread.returned (t : Thread) : Thread :=
  let b := t.bank t.priv
  { t.setBank t.priv { b with estat := pack [(b.estat.toNat / 8 % 2, 3), (b.mode, 0)] } with
    priv := if b.mode = 0 then .u else if b.mode = 1 then .s else .h }

section
variable {s : State}

theorem State.returnTrap_badMode (h : (s.th.bank s.th.priv).mode = 3 ∨ privRank s.th.priv < (s.th.bank s.th.priv).mode) :
    s.returnTrap = .trap ⟨.illstate, 0, (s.th.bank s.th.priv).estat⟩ :=
  if_pos (by rwa [TrapBank.bits_estat_mode])
theorem State.returnTrap_of_mode (h3 : (s.th.bank s.th.priv).mode ≠ 3) (hle : (s.th.bank s.th.priv).mode ≤ privRank s.th.priv) :
    s.returnTrap = if (s.th.bank s.th.priv).epc.toNat % 4 ≠ 0 then .trap ⟨.align, 0, (s.th.bank s.th.priv).epc⟩
      else .jump .call (s.th.bank s.th.priv).epc { s with th := s.th.returned } := by
  refine (if_neg (by rw [TrapBank.bits_estat_mode]; exact not_or.mpr ⟨h3, hle.not_gt⟩)).trans ?_
  simp only [Thread.returned, TrapBank.bits_estat_mode]
  rfl

end

/-- Settles O26: TRAP and SVC by the mode they are in, ERET by what its mode's bank has saved. -/
theorem systemCallsAndReturns : Obligations.SystemCallsAndReturns := by
  refine ⟨⟨⟨rfl, rfl, rfl, rfl, rfl⟩, fun t h => ?restart, fun m n s hi => ?trap, fun m n s => exec_svc_serves,
    fun t => ⟨rfl, rfl, rfl, rfl, rfl⟩, fun m n s => traps_svc_highest, fun m s hi h3 hle hal => ?returns,
    fun m s hi h => ?badMode, fun m s hi h3 hle hal => ?misaligned⟩, fun m s hi => ?halt⟩
  case restart =>
    rw [Thread.faultPc, h]
    rfl
  case trap => exact traps_of (exec_trap ..) hi rfl
  case returns => exact jumps_of (exec_eret ..) hi ((State.returnTrap_of_mode h3 hle).trans (if_neg (not_not_intro hal)))
  case badMode => exact traps_of (exec_eret ..) hi (State.returnTrap_badMode h)
  case misaligned => exact traps_of (exec_eret ..) hi ((State.returnTrap_of_mode h3 hle).trans (if_pos hal))
  case halt => rw [exec_halt, execHalt, State.issue_body hi, State.finish_refuse]

end Sys2Proof.Machine
end

section
/-! PROOFS. GATE and GRET (15:R210-R212). -/

namespace Sys2Proof.Machine
open Sys2Proof

theorem exec_gate (m : Mark) (a : Reg) (s : State) : exec (.gate m a) s = execGate m a s := rfl
theorem exec_gret (m : Mark) (s : State) : exec (.gret m) s = execGret m s := rfl

-- GATE

/-- The gate `i` of the domain of `t` is in a call on its tile (15:R211). -/
def State.takeGate (s : State) (t : Thread) (i : Nat) : State :=
  s.setTile t.tile { s.tile t.tile with gates := (s.tile t.tile).gates ++ [(t.dom, i)] }

section
variable {m : Mark} {a : Reg} {s : State} (hi : Issues (.gate m a) s)
include hi

theorem traps_gate_noIndex (h : (s.cfg s.th.dom).gcnt ≤ (s.th.gr a).toNat) : Traps (.gate m a) s ⟨.illstate, 0, s.th.gr a⟩ :=
  traps_of (exec_gate ..) hi (if_pos h)

variable (hn : (s.th.gr a).toNat < (s.cfg s.th.dom).gcnt) {u : State} {bs : List Byte}
  (hr : s.ldHeld { s.th.acc with fn := 0, priv := .h } .read ((s.cfg s.th.dom).gtab + 32 * s.th.gr a) 32 = .ok bs u)
include hn hr

theorem traps_gate_noDescriptor (hg : gateOf bs = none) : Traps (.gate m a) s ⟨.illstate, 0, s.th.gr a⟩ :=
  traps_of (exec_gate ..) hi ((if_neg hn.not_ge).trans ((Held.andThen_of_ok hr).trans (by rw [hg])))

variable {g : Gate} (hg : gateOf bs = some g)
include hg

theorem traps_gate_noDomain (hd : (u.tile s.th.tile).dp? g.tdom = none) : Traps (.gate m a) s ⟨.illstate, 0, s.th.gr a⟩ :=
  traps_of (exec_gate ..) hi ((if_neg hn.not_ge).trans ((Held.andThen_of_ok hr).trans (by
    rw [hg]
    dsimp only
    rw [hd])))

variable {k : Nat} {d : Dp} (hd : (u.tile s.th.tile).dp? g.tdom = some (k, d))
include hd

theorem exec_gate_of_domain : exec (.gate m a) s = s.finish (.gate m a)
    (if s.th.caller.isSome || d.rlen < g.woff + g.gran then .trap ⟨.illstate, 0, s.th.gr a⟩
      else if (u.tile s.th.tile).gates.contains (s.th.dom, (s.th.gr a).toNat) || u.atRest g.tdom then .wait .waiting u
      else .jump .skip g.entry { u.takeGate s.th (s.th.gr a).toNat with
        th := u.th.enterGate (s.th.gr a).toNat g (d.rbase + g.woff) }) := by
  refine (exec_gate ..).trans ((State.issue_body hi).trans (congrArg _
    ((if_neg hn.not_ge).trans ((Held.andThen_of_ok hr).trans ?_))))
  rw [hg]
  dsimp only
  rw [hd]
  rfl
theorem traps_gate_noCall (h : s.th.caller.isSome = true ∨ d.rlen < g.woff + g.gran) :
    Traps (.gate m a) s ⟨.illstate, 0, s.th.gr a⟩ :=
  traps_of_finish (exec_gate_of_domain hi hn hr hg hd) (if_pos (by simpa using h))

variable (hc : s.th.caller = none) (hw : g.woff + g.gran ≤ d.rlen)
include hc hw

theorem waits_gate (h : (u.tile s.th.tile).gates.contains (s.th.dom, (s.th.gr a).toNat) = true ∨ u.atRest g.tdom = true) :
    exec (.gate m a) s = .next (u.waits .waiting) :=
  waits_of_finish (exec_gate_of_domain hi hn hr hg hd) ((if_neg (by simp [hc, hw])).trans (if_pos (by simpa using h)))
theorem exec_gate_enters (hfree : (u.tile s.th.tile).gates.contains (s.th.dom, (s.th.gr a).toNat) = false)
    (hrun : u.atRest g.tdom = false) : exec (.gate m a) s = .next (State.retireJump { u.takeGate s.th (s.th.gr a).toNat with
      th := u.th.enterGate (s.th.gr a).toNat g (d.rbase + g.woff) } s.th (.gate m a) .skip g.entry) := by
  rw [exec_gate_of_domain hi hn hr hg hd, if_neg (by simp [hc, hw]), if_neg (by simp only [hfree, hrun]; decide), State.finish_jump]

end

theorem Thread.enterGate_reg (t : Thread) (i : Nat) (g : Gate) (base : Nat) (k : Fin 32) : (t.enterGate i g base).regs[k] =
    if k.val = 0 then 0 else if k.val = 31 then 0 else if k.val = 30 then g.stk + BitVec.ofNat 64 ((t.tile + 1) * g.sstr)
    else if k.val ≤ g.pass then t.regs[k] else 0 := by
  simp [Thread.enterGate]

section
variable (t : Thread) (i base : Nat) {g : Gate} {k : Fin 32}

theorem Thread.enterGate_passes (hp : g.pass ≤ 29) (h0 : k.val ≠ 0) (hk : k.val ≤ g.pass) :
    (t.enterGate i g base).regs[k] = t.regs[k] := by
  rw [Thread.enterGate_reg, if_neg h0, if_neg (by omega), if_neg (by omega), if_pos hk]
theorem Thread.enterGate_clears (hk : g.pass < k.val) (h30 : k.val ≠ 30) : (t.enterGate i g base).regs[k] = 0 := by
  rw [Thread.enterGate_reg, if_neg h30, if_neg hk.not_ge]
  (repeat' split) <;> rfl

end

-- GRET

theorem lostResults_cons (o : Outst) (os : List Outst) (s : State) : ∃ (o' : Outst) (s' : State), o'.g = 0 ∧ o'.win = [] ∧
    lostResults (o :: os) s = (o' :: (lostResults os s').1, (lostResults os s').2) := ⟨_, _, rfl, rfl, rfl⟩
theorem lostResults_length (os : List Outst) (s : State) : (lostResults os s).1.length = os.length := by
  induction os generalizing s with
  | nil => rfl
  | cons o os ih =>
    obtain ⟨o', s', -, -, h⟩ := lostResults_cons o os s
    rw [h, List.length_cons, List.length_cons, ih]
theorem lostResults_noDestination (os : List Outst) (s : State) : ∀ o ∈ (lostResults os s).1, o.g = 0 ∧ o.win = [] := by
  induction os generalizing s with
  | nil => exact fun _ h => nomatch h
  | cons o os ih =>
    obtain ⟨o', s', hg, hw, h⟩ := lostResults_cons o os s
    rw [h]
    exact List.forall_mem_cons.mpr ⟨⟨hg, hw⟩, ih s'⟩

/-- A part `f` that a change `g` of every entry leaves is the same in the entry found. -/
theorem lookupD_map {α β : Type} (l : List (Nat × α)) (k : Nat) (d : α) {g : Nat × α → Nat × α} (f : α → β)
    (hk : ∀ p, (g p).1 = p.1) (hf : ∀ p, f (g p).2 = f p.2) : f (lookupD (l.map g) k d) = f (lookupD l k d) := by
  induction l with
  | nil => rfl
  | cons p l ih =>
    simp only [List.map_cons, lookupD, hk]
    split
    · exact hf p
    · exact ih

section
variable (s : State) {t : Thread} {c : Caller} (hc : t.caller = some c)

include hc in
theorem State.freeGate_of_caller : s.freeGate t =
    s.setTile t.tile { s.tile t.tile with gates := (s.tile t.tile).gates.erase (c.dom, c.gate) } := by
  rw [State.freeGate, hc]
include hc in
theorem State.endCall_gates : ((s.endCall t).tile t.tile).gates = (s.tile t.tile).gates.erase (c.dom, c.gate) := by
  rw [State.endCall, State.freeGate_of_caller _ hc, State.setTile_tile]
  refine congrArg (fun gs => List.erase gs (c.dom, c.gate)) ?_
  exact lookupD_map s.tiles t.tile .reset Tile.gates (fun _ => rfl) (fun _ => rfl)
theorem State.endCall_ms : (s.endCall t).ms = s.ms := by
  unfold State.endCall State.freeGate
  split <;> rfl
theorem State.endCall_eng : (s.endCall t).eng = s.eng := by
  unfold State.endCall State.freeGate
  split <;> rfl

end

section
variable {t : Thread} {c : Caller} (hc : t.caller = some c)
include hc

theorem Thread.leaveGate_of_caller : t.leaveGate = { t.callerBack with
    regs := Vector.ofFn (fun (k : Fin 32) => if k.val ≠ 0 ∧ k.val ≤ c.pass then t.regs[k.val] else c.regs[k.val]) } := by
  rw [Thread.leaveGate, hc]
theorem Thread.leaveGate_reg (k : Fin 32) :
    t.leaveGate.regs[k] = if k.val ≠ 0 ∧ k.val ≤ c.pass then t.regs[k] else c.regs[k] := by
  simp [Thread.leaveGate_of_caller hc]
/-- The caller has back what the call took of it. -/
theorem Thread.leaveGate_restores : let u := t.leaveGate
    u.pc = c.pc ∧ u.win = c.win ∧ u.dom = c.dom ∧ u.priv = c.priv ∧ u.guards = c.guards ∧ u.fx = c.fx ∧ u.caller = none := by
  simp [Thread.leaveGate_of_caller hc, Thread.callerBack, hc]

end

section
variable {m : Mark} {s : State} (hi : Issues (.gret m) s)
include hi

theorem traps_gret_noCall (hc : s.th.caller = none) : Traps (.gret m) s ⟨.illstate, 0, s.th.pc⟩ :=
  traps_of (exec_gret ..) hi (by
    dsimp only
    rw [hc])
theorem exec_gret_returns {c : Caller} (hc : s.th.caller = some c) :
    let r := lostResults s.th.flow.outs s
    let u := s.th.leaveGate
    let mq := u.flow.mq.map (fun (e : MEntry) => { e with cmd := e.cmd.gone false })
    exec (.gret m) s = .next (State.retireJump { r.2.endCall s.th with th := { u with flow := { u.flow with
      mq := mq, outs := r.1, asyncs := u.flow.asyncs.filter (·.cause != .sealto) } } } s.th (.gret m) .call c.pc) :=
  jumps_of (exec_gret ..) hi (by
    dsimp only
    rw [hc])

end

/-- Settles O45: GATE by its descriptor, the callee's domain and its gate; GRET by the caller that the thread keeps. -/
theorem gates : Obligations.Gates := by
  refine ⟨fun m a s u bs g k d hi hn hr hg hd hc hw => ⟨waits_gate hi hn hr hg hd hc hw, exec_gate_enters hi hn hr hg hd hc hw⟩,
    fun m a s => traps_gate_noIndex, fun m a s u bs hi hn hr h => ?traps, fun m s c hi hc => exec_gret_returns hi hc,
    fun os s => ⟨lostResults_length os s, lostResults_noDestination os s⟩,
    fun s t c hc => ⟨s.endCall_gates hc, s.endCall_ms, s.endCall_eng⟩, fun m s => traps_gret_noCall,
    fun t i base g k hp => ⟨t.enterGate_passes i base hp, t.enterGate_clears i base, ?stack, rfl, rfl, rfl, rfl⟩,
    fun t c k hc => ⟨Thread.leaveGate_reg hc k, Thread.leaveGate_restores hc⟩⟩
  case stack => exact t.enterGate_reg i g base 30
  case traps =>
    obtain hg | ⟨g, hg, hd | hc | ⟨k, d, hd, hw⟩⟩ := h
    · exact traps_gate_noDescriptor hi hn hr hg
    · exact traps_gate_noDomain hi hn hr hg hd
    · match hd : (u.tile s.th.tile).dp? g.tdom with
      | none => exact traps_gate_noDomain hi hn hr hg hd
      | some (k, d) => exact traps_gate_noCall hi hn hr hg hd (.inl hc)
    · exact traps_gate_noCall hi hn hr hg hd (.inr hw)

end Sys2Proof.Machine
end

section
/-! PROOFS. CTXSV, CTXLD, KILL and KILL.dom (15:R213, R216). -/

namespace Sys2Proof.Machine
open Sys2Proof

theorem exec_ctxsv (m : Mark) (d a : Reg) (s : State) : exec (.ctxsv m d a) s = execCtxsv m d a s := rfl
theorem exec_ctxld (m : Mark) (d a : Reg) (s : State) : exec (.ctxld m d a) s = execCtxld m d a s := rfl
theorem exec_kill (m : Mark) (a : Reg) (s : State) : exec (.kill m a) s = execKill m a s := rfl
theorem exec_killDom (m : Mark) (a : Reg) (s : State) : exec (.killDom m a) s = execKillDom m a s := rfl

-- CTXSV

/-- CTXSV of thread slot `x` of the tile, its own word `w`, with no stop of it asked for yet (15:R213). -/
def State.askToLeave (s : State) (d : Reg) (x w : Word) : Done :=
  let tid := s.th.tile * 16 + x.toNat
  if 15 < x.toNat then .trap ⟨.illstate, 0, x⟩
  else if tid = s.th.tid then .trap ⟨.illstate, 0, s.th.pc⟩
  else match s.thread? tid with
    | none => .ok (s.gw d 0)
    | some u =>
      if s.th.priv = .s ∧ u.home ≠ s.th.dom then .trap ⟨.priv, 0, w⟩
      else if (s.memberOf tid).isSome then .trap ⟨.illstate, 0, s.th.pc⟩
      else .hold 2 ((s.stopGang u 2).setCtx (some (tid, u.info.addr, false)))

section
variable {m : Mark} {d a : Reg} {s : State} (hi : Issues (.ctxsv m d a) s)
include hi

theorem exec_ctxsv_asks (hc : s.th.flow.ctx = none) : exec (.ctxsv m d a) s =
    s.finish (.ctxsv m d a) (s.askToLeave d (s.th.gr a) (wordVal (.ctxsv m d a))) := by
  refine (exec_ctxsv ..).trans ((State.issue_body hi).trans (congrArg _ ?_))
  dsimp only
  rw [hc]
  rfl
/-- The thread has left with its gang: its record's address is delivered where it was written. -/
theorem completes_ctxsv {k : Nat} {r : Word} {w : Bool} (hc : s.th.flow.ctx = some (k, r, w)) (hu : s.thread? k = none)
    (hmates : s.threads.any (fun u => u.tile == s.th.tile && u.tid != s.th.tid && (u.flow.preempt == 2 || u.flow.leave == 4)) = false) :
    Completes (.ctxsv m d a) s ((s.setCtx none).gw d (if w then r else 0)) :=
  completes_of (exec_ctxsv ..) hi (by
    dsimp only
    rw [hc]
    dsimp only
    rw [hu, hmates]
    rfl)

end

section
variable {s : State} {d : Reg} {x w : Word} (hx : x.toNat ≤ 15)
include hx

theorem State.askToLeave_self (ht : s.th.tile * 16 + x.toNat = s.th.tid) : s.askToLeave d x w = .trap ⟨.illstate, 0, s.th.pc⟩ :=
  (if_neg hx.not_gt).trans (if_pos ht)

variable (ht : s.th.tile * 16 + x.toNat ≠ s.th.tid)
include ht

theorem State.askToLeave_empty (hu : s.thread? (s.th.tile * 16 + x.toNat) = none) : s.askToLeave d x w = .ok (s.gw d 0) := by
  refine (if_neg hx.not_gt).trans ((if_neg ht).trans ?_)
  rw [hu]
theorem State.askToLeave_thread {u : Thread} (hu : s.thread? (s.th.tile * 16 + x.toNat) = some u) : s.askToLeave d x w =
    if s.th.priv = .s ∧ u.home ≠ s.th.dom then .trap ⟨.priv, 0, w⟩
    else if (s.memberOf (s.th.tile * 16 + x.toNat)).isSome then .trap ⟨.illstate, 0, s.th.pc⟩
    else .hold 2 ((s.stopGang u 2).setCtx (some (s.th.tile * 16 + x.toNat, u.info.addr, false))) := by
  refine (if_neg hx.not_gt).trans ((if_neg ht).trans ?_)
  rw [hu]

end

-- CTXLD

/-- The function that a record belongs to (03:R27). -/
def recFn (rb : List Byte) : Nat := bits (wordAt rb 1) 11 2

/-- What CTXLD delivers of a claim of the record at `recA` of the function `f` (15:R213, log 81). -/
def State.claimed (s : State) (d : Reg) (f : Nat) (recA : Word) : Load → Done
  | .ok s => .ok (s.gw d 0)
  | .noRoom => .ok (s.gw d 1)
  | .lost => .ok (s.gw d 2)
  | .invalid s => .ok (s.gw d 3)
  | .cut code => .ok ((s.postFatal f recA code).gw d 3)
/-- CTXLD of a record of the function `f` into a free slot of the tile, if there is one (15:R213). -/
def State.claimFor (s : State) (d : Reg) (tile f : Nat) (recA : Word) : Done := match (s.freeSlots tile f).head? with
  | none => .ok (s.gw d 1)
  | some k => s.claimed d f recA (s.loadRecord f recA (tile * 16 + k))

section
variable {s : State} {d : Reg} {tile f : Nat} {recA : Word}

theorem State.claimFor_noSlot (hk : (s.freeSlots tile f).head? = none) : s.claimFor d tile f recA = .ok (s.gw d 1) := by
  rw [State.claimFor, hk]
theorem State.claimFor_slot {k : Nat} {r : Load} (hk : (s.freeSlots tile f).head? = some k)
    (hr : s.loadRecord f recA (tile * 16 + k) = r) : s.claimFor d tile f recA = s.claimed d f recA r := by
  subst hr
  rw [State.claimFor, hk]

end

section
variable {m : Mark} {d a : Reg} {s : State} (hi : Issues (.ctxld m d a) s)
include hi

theorem traps_ctxld_misaligned (ha : (s.th.gr a).toNat % 64 ≠ 0) : Traps (.ctxld m d a) s ⟨.align, 0, s.th.gr a⟩ :=
  traps_of (exec_ctxld ..) hi (if_pos ha)

variable (ha : (s.th.gr a).toNat % 64 = 0)
include ha

theorem exec_ctxld_unread {x : Trap} (hr : s.ldHeld s.th.acc .read (s.th.gr a) 64 = .trap x) : exec (.ctxld m d a) s =
    s.finish (.ctxld m d a) (if x.cause = .mcheck then .trap x else .ok ((s.postFatal s.th.dom (s.th.gr a) x.cause.code).gw d 3)) := by
  refine (exec_ctxld ..).trans ((State.issue_body hi).trans (congrArg _ ((if_neg (not_not_intro ha)).trans ?_)))
  rw [hr]
theorem exec_ctxld_of_read {rb : List Byte} {u : State} (hr : s.ldHeld s.th.acc .read (s.th.gr a) 64 = .ok rb u)
    (hp : s.th.priv = .s → recFn rb = s.th.dom) (hrest : u.atRest (recFn rb) = false) (hg : bits (wordAt rb 6) 63 62 ≠ 1) :
    exec (.ctxld m d a) s = s.finish (.ctxld m d a) (u.claimFor d s.th.tile (recFn rb) (s.th.gr a)) := by
  refine (exec_ctxld ..).trans ((State.issue_body hi).trans (congrArg _ ((if_neg (not_not_intro ha)).trans ?_)))
  rw [hr]
  refine (if_neg (fun h => h.2 (hp h.1))).trans ((if_neg (Bool.eq_false_iff.mp hrest)).trans ((if_neg hg).trans ?_))
  rfl

end

-- KILL and KILL.dom

section
variable {s : State}

theorem State.killDone_over (h : s.killWaits s.th.tid = false) : s.killDone = .ok (s.setCtx none) := if_neg (Bool.eq_false_iff.mp h)
theorem State.killDone_waits (h : s.killWaits s.th.tid = true) : s.killDone = .hold 2 (s.setCtx (some (2 ^ 20, 0, true))) := if_pos h

end

/-- KILL of the record `r`, of no gang, of the function `f` with the state field `st`: its threads and jobs end and it leaves every
list, for the thread numbered `k` to await (15:R216). -/
def State.killRecord (s : State) (k f : Nat) (r : Word) (st : Nat) : State :=
  let ts := s.threads.filter (fun w => w.home == f && w.info.addr == r)
  let ours := (ts.map (·.info.addr) ++ s.st.runq.map (·.recA) ++ s.ms.waits.map (·.recA) ++ s.asideRecs f ++
    s.eng.compacts.flatMap (fun c => c.2.members.flatMap (fun x => x.recs.map (·.2)))).filter (· == r)
  let v := (ts.foldl (fun z w => z.killThread k w) s).killRecords f (fun x => ours.contains x)
  (if st = 1 ∨ st = 2 ∨ st = 3 then v.setRecState f r 4 else v).killJobs k (fun j => (r :: ours).any (fun x => j.who == (f, x)))

section
variable {m : Mark} {a : Reg} {s : State} (hi : Issues (.kill m a) s)
include hi

theorem exec_kill_going (hc : s.th.flow.ctx.isSome = true) : exec (.kill m a) s = s.finish (.kill m a) s.killDone :=
  (exec_kill ..).trans ((State.issue_body hi).trans (congrArg _ (if_pos hc)))

variable (hc : s.th.flow.ctx = none) {rb : List Byte} {u : State} (hr : s.ldHeld s.th.acc .read (s.th.gr a) 64 = .ok rb u)
include hc hr

theorem traps_kill_foreign (hp : s.th.priv = .s) (hf : recFn rb ≠ s.th.dom) : Traps (.kill m a) s ⟨.priv, 0, wordVal (.kill m a)⟩ :=
  traps_of (exec_kill ..) hi ((if_neg (by simp [hc])).trans ((Held.andThen_of_ok hr).trans (if_pos ⟨hp, hf⟩)))

variable (hp : s.th.priv = .s → recFn rb = s.th.dom)
include hp

theorem traps_kill_self (hf : s.th.home = recFn rb) (ha : s.th.info.addr = s.th.gr a) :
    Traps (.kill m a) s ⟨.illstate, 0, s.th.pc⟩ := by
  refine traps_of (exec_kill ..) hi ((if_neg (by simp [hc])).trans ((Held.andThen_of_ok hr).trans
    ((if_neg (fun h => h.2 (hp h.1))).trans (if_pos ?_))))
  simp [hf, ha, recFn]
theorem exec_kill_record (hg : bits (wordAt rb 6) 63 62 ≠ 1) (hself : ¬ (s.th.home = recFn rb ∧ s.th.info.addr = s.th.gr a)) :
    exec (.kill m a) s = s.finish (.kill m a)
      (u.killRecord s.th.tid (recFn rb) (s.th.gr a) (bits (wordAt rb 1) 14 12)).killDone := by
  have hhit (f : Nat) (w : Thread) : (w.home == f && (w.info.addr == s.th.gr a || (w.info.kind == 1 && some w.info.gang == none))) =
      (w.home == f && w.info.addr == s.th.gr a) := by simp
  refine (exec_kill ..).trans ((State.issue_body hi).trans (congrArg _ ((if_neg (by simp [hc])).trans
    ((Held.andThen_of_ok hr).trans ((if_neg (fun h => h.2 (hp h.1))).trans ?_)))))
  simp only [if_neg hg, Option.isSome_none, Bool.false_and, Bool.or_false, hhit]
  exact if_neg (by simpa [recFn] using hself)

end

section
variable {m : Mark} {a : Reg} {s : State} (hi : Issues (.killDom m a) s)
include hi

theorem exec_killDom_going (hc : s.th.flow.ctx.isSome = true) : exec (.killDom m a) s = s.finish (.killDom m a) s.killDone :=
  (exec_killDom ..).trans ((State.issue_body hi).trans (congrArg _ (if_pos hc)))

variable (hc : s.th.flow.ctx = none)
include hc

theorem traps_killDom_noFn (hf : 512 < (s.th.gr a).toNat) : Traps (.killDom m a) s ⟨.illstate, 0, s.th.pc⟩ :=
  traps_of (exec_killDom ..) hi ((if_neg (by simp [hc])).trans (if_pos (.inl hf)))
theorem exec_killDom_function (hd : s.th.dom = 0) (hf : (s.th.gr a).toNat ≤ 512) : exec (.killDom m a) s =
    s.finish (.killDom m a) (s.killFunction (s.th.gr a).toNat (some s.th.tid)).killDone :=
  (exec_killDom ..).trans ((State.issue_body hi).trans (congrArg _ ((if_neg (by simp [hc])).trans
    (if_neg (not_or.mpr ⟨hf.not_gt, by simp [hd]⟩)))))

end

/-- Settles O46: CTXSV by whether a stop is asked for and by the slot it names, CTXLD by its record and its claim, the kills by
their steps and what is still on its way. -/
theorem contextsAndKills : Obligations.ContextsAndKills := by
  refine ⟨fun m d a s hi hc => ?asks, fun m d a s k r w hi hc hu hm => completes_ctxsv hi hc hu hm,
    fun m d a s u rb hi ha hr => ?claims,
    fun m d a s hi => ⟨traps_ctxld_misaligned hi, fun x ha hr => ?unread⟩, fun m a s hc h => ?ended, fun m a s hc h => ?waits,
    fun m a s u rb hi hc hr => ?kill, fun m a s hi hc hd hf => ?function, fun m a s hi hc => traps_killDom_noFn hi hc⟩
  case asks =>
    have hex := exec_ctxsv_asks hi hc
    refine ⟨fun hx => traps_of_finish hex (if_pos hx), fun hx ht => traps_of_finish hex (State.askToLeave_self hx ht),
      fun hx ht hu => completes_of_finish hex (State.askToLeave_empty hx ht hu),
      fun u hx ht hu hp hm => ?_, fun u hx ht hu hp hh => ?_⟩
    · refine holds_of_finish hex ((State.askToLeave_thread hx ht hu).trans ((if_neg (fun h => h.2 (hp h.1))).trans (if_neg ?_)))
      simp [hm]
    · exact traps_of_finish hex ((State.askToLeave_thread hx ht hu).trans (if_pos ⟨hp, hh⟩))
  case claims =>
    intro f hp hrest hg
    have hex := exec_ctxld_of_read hi ha hr hp hrest hg
    exact ⟨fun hk => completes_of_finish hex (State.claimFor_noSlot hk), fun k hk =>
      ⟨fun v hl => completes_of_finish hex (State.claimFor_slot hk hl), fun hl => completes_of_finish hex (State.claimFor_slot hk hl),
        fun v hl => completes_of_finish hex (State.claimFor_slot hk hl),
        fun x hl => completes_of_finish hex (State.claimFor_slot hk hl)⟩⟩
  case unread =>
    have hex := exec_ctxld_unread hi ha hr
    exact ⟨fun h => traps_of_finish hex (if_pos h), fun h => completes_of_finish hex (if_neg h)⟩
  case ended =>
    exact ⟨fun hi => completes_of_finish (exec_kill_going hi hc) (State.killDone_over h),
      fun hi => completes_of_finish (exec_killDom_going hi hc) (State.killDone_over h)⟩
  case waits =>
    exact ⟨fun hi => holds_of_finish (exec_kill_going hi hc) (State.killDone_waits h),
      fun hi => holds_of_finish (exec_killDom_going hi hc) (State.killDone_waits h)⟩
  case kill =>
    refine ⟨traps_kill_foreign hi hc hr, traps_kill_self hi hc hr, fun hp hg hself => ?_⟩
    have hex := exec_kill_record hi hc hr hp hg hself
    exact ⟨fun h => completes_of_finish hex (State.killDone_over h), fun h => holds_of_finish hex (State.killDone_waits h)⟩
  case function =>
    have hex := exec_killDom_function hi hc hd hf
    exact ⟨fun h => completes_of_finish hex (State.killDone_over h), fun h => holds_of_finish hex (State.killDone_waits h)⟩

end Sys2Proof.Machine
end

section
/-! PROOFS. TLBI and WDOG (15:R214-R215). -/

namespace Sys2Proof.Machine
open Sys2Proof

theorem exec_tlbiPage (m : Mark) (a : Reg) (s : State) : exec (.tlbiPage m a) s = execTlbiPage m a s := rfl
theorem exec_tlbiPart (m : Mark) (b : Reg) (s : State) : exec (.tlbiPart m b) s = execTlbiPart m b s := rfl
theorem exec_tlbiAll (m : Mark) (s : State) : exec (.tlbiAll m) s = execTlbiAll m s := rfl
theorem exec_wdog (m : Mark) (a b : Reg) (s : State) : exec (.wdog m a b) s = execWdog m a b s := rfl

-- TLBI

/-- The TLB entries `p` and the functions `fs` that a TLBI of the thread of `s` names (15:R214). -/
def TlbiForm (i : Instr) (s : State) (p : TlbEntry → Bool) (fs : Nat → Bool) : Prop :=
  (∃ m a, i = .tlbiPage m a ∧ fs = (s.partFns s.th.dom).contains ∧
    p = (fun e => (s.partFns s.th.dom).contains e.fn && e.page == (s.th.gr a).toNat / 2 ^ e.shift)) ∨
  (∃ m, i = .tlbiPart m 0 ∧ fs = (s.partFns s.th.dom).contains ∧ p = (fun e => (s.partFns s.th.dom).contains e.fn)) ∨
  (∃ m b, i = .tlbiPart m b ∧ b ≠ 0 ∧ s.th.priv = .h ∧ s.isPart (bits (s.th.gr b).toNat 6 0) = true ∧
    fs = (s.bound (bits (s.th.gr b).toNat 6 0)).contains ∧ p = (fun e => (s.bound (bits (s.th.gr b).toNat 6 0)).contains e.fn)) ∨
  (∃ m, i = .tlbiAll m ∧ fs = (fun _ => true) ∧ p = (fun _ => true))

theorem TlbiForm.exec_eq {i : Instr} {s : State} {p : TlbEntry → Bool} {fs : Nat → Bool} (h : TlbiForm i s p fs) (hi : Issues i s) :
    exec i s = s.finish i (s.tlbi p fs) := by
  obtain ⟨m, a, rfl, rfl, rfl⟩ | ⟨m, rfl, rfl, rfl⟩ | ⟨m, b, rfl, hb, hp, hn, rfl, rfl⟩ | ⟨m, rfl, rfl, rfl⟩ := h
  case inl => exact (exec_tlbiPage ..).trans (State.issue_body hi)
  case inr.inl => exact (exec_tlbiPart ..).trans (State.issue_body hi)
  case inr.inr.inl =>
    refine (exec_tlbiPart ..).trans ((State.issue_body hi).trans (congrArg _ ?_))
    simp only [hb, hp, hn, if_false, reduceCtorEq, Bool.not_true, Bool.false_eq_true]
  case inr.inr.inr => exact (exec_tlbiAll ..).trans (State.issue_body hi)

/-- The translations that `p` selects are dropped, and walks of the functions `fs` use the roots as they stand. -/
def State.untranslated (s : State) (p : TlbEntry → Bool) (fs : Nat → Bool) : State :=
  { s with
    ms := { s.ms with tlb := s.ms.tlb.filter (fun e => !p e) }
    st := { s.st with tcrs := s.st.tcrs.map (fun (x : Nat × Tcr) => if fs x.1 then (x.1, { x.2 with prev := [] }) else x) } }

section
variable {s : State} (p : TlbEntry → Bool) (fs : Nat → Bool) (hc : s.th.flow.ctx = none)
include hc

theorem State.tlbi_unreleased (hm : s.mayRelease s.th = false) : s.tlbi p fs = .hold 2 s := by
  simp only [State.tlbi, hc, hm, Bool.not_false, if_true]
theorem State.tlbi_released (hm : s.mayRelease s.th = true) : s.tlbi p fs =
    if s.olderAccess s.fresh then .hold 2 ((s.untranslated p fs).setCtx (some (2 ^ 20, BitVec.ofNat 64 s.fresh, true)))
    else .ok (s.untranslated p fs) := by
  simp only [State.tlbi, hc, hm, Bool.not_true, Bool.false_eq_true, if_false]
  rfl

end

section
variable {m : Mark} {b : Reg} {s : State} (hi : Issues (.tlbiPart m b) s) (hb : b ≠ 0)
include hi hb

theorem traps_tlbiPart_supervisor (hp : s.th.priv = .s) : Traps (.tlbiPart m b) s ⟨.priv, 0, wordVal (.tlbiPart m b)⟩ :=
  traps_of (exec_tlbiPart ..) hi ((if_neg hb).trans (if_pos hp))
theorem traps_tlbiPart_noPart (hp : s.th.priv = .h) (hn : s.isPart (bits (s.th.gr b).toNat 6 0) = false) :
    Traps (.tlbiPart m b) s ⟨.illstate, 0, s.th.pc⟩ :=
  traps_of (exec_tlbiPart ..) hi (by
    simp only [hb, hp, hn, if_false, reduceCtorEq, Bool.not_false, if_true])

end

-- WDOG

/-- A watchdog period that WDOG takes: 0, or an exponent of 16 to 32 (15:R215). -/
abbrev WdogPeriod (e : Nat) : Prop := e = 0 ∨ (16 ≤ e ∧ e ≤ 32)
/-- Slot `k` of the thread's tile is to have the period `e` from its next restart on, 24 for 0 (15:R215). -/
def State.setPeriod (s : State) (k e : Nat) : State :=
  s.setTile s.th.tile { s.tile s.th.tile with wdnew := (s.tile s.th.tile).wdnew.set k (if e = 0 then 24 else e) }
/-- The running domain owns slot `k` of its tile (15:R219). -/
def State.ownsSlot (s : State) (k : Nat) : Bool := match (s.tile s.th.tile).dp? s.th.dom with
  | some (_, d) => bitOf d.tslot k
  | none => false

theorem State.ownsSlot_eq_true {s : State} {k : Nat} :
    s.ownsSlot k = true ↔ ∃ n d, (s.tile s.th.tile).dp? s.th.dom = some (n, d) ∧ bitOf d.tslot k = true := by
  unfold State.ownsSlot
  split <;> simp_all
theorem State.ownsSlot_eq_false {s : State} {k : Nat} : s.ownsSlot k = false ↔ (s.tile s.th.tile).dp? s.th.dom = none ∨
    ∃ n d, (s.tile s.th.tile).dp? s.th.dom = some (n, d) ∧ bitOf d.tslot k = false := by
  unfold State.ownsSlot
  split <;> simp_all

section
variable {m : Mark} {a b : Reg} {s : State} (hi : Issues (.wdog m a b) s)
include hi

theorem traps_wdog_range (h : 15 < (s.th.gr a).toNat ∨ ¬ WdogPeriod (s.th.gr b).toNat) :
    Traps (.wdog m a b) s ⟨.illstate, 0, s.th.pc⟩ :=
  traps_of (exec_wdog ..) hi (if_pos (h.imp_right (fun he => congrArg not (decide_eq_false he))))

variable (hk : (s.th.gr a).toNat ≤ 15) (he : WdogPeriod (s.th.gr b).toNat)
include hk he

theorem exec_wdog_of_range : exec (.wdog m a b) s = s.finish (.wdog m a b)
    (if s.th.priv = .s ∧ s.ownsSlot (s.th.gr a).toNat = false then .trap ⟨.priv, 0, wordVal (.wdog m a b)⟩
      else .ok (s.setPeriod (s.th.gr a).toNat (s.th.gr b).toNat)) := by
  refine (exec_wdog ..).trans ((State.issue_body hi).trans (congrArg _ ((if_neg ?_).trans ?_)))
  · exact not_or.mpr ⟨hk.not_gt, Bool.eq_false_iff.mp (congrArg not (decide_eq_true he))⟩
  simp only [Nat.mod_eq_of_lt (Nat.lt_succ_of_le hk), Bool.not_eq_true']
  rfl
theorem completes_wdog (h : s.th.priv = .s → s.ownsSlot (s.th.gr a).toNat = true) :
    Completes (.wdog m a b) s (s.setPeriod (s.th.gr a).toNat (s.th.gr b).toNat) :=
  completes_of_finish (exec_wdog_of_range hi hk he) (if_neg (by simpa using h))
theorem traps_wdog_foreign (hp : s.th.priv = .s) (h : s.ownsSlot (s.th.gr a).toNat = false) :
    Traps (.wdog m a b) s ⟨.priv, 0, wordVal (.wdog m a b)⟩ :=
  traps_of_finish (exec_wdog_of_range hi hk he) (if_pos ⟨hp, h⟩)

end

/-- Settles O47: TLBI by the thread's accesses and the package's older ones, WDOG by its slot, its period and its mode. -/
theorem tlbiAndWatchdog : Obligations.TlbiAndWatchdog := by
  refine ⟨fun i s p fs hi hc hf => ?tlbi, fun m b s hi hb => ⟨traps_tlbiPart_supervisor hi hb, traps_tlbiPart_noPart hi hb⟩,
    fun m a b s hi => ?wdog⟩
  case tlbi =>
    have hex := TlbiForm.exec_eq hf hi
    exact ⟨fun hm => holds_of_finish hex (State.tlbi_unreleased p fs hc hm),
      fun hm ho => completes_of_finish hex ((State.tlbi_released p fs hc hm).trans (if_neg (Bool.eq_false_iff.mp ho))),
      fun hm ho => holds_of_finish hex ((State.tlbi_released p fs hc hm).trans (if_pos ho))⟩
  case wdog =>
    refine ⟨fun hk he hp => ?_, fun hk he hp => ⟨fun h => ?_, fun h => ?_⟩, traps_wdog_range hi⟩
    · exact completes_wdog hi hk he (by simp [hp])
    · exact completes_wdog hi hk he (fun _ => State.ownsSlot_eq_true.mpr h)
    · exact traps_wdog_foreign hi hk he hp (State.ownsSlot_eq_false.mpr h)

end Sys2Proof.Machine
end

section
/-! PROOFS. MFS and MTS, and the state registers (05:R62-R64, 15:R203-R206). -/

namespace Sys2Proof.Machine
open Sys2Proof

theorem exec_mfs (m : Mark) (d : Reg) (r : BitVec 11) (s : State) : exec (.mfs m d r) s = execMfs m d r s := rfl
theorem exec_mts (m : Mark) (a : Reg) (r : BitVec 11) (s : State) : exec (.mts m a r) s = execMts m a r s := rfl

/-- A state register that the thread's mode may not name: closed to it, or another domain's (15:R204). -/
abbrev State.RegClosed (s : State) (r : Nat) : Prop := regMode r s.th.priv = 0 ∨ s.foreignDp r = true
/-- An access of TS.FX waits for flags of earlier instructions (05:R63, log 85). -/
abbrev State.flagsDue (s : State) : Bool := s.th.awaitsFlags || s.acvtOut s.th
/-- An access of an accumulator's flags waits for commands on it (11:R151). -/
abbrev State.accFlagsDue (s : State) (r : Nat) : Prop := 0x24 ≤ r ∧ r ≤ 0x27 ∧ s.accRunning s.th (r - 0x24) = true

theorem regMode_flags (p : Priv) : regMode 3 p = 2 := rfl
theorem State.foreignDp_flags (s : State) : s.foreignDp 3 = false := by simp [State.foreignDp]
theorem State.not_regClosed_flags (s : State) : ¬ s.RegClosed 3 := by simp [regMode_flags, State.foreignDp_flags]

-- MFS

section
variable {m : Mark} {d : Reg} {r : BitVec 11} {s : State} (hi : Issues (.mfs m d r) s)
include hi

theorem traps_mfs_closed (h : s.RegClosed r.toNat) : Traps (.mfs m d r) s ⟨.priv, 0, wordVal (.mfs m d r)⟩ :=
  traps_of (exec_mfs ..) hi (if_pos h)
theorem exec_mfs_flags (hr : r.toNat = 3) : exec (.mfs m d r) s = s.finish (.mfs m d r)
    (if s.flagsDue then .hold 2 s else .ok (s.takeFlags.gw d (s.takeFlags.th.fx.setWidth 64))) := by
  refine (exec_mfs ..).trans ((State.issue_body hi).trans (congrArg _ ?_))
  dsimp only
  rw [hr, if_neg s.not_regClosed_flags]
  cases h : s.flagsDue with
  | true => exact if_pos ⟨rfl, h⟩
  | false => exact if_neg (by simp [h])

variable (ho : ¬ s.RegClosed r.toNat)
include ho

theorem exec_mfs_open (hr : r.toNat ≠ 3) : exec (.mfs m d r) s = s.finish (.mfs m d r)
    (if s.accFlagsDue r.toNat then .hold 1 s else .ok (s.gw d (s.regRead r.toNat))) := by
  refine (exec_mfs ..).trans ((State.issue_body hi).trans (congrArg _ ?_))
  refine (if_neg ho).trans ((if_neg (not_and_of_not_left _ hr)).trans ?_)
  simp only [hr, if_false]
theorem completes_mfs (hr : r.toNat ≠ 3) (ha : ¬ s.accFlagsDue r.toNat) :
    Completes (.mfs m d r) s (s.gw d (s.regRead r.toNat)) :=
  completes_of_finish (exec_mfs_open hi ho hr) (if_neg ha)
theorem holds_mfs_accFlags (ha : s.accFlagsDue r.toNat) : exec (.mfs m d r) s = .next (s.holding 1) :=
  holds_of_finish (exec_mfs_open hi ho (by omega)) (if_pos ha)

end

-- MTS

/-- What MTS makes of a write that the register's map allows or forbids. -/
def State.mtsDone (s : State) : Option State → Done
  | some e => .ok e
  | none => .trap ⟨.illstate, 0, s.th.pc⟩

section
variable {m : Mark} {a : Reg} {r : BitVec 11} {s : State} (hi : Issues (.mts m a r) s)
include hi

theorem traps_mts_closed (h : s.RegClosed r.toNat) : Traps (.mts m a r) s ⟨.priv, 0, wordVal (.mts m a r)⟩ :=
  traps_of (exec_mts ..) hi (if_pos h)

theorem exec_mts_flags (hr : r.toNat = 3) : exec (.mts m a r) s = s.finish (.mts m a r)
    (if s.flagsDue then .hold 2 s else s.mtsDone (s.takeFlags.regWrite 3 (s.th.gr a))) := by
  refine (exec_mts ..).trans ((State.issue_body hi).trans (congrArg _ ?_))
  dsimp only
  rw [hr, if_neg s.not_regClosed_flags, if_neg (by rw [regMode_flags]; decide)]
  cases h : s.flagsDue with
  | true => exact if_pos ⟨rfl, h⟩
  | false => exact if_neg (by simp [h])

section
variable (ho : s.foreignDp r.toNat = false)
include ho

theorem traps_mts_readOnly (hm : regMode r.toNat s.th.priv = 1) : Traps (.mts m a r) s ⟨.illstate, 0, s.th.pc⟩ :=
  traps_of (exec_mts ..) hi ((if_neg (by simp [hm, ho])).trans (if_pos hm))
theorem exec_mts_open (hm : regMode r.toNat s.th.priv = 2) (hr : r.toNat ≠ 3) : exec (.mts m a r) s =
    s.finish (.mts m a r) (s.mtsDone (s.regWrite r.toNat (s.th.gr a))) := by
  refine (exec_mts ..).trans ((State.issue_body hi).trans (congrArg _ ?_))
  refine (if_neg (by simp [hm, ho])).trans ((if_neg (by simp [hm])).trans ((if_neg (not_and_of_not_left _ hr)).trans ?_))
  simp only [hr, if_false]
  rfl

end
end

-- The registers

theorem State.regWrite_flags {s : State} {x : Word} (h : x.toNat < 64) :
    s.regWrite 3 x = some { s with th := { s.th with fx := x.setWidth 6 } } := if_pos h
theorem State.regWrite_flags_tooLarge {s : State} {x : Word} (h : 64 ≤ x.toNat) : s.regWrite 3 x = none := if_neg h.not_gt
theorem State.regWrite_views {s e : State} {x : Word} (h : s.regWrite 0x10 x = some e) : e.th.vv = x ∧ e.th.regs = s.th.regs := by
  obtain ⟨-, he⟩ := Option.ite_none_right_eq_some.mp (show (if vvOk x s.th.gran then some _ else none) = some e from h)
  cases he
  exact ⟨rfl, rfl⟩
theorem State.regWrite_vector_misaligned {s : State} {x : Word} (h : x.toNat % 4 ≠ 0) : s.regWrite 0x44 x = none := if_pos h

/-- Settles O48: MFS and MTS by whether the register is open to the mode, and by the flags that it waits for. -/
theorem stateRegisters : Obligations.StateRegisters := by
  refine ⟨fun m d r s hi => ?mfs, fun m a r s hi => ?mts, fun s x p => ?registers⟩
  case mfs =>
    refine ⟨traps_mfs_closed hi, fun hm hf => ?_⟩
    have ho : ¬ s.RegClosed r.toNat := by simp [hm, hf]
    exact ⟨completes_mfs hi ho,
      fun hr h => completes_of_finish (exec_mfs_flags hi hr) (if_neg (Bool.eq_false_iff.mp h)),
      fun hr h => holds_of_finish (exec_mfs_flags hi hr) (if_pos h),
      fun hlo hhi h => holds_mfs_accFlags hi ho ⟨hlo, hhi, h⟩⟩
  case mts =>
    refine ⟨traps_mts_closed hi, fun hm hf => traps_mts_readOnly hi hf hm,
      fun hr h => holds_of_finish (exec_mts_flags hi hr) (if_pos h), fun hr h hx => ?flags,
      fun hm hr hf => ⟨fun e he => ?_, fun he => ?_⟩⟩
    case flags =>
      refine completes_of_finish (exec_mts_flags hi hr) ((if_neg (Bool.eq_false_iff.mp h)).trans ?_)
      rw [State.regWrite_flags hx]
      rfl
    · exact completes_of_finish (exec_mts_open hi hf hm hr) (by rw [he]; rfl)
    · exact traps_of_finish (exec_mts_open hi hf hm hr) (by rw [he]; rfl)
  case registers =>
    refine ⟨rfl, regMode_flags p, rfl, rfl, rfl, rfl, rfl, rfl, rfl, rfl, rfl, rfl, fun hx => ?_, State.regWrite_flags_tooLarge,
      fun e => State.regWrite_views, State.regWrite_vector_misaligned⟩
    refine ⟨_, State.regWrite_flags hx, BitVec.eq_of_toNat_eq ?_, rfl⟩
    simp only [BitVec.toNat_setWidth]
    omega

end Sys2Proof.Machine
end

section
/-! PROOFS. PCFG, VFCFG, L2MSK, CLKJ and CLKL (15:R217-R218, R220-R221, 25:R294-R295, 29:R336). -/

namespace Sys2Proof.Machine
open Sys2Proof

theorem exec_vfcfg (m : Mark) (d a b : Reg) (s : State) : exec (.vfcfg m d a b) s = execVfcfg m d a b s := rfl
theorem exec_l2msk (m : Mark) (a b : Reg) (s : State) : exec (.l2msk m a b) s = execL2msk m a b s := rfl
theorem exec_clkj (m : Mark) (d a : Reg) (s : State) : exec (.clkj m d a) s = execClkj m d a s := rfl
theorem exec_clkl (m : Mark) (d : Reg) (s : State) : exec (.clkl m d) s = execClkl m d s := rfl

-- PCFG

/-- PCFG under one of its names (15:R217). -/
def PcfgForm (i : Instr) (d a b : Reg) : Prop :=
  (∃ m, i = .pcfgSplit m d a b) ∨ (∃ m, i = .pcfgMerge m d a b) ∨ (∃ m, i = .pcfgCreate m d a b) ∨ (∃ m, i = .pcfgDestroy m d a b) ∨
    (∃ m, i = .pcfgBind m d a b) ∨ (∃ m, i = .pcfgUnbind m d a b)

theorem PcfgForm.exec_eq {i : Instr} {d a b : Reg} (h : PcfgForm i d a b) {s : State} (hi : Issues i s) :
    exec i s = s.finish i (s.pcfg d a b) := by
  have hex : exec i s = s.issue i (fun s => s.pcfg d a b) := by
    obtain ⟨m, rfl⟩ | ⟨m, rfl⟩ | ⟨m, rfl⟩ | ⟨m, rfl⟩ | ⟨m, rfl⟩ | ⟨m, rfl⟩ := h <;> rfl
  exact hex.trans (State.issue_body hi)

/-- A command register of PCFG with a reserved bit, operation or function (15:R217). -/
abbrev pcfgReserved (c : Nat) : Prop := bits c 63 20 ≠ 0 ∨ bits c 9 4 ≠ 0 ∨ 6 ≤ bits c 3 0 ∨ (4 ≤ bits c 3 0 ∧ 512 < bits c 19 10)

section
variable {s : State} {d a b : Reg}

theorem State.pcfg_reserved (h : pcfgReserved (s.th.gr b).toNat) : s.pcfg d a b = .trap ⟨.illstate, 0, s.th.pc⟩ := if_pos h
theorem State.pcfg_carves (h : ¬ pcfgReserved (s.th.gr b).toNat) :
    let r := s.carve (bits (s.th.gr b).toNat 3 0) (bits (s.th.gr a).toNat 6 0) (bits (s.th.gr b).toNat 19 10)
    s.pcfg d a b = .ok (r.2.gw d (BitVec.ofNat 64 r.1)) := if_neg h

end

section
variable {s : State} {n : Nat} (f : Nat)

/-- SPLIT, DESTROY and BIND of a number that is no partition's (25:R294). -/
theorem State.carve_noPart (h : n = 0 ∨ s.isPart n = false) :
    s.carve 0 n f = (2, s) ∧ s.carve 3 n f = (2, s) ∧ s.carve 4 n f = (2, s) :=
  ⟨if_pos (by rcases h with h | h <;> simp [h]), if_pos (by rcases h with h | h <;> simp [h]),
    if_pos (by rcases h with h | h <;> simp [h])⟩
/-- BIND of a function without a partition (25:R294). -/
theorem State.carve_binds (hp : s.isPart n = true) (h0 : n ≠ 0) {f : Nat} (hf : s.nodeOf f = none) :
    s.carve 4 n f = (0, (s.bindTo f n).touchVf f) := by
  simp [State.carve, hp, h0, hf]

end

-- VFCFG

/-- A function is configured (15:R218, 29:R339). -/
def State.configure (s : State) (f : Nat) (c : VfCfg) : State :=
  State.touchVf { s with st := { s.st with cfgs := setKey s.st.cfgs f c } } f
/-- What VFCFG does with a block `bs` for the function `f` (15:R218, 25:R295). -/
def State.vfcfg (s : State) (pc : Word) (d : Reg) (f : Nat) (bs : List Byte) : Done :=
  if 512 < f then .trap ⟨.illstate, 0, pc⟩
  else match cfgOf bs with
    | none => .trap ⟨.illstate, 0, pc⟩
    | some (n, c) =>
      if s.nodeOf f = some n then .ok ((s.configure f c).gw d 0)
      else if (s.nodeOf f).isSome && !s.unbindable f then .ok (s.gw d 1)
      else if !s.isPart n then .ok (s.gw d 2)
      else .ok (((s.bindTo f n).configure f c).gw d 0)

section
variable {m : Mark} {d a b : Reg} {s : State} (hi : Issues (.vfcfg m d a b) s)
include hi

theorem traps_vfcfg_misaligned (ha : (s.th.gr b).toNat % 64 ≠ 0) : Traps (.vfcfg m d a b) s ⟨.align, 0, s.th.gr b⟩ :=
  traps_of (exec_vfcfg ..) hi (if_pos ha)
theorem exec_vfcfg_of_read {u : State} {bs : List Byte} (ha : (s.th.gr b).toNat % 64 = 0)
    (hr : s.ldHeld s.th.acc .read (s.th.gr b) 64 = .ok bs u) :
    exec (.vfcfg m d a b) s = s.finish (.vfcfg m d a b) (u.vfcfg s.th.pc d (s.th.gr a).toNat bs) :=
  (exec_vfcfg ..).trans ((State.issue_body hi).trans (congrArg _ ((if_neg (not_not_intro ha)).trans (Held.andThen_of_ok hr))))

end

section
variable {s : State} {pc : Word} {d : Reg} {f : Nat} {bs : List Byte}

theorem State.vfcfg_reserved (h : 512 < f ∨ cfgOf bs = none) : s.vfcfg pc d f bs = .trap ⟨.illstate, 0, pc⟩ := by
  unfold State.vfcfg
  split
  · rfl
  next hf => rw [h.resolve_left hf]

variable {n : Nat} {c : VfCfg} (hf : f ≤ 512) (hb : cfgOf bs = some (n, c))
include hf hb

theorem State.vfcfg_of_block : s.vfcfg pc d f bs =
    if s.nodeOf f = some n then .ok ((s.configure f c).gw d 0)
    else if (s.nodeOf f).isSome && !s.unbindable f then .ok (s.gw d 1)
    else if !s.isPart n then .ok (s.gw d 2)
    else .ok (((s.bindTo f n).configure f c).gw d 0) := by
  rw [State.vfcfg, if_neg hf.not_gt, hb]
theorem State.vfcfg_bound (h : s.nodeOf f = some n) : s.vfcfg pc d f bs = .ok ((s.configure f c).gw d 0) :=
  (State.vfcfg_of_block hf hb).trans (if_pos h)
theorem State.vfcfg_busy (h0 : s.nodeOf f ≠ none) (h : s.nodeOf f ≠ some n) (hu : s.unbindable f = false) :
    s.vfcfg pc d f bs = .ok (s.gw d 1) :=
  (State.vfcfg_of_block hf hb).trans ((if_neg h).trans (if_pos (by simpa [hu, Option.isSome_iff_ne_none] using h0)))
theorem State.vfcfg_moves (h : s.nodeOf f = none ∨ (s.nodeOf f ≠ some n ∧ s.unbindable f = true)) :
    s.vfcfg pc d f bs = if s.isPart n then .ok (((s.bindTo f n).configure f c).gw d 0) else .ok (s.gw d 2) := by
  rw [State.vfcfg_of_block hf hb]
  obtain h | ⟨h, hu⟩ := h
  · cases s.isPart n <;> simp [h]
  · cases s.isPart n <;> simp [h, hu]

end

-- L2MSK

section
variable {m : Mark} {a b : Reg} {s : State} (hi : Issues (.l2msk m a b) s)
include hi

theorem traps_l2msk (h : 512 < (s.th.gr a).toNat ∨ 65536 ≤ (s.th.gr b).toNat) : Traps (.l2msk m a b) s ⟨.illstate, 0, s.th.pc⟩ :=
  traps_of (exec_l2msk ..) hi (if_pos h)
theorem completes_l2msk (hf : (s.th.gr a).toNat ≤ 512) (hx : (s.th.gr b).toNat < 65536) : Completes (.l2msk m a b) s
    (State.touchVf { s with st := { s.st with l2mask := setKey s.st.l2mask (s.th.gr a).toNat (s.th.gr b).toNat } } (s.th.gr a).toNat) :=
  completes_of (exec_l2msk ..) hi (if_neg (not_or.mpr ⟨hf.not_gt, hx.not_ge⟩))

end

-- CLKJ and CLKL

section
variable {m : Mark} {d a : Reg} {s : State} (hi : Issues (.clkj m d a) s)
include hi

theorem traps_clkj (h : (s.th.gr a).toNat = 0 ∨ 65536 ≤ (s.th.gr a).toNat) : Traps (.clkj m d a) s ⟨.illstate, 0, s.th.pc⟩ :=
  traps_of (exec_clkj ..) hi (if_pos h)

variable (h0 : (s.th.gr a).toNat ≠ 0) (hg : (s.th.gr a).toNat < 65536)
include h0 hg

section
variable (hj : s.pl.joins.find? (·.1 == s.th.tid) = none)
include hj

theorem exec_clkj_first : exec (.clkj m d a) s = s.finish (.clkj m d a) (if s.pl.group.isSome then .ok (s.gw d 1)
    else .hold 2 ((s.setJoin s.th.tid (BitVec.ofNat 64 (s.th.gr a).toNat)).emit (.ceiling (s.th.gr a).toNat 64 s.ownCeil))) := by
  refine (exec_clkj ..).trans ((State.issue_body hi).trans (congrArg _ ?_))
  dsimp only
  rw [if_neg (not_or.mpr ⟨h0, hg.not_ge⟩), hj]
theorem completes_clkj_inGroup (hs : s.pl.group.isSome = true) : Completes (.clkj m d a) s (s.gw d 1) :=
  completes_of_finish (exec_clkj_first hi h0 hg hj) (if_pos hs)
theorem holds_clkj_asks (hs : s.pl.group = none) : exec (.clkj m d a) s = .next (State.holding
    ((s.setJoin s.th.tid (BitVec.ofNat 64 (s.th.gr a).toNat)).emit (.ceiling (s.th.gr a).toNat 64 s.ownCeil)) 2) :=
  holds_of_finish (exec_clkj_first hi h0 hg hj) (if_neg (by simp [hs]))

end

variable {x : Nat × Word} (hj : s.pl.joins.find? (·.1 == s.th.tid) = some x)
include hj

theorem exec_clkj_again : exec (.clkj m d a) s = s.finish (.clkj m d a)
    (if bits x.2.toNat 33 33 = 1 then .ok ((s.dropJoin s.th.tid).gw d 2)
      else if bits x.2.toNat 32 32 = 1 then .ok ((s.dropJoin s.th.tid).gw d 0)
      else if s.pl.group.isSome then .ok ((s.dropJoin s.th.tid).gw d 1)
      else .hold 2 s) := by
  refine (exec_clkj ..).trans ((State.issue_body hi).trans (congrArg _ ?_))
  dsimp only
  rw [if_neg (not_or.mpr ⟨h0, hg.not_ge⟩), hj]
theorem completes_clkj_refused (h : bits x.2.toNat 33 33 = 1) : Completes (.clkj m d a) s ((s.dropJoin s.th.tid).gw d 2) :=
  completes_of_finish (exec_clkj_again hi h0 hg hj) (if_pos h)
theorem completes_clkj_agreed (hr : bits x.2.toNat 33 33 ≠ 1) (h : bits x.2.toNat 32 32 = 1) :
    Completes (.clkj m d a) s ((s.dropJoin s.th.tid).gw d 0) :=
  completes_of_finish (exec_clkj_again hi h0 hg hj) ((if_neg hr).trans (if_pos h))

end

section
variable {m : Mark} {d : Reg} {s : State} (hi : Issues (.clkl m d) s)
include hi

theorem completes_clkl_noGroup (h : s.pl.group = none) : Completes (.clkl m d) s (s.gw d 1) :=
  completes_of (exec_clkl ..) hi (if_pos (by simp [h]))

variable (h : s.pl.group.isSome = true)
include h

theorem completes_clkl_needed (ha : s.pl.autoJoin = true) (hc : s.eng.compacts.any (·.2.clk) = true) :
    Completes (.clkl m d) s (s.gw d 2) :=
  completes_of (exec_clkl ..) hi ((if_neg (by simpa [Option.isSome_iff_ne_none] using h)).trans (if_pos (by simp [ha, hc])))
theorem completes_clkl (ha : s.pl.autoJoin = false) :
    let u := (s.tellClock s.pl.index 128).outOfGroup
    Completes (.clkl m d) s ((u.setPl { u.pl with cur := s.ownCeil }).gw d 0) :=
  completes_of (exec_clkl ..) hi ((if_neg (by simpa [Option.isSome_iff_ne_none] using h)).trans (if_neg (by simp [ha])))

end

/-- Settles O49: PCFG by its command register, VFCFG by its block and where the function is bound, the others by their checks. -/
theorem partitionsAndGroups : Obligations.PartitionsAndGroups := by
  refine ⟨fun i s d a b hi hf => ?pcfg, fun s n f => ⟨fun h => ?noPart, fun hp h0 hf => ?binds⟩,
    fun m d a b s u bs n c hi ha hr => ?vfcfg, fun m d a b s => traps_vfcfg_misaligned, fun m a b s hi => ⟨traps_l2msk hi, completes_l2msk hi⟩, fun m d a s hi => ?clkj,
    fun m d s hi => ⟨completes_clkl_noGroup hi, completes_clkl_needed hi, completes_clkl hi⟩⟩
  case pcfg =>
    have hex := PcfgForm.exec_eq hf hi
    refine ⟨fun h => traps_of_finish hex (State.pcfg_reserved h), fun h1 h2 h3 h4 => completes_of_finish hex (State.pcfg_carves ?_)⟩
    exact not_or.mpr ⟨not_not_intro h1, not_or.mpr ⟨not_not_intro h2, not_or.mpr ⟨h3.not_ge, fun h => (h4 h.1).not_gt h.2⟩⟩⟩
  case noPart =>
    obtain ⟨hsplit, hdestroy, hbind⟩ := State.carve_noPart f h
    exact ⟨congrArg Prod.fst hsplit, congrArg Prod.fst hdestroy, congrArg Prod.fst hbind⟩
  case binds =>
    have h := State.carve_binds hp h0 hf
    exact ⟨congrArg Prod.fst h, congrArg Prod.snd h⟩
  case vfcfg =>
    have hex := exec_vfcfg_of_read hi ha hr
    refine ⟨fun h => traps_of_finish hex (State.vfcfg_reserved h), fun hf hb =>
      ⟨fun h => completes_of_finish hex (State.vfcfg_bound hf hb h),
        fun h0 h hu => completes_of_finish hex (State.vfcfg_busy hf hb h0 h hu),
        fun h => ⟨fun hn => ?_, fun hn => ?_⟩⟩⟩
    · exact completes_of_finish hex ((State.vfcfg_moves hf hb h).trans (if_neg (Bool.eq_false_iff.mp hn)))
    · exact completes_of_finish hex ((State.vfcfg_moves hf hb h).trans (if_pos hn))
  case clkj =>
    exact ⟨traps_clkj hi, fun h0 hg => completes_clkj_inGroup hi h0 hg, fun h0 hg => holds_clkj_asks hi h0 hg,
      fun x h0 hg hj => ⟨completes_clkj_refused hi h0 hg hj, completes_clkj_agreed hi h0 hg hj⟩⟩

end Sys2Proof.Machine
end

section
/-! PROOFS. DOMCFG and MEMBLK (15:R219, R222, 25:R300-R304). -/

namespace Sys2Proof.Machine
open Sys2Proof

-- DOMCFG

/-- DOMCFG under one of its names (15:R219). -/
def DomcfgForm (i : Instr) (d a b : Reg) : Prop :=
  (∃ m, i = .domcfgWrite m d a b) ∨ (∃ m, i = .domcfgAdjust m d a b) ∨ (∃ m, i = .domcfgClear m d a b)

theorem DomcfgForm.exec_eq {i : Instr} {d a b : Reg} (h : DomcfgForm i d a b) {s : State} (hi : Issues i s) :
    exec i s = s.finish i (s.domcfg d a b) := by
  have hex : exec i s = s.issue i (fun s => s.domcfg d a b) := by
    obtain ⟨m, rfl⟩ | ⟨m, rfl⟩ | ⟨m, rfl⟩ := h <;> rfl
  exact hex.trans (State.issue_body hi)

/-- CLEAR of register `n` of the tile `k` (15:R219, 25:R304). -/
def State.dpClear (s : State) (d : Reg) (k n : Nat) : Done :=
  let p := (s.tile k).dps.getD n .reset
  if s.retired k then .ok (s.gw d 3)
  else if !p.v then .ok (s.gw d 0)
  else if s.domainBusy k p then .ok (s.gw d 1)
  else .ok (((s.clearDp k n p).touchVf p.dom).gw d 0)
/-- ADJUST of register `n` of the tile `k` to the weight and the ways of `q` (15:R219, 25:R304). -/
def State.dpAdjust (s : State) (pc : Word) (d : Reg) (k n : Nat) (q : Dp) : Done :=
  let p := (s.tile k).dps.getD n .reset
  let q := { p with weight := q.weight, cway := q.cway }
  if s.retired k then .ok (s.gw d 3)
  else if !p.v then .ok (s.gw d 2)
  else if q.weight = 0 ∨ !((s.tile k).otherDps n).all (waysApart q) then .trap ⟨.illstate, 0, pc⟩
  else .ok (((s.putDp k n q).touchVf q.dom).gw d 0)
/-- WRITE of a block `bs` to register `n` of the tile `k` (15:R219, 25:R304). -/
def State.dpWrite (s : State) (pc : Word) (d : Reg) (k n : Nat) (bs : List Byte) : Done :=
  let q := dpOf bs
  if s.retired k then .ok (s.gw d 3)
  else if dpReserved bs || !(s.tile k).dpOk n q then .trap ⟨.illstate, 0, pc⟩
  else if ((s.tile k).dps.getD n .reset).v then .ok (s.gw d 1)
  else if !(s.nodeOf q.dom).any (fun j => nodeTile j k) then .ok (s.gw d 4)
  else .ok ((((s.putDp k n q).resetWdog k q.tslot).touchVf q.dom).gw d 0)

section
variable {s : State} {d a b : Reg}

theorem State.domcfg_misaligned (hb : (s.th.gr b).toNat % 32 ≠ 0) : s.domcfg d a b = .trap ⟨.align, 0, s.th.gr b⟩ := if_pos hb

variable (hb : (s.th.gr b).toNat % 32 = 0)
include hb

theorem State.domcfg_noOperation (hop : bits (s.th.gr a).toNat 14 13 = 3) : s.domcfg d a b = .trap ⟨.illstate, 0, s.th.pc⟩ :=
  (if_neg (not_not_intro hb)).trans ((if_neg (by rw [hop]; decide)).trans (if_pos hop))
theorem State.domcfg_clear_noTarget (hop : bits (s.th.gr a).toNat 14 13 = 2)
    (h : bits (s.th.gr a).toNat 63 15 ≠ 0 ∨ coordIdx (bits (s.th.gr a).toNat 10 0) = none) :
    s.domcfg d a b = .trap ⟨.illstate, 0, s.th.pc⟩ :=
  (if_neg (not_not_intro hb)).trans ((if_pos hop).trans (if_pos (by simpa using h)))

variable (hz : bits (s.th.gr a).toNat 63 15 = 0) {k : Nat} (hk : coordIdx (bits (s.th.gr a).toNat 10 0) = some k)
include hz hk

theorem State.domcfg_clear (hop : bits (s.th.gr a).toNat 14 13 = 2) :
    s.domcfg d a b = s.dpClear d k (bits (s.th.gr a).toNat 12 11) := by
  refine (if_neg (not_not_intro hb)).trans ((if_pos hop).trans ((if_neg (by simp [hz, hk])).trans ?_))
  rw [hk]
  rfl

variable {bs : List Byte} {u : State} (hr : s.ldHeld s.th.acc .read (s.th.gr b) 32 = .ok bs u)
include hr

theorem State.domcfg_adjust (hop : bits (s.th.gr a).toNat 14 13 = 1) :
    s.domcfg d a b = u.dpAdjust s.th.pc d k (bits (s.th.gr a).toNat 12 11) (dpOf bs) := by
  refine (if_neg (not_not_intro hb)).trans ((if_neg (by rw [hop]; decide)).trans ((if_neg (by rw [hop]; decide)).trans ?_))
  refine (Held.andThen_of_ok hr).trans ((if_neg (by simp [hz, hk])).trans ?_)
  rw [hk, hop]
  rfl
theorem State.domcfg_write (hop : bits (s.th.gr a).toNat 14 13 = 0) :
    s.domcfg d a b = u.dpWrite s.th.pc d k (bits (s.th.gr a).toNat 12 11) bs := by
  refine (if_neg (not_not_intro hb)).trans ((if_neg (by rw [hop]; decide)).trans ((if_neg (by rw [hop]; decide)).trans ?_))
  refine (Held.andThen_of_ok hr).trans ((if_neg (by simp [hz, hk])).trans ?_)
  rw [hk, hop]
  rfl

end

section
variable {s : State} {d : Reg} {k n : Nat}

theorem State.dpClear_retired (h : s.retired k = true) : s.dpClear d k n = .ok (s.gw d 3) := if_pos h

variable (h : s.retired k = false)
include h

theorem State.dpClear_invalid (hv : ((s.tile k).dps.getD n .reset).v = false) : s.dpClear d k n = .ok (s.gw d 0) :=
  (if_neg (Bool.eq_false_iff.mp h)).trans (if_pos (congrArg not hv))
theorem State.dpClear_valid (hv : ((s.tile k).dps.getD n .reset).v = true) : s.dpClear d k n =
    if s.domainBusy k ((s.tile k).dps.getD n .reset) then .ok (s.gw d 1)
    else .ok (((s.clearDp k n ((s.tile k).dps.getD n .reset)).touchVf ((s.tile k).dps.getD n .reset).dom).gw d 0) :=
  (if_neg (Bool.eq_false_iff.mp h)).trans (if_neg (Bool.eq_false_iff.mp (congrArg not hv)))

variable {pc : Word}

theorem State.dpAdjust_invalid (q : Dp) (hv : ((s.tile k).dps.getD n .reset).v = false) :
    s.dpAdjust pc d k n q = .ok (s.gw d 2) :=
  (if_neg (Bool.eq_false_iff.mp h)).trans (if_pos (congrArg not hv))
theorem State.dpAdjust_valid {p q : Dp} (hp : { (s.tile k).dps.getD n .reset with weight := q.weight, cway := q.cway } = p)
    (hv : ((s.tile k).dps.getD n .reset).v = true) (hw : p.weight ≠ 0) (ho : ((s.tile k).otherDps n).all (waysApart p) = true) :
    s.dpAdjust pc d k n q = .ok (((s.putDp k n p).touchVf p.dom).gw d 0) := by
  subst hp
  refine (if_neg (Bool.eq_false_iff.mp h)).trans ((if_neg (Bool.eq_false_iff.mp (congrArg not hv))).trans (if_neg ?_))
  exact not_or.mpr ⟨hw, Bool.eq_false_iff.mp (congrArg not ho)⟩

variable {bs : List Byte} (hb : dpReserved bs = false) (hok : (s.tile k).dpOk n (dpOf bs) = true)
include hb hok

theorem State.dpWrite_taken (hv : ((s.tile k).dps.getD n .reset).v = true) : s.dpWrite pc d k n bs = .ok (s.gw d 1) :=
  (if_neg (Bool.eq_false_iff.mp h)).trans ((if_neg (by simp [hb, hok])).trans (if_pos hv))
theorem State.dpWrite_free (hv : ((s.tile k).dps.getD n .reset).v = false)
    (hn : (s.nodeOf (dpOf bs).dom).any (fun j => nodeTile j k) = true) : s.dpWrite pc d k n bs =
      .ok ((((s.putDp k n (dpOf bs)).resetWdog k (dpOf bs).tslot).touchVf (dpOf bs).dom).gw d 0) :=
  (if_neg (Bool.eq_false_iff.mp h)).trans ((if_neg (by simp [hb, hok])).trans
    ((if_neg (Bool.eq_false_iff.mp hv)).trans (if_neg (Bool.eq_false_iff.mp (congrArg not hn)))))

end

-- MEMBLK

/-- MEMBLK under one of its names (15:R222). -/
def MemblkForm (i : Instr) (d a b : Reg) : Prop :=
  (∃ m, i = .memblkOffer m d a b) ∨ (∃ m, i = .memblkQuery m d a b) ∨ (∃ m, i = .memblkCancel m d a b)

theorem MemblkForm.exec_eq {i : Instr} {d a b : Reg} (h : MemblkForm i d a b) {s : State} (hi : Issues i s) :
    exec i s = s.finish i (s.memblk d a b) := by
  have hex : exec i s = s.issue i (fun s => s.memblk d a b) := by
    obtain ⟨m, rfl⟩ | ⟨m, rfl⟩ | ⟨m, rfl⟩ := h <;> rfl
  exact hex.trans (State.issue_body hi)

section
variable (s : State) (k : Nat) {c : Nat}

theorem State.moveCmd_query (hc : bits c 1 0 = 1) : s.moveCmd k c = s := by
  rw [State.moveCmd, hc]
  rfl
theorem State.moveCmd_cancel (hc : bits c 1 0 = 2) : s.moveCmd k c = if (s.move k).state = 1 then s.moveTo k 5 2 else s := by
  rw [State.moveCmd, hc]
  rfl
/-- An OFFER of a block that is in a move changes nothing (25:R300). -/
theorem State.moveCmd_offer_moving (hc : bits c 1 0 = 0) (hlo : 1 ≤ (s.move k).state) (hhi : (s.move k).state ≤ 3) :
    s.moveCmd k c = s := by
  rw [State.moveCmd, hc]
  exact if_pos ⟨hlo, hhi⟩

end

/-- Settles O50: DOMCFG by the operation of its target register, MEMBLK by its checks and its command. -/
theorem domainsAndBlocks : Obligations.DomainsAndBlocks := by
  refine ⟨fun i s d a b k hi hf => ?domcfg, fun i s d a b hi hf => ?memblk, fun s k c => ?command⟩
  case domcfg =>
    have hex := DomcfgForm.exec_eq hf hi
    refine ⟨fun hop hb hz hk => ?clear, fun hop hb h => traps_of_finish hex (State.domcfg_clear_noTarget hb hop h),
      fun hb => traps_of_finish hex (State.domcfg_misaligned hb), fun hop hb => traps_of_finish hex (State.domcfg_noOperation hb hop),
      fun bs u hop hb hr hz hk h => ?adjust, fun bs u hop hb hr hz hk h hres hok => ?write⟩
    case clear =>
      have hex' := hex.trans (congrArg _ (State.domcfg_clear hb hz hk hop))
      exact ⟨fun h => completes_of_finish hex' (State.dpClear_retired h),
        fun h hv => completes_of_finish hex' (State.dpClear_invalid h hv),
        fun h hv hbusy => completes_of_finish hex' ((State.dpClear_valid h hv).trans (if_pos hbusy)),
        fun h hv hbusy => completes_of_finish hex' ((State.dpClear_valid h hv).trans (if_neg (Bool.eq_false_iff.mp hbusy)))⟩
    case adjust =>
      have hex' := hex.trans (congrArg _ (State.domcfg_adjust hb hz hk hr hop))
      exact ⟨fun hv => completes_of_finish hex' (State.dpAdjust_invalid h (dpOf bs) hv),
        fun hv hw ho => completes_of_finish hex' (State.dpAdjust_valid h rfl hv hw ho)⟩
    case write =>
      have hex' := hex.trans (congrArg _ (State.domcfg_write hb hz hk hr hop))
      exact ⟨fun hv => completes_of_finish hex' (State.dpWrite_taken h hres hok hv),
        fun hv hn => completes_of_finish hex' (State.dpWrite_free h hres hok hv hn)⟩
  case memblk =>
    have hex := MemblkForm.exec_eq hf hi
    exact ⟨fun h => traps_of_finish hex (if_pos h), fun h => completes_of_finish hex (if_neg h)⟩
  case command =>
    exact ⟨s.moveCmd_query k, fun hc h => (s.moveCmd_cancel k hc).trans (if_pos h),
      fun hc h => (s.moveCmd_cancel k hc).trans (if_neg h), s.moveCmd_offer_moving k⟩

end Sys2Proof.Machine
end

section
/-! PROOFS. Stores to a tile's SRAM, and the threads that watch what they write (09:R129, 13:R178). -/

namespace Sys2Proof.Machine
open Sys2Proof

/-- The issuing thread waits by WAITA, without a record, on the word of a line that it has read (13:R178). -/
def State.Watches (s : State) (line : Nat) : Prop := s.th.live = true ∧ s.th.flow.waitAt = some (s.me * 2 ^ 48 + line)

/-- A thread that watches a line has its watch end when the line is named. -/
theorem State.Watches.waitAt_noteWaiters {s : State} {line : Nat} (h : s.Watches line) :
    (s.noteWaiters line).th.flow.waitAt = none := by
  obtain ⟨hlive, hat⟩ := h
  simp [State.noteWaiters, State.threads, State.mapThreads, hlive, hat]
/-- Naming a line starts no watch. -/
theorem State.waitAt_noteWaiters_none {s : State} (line : Nat) (h : s.th.flow.waitAt = none) :
    (s.noteWaiters line).th.flow.waitAt = none := by
  unfold State.noteWaiters
  dsimp only
  split
  · simp [State.mapThreads, h]
  · exact h
/-- Without a record waiting on it, the wake of a line reaches resident threads only. -/
theorem State.wakeLine_th {s : State} {line : Nat} (h : ∀ w ∈ s.ms.waits, w.line ≠ line) :
    (s.wakeLine line).th = (s.noteWaiters line).th := by
  have hnone : s.ms.waits.filter (·.line == line) = [] := by simpa using h
  rw [State.wakeLine_eq, hnone]
  rfl
/-- A store to SRAM marks pins and writes, then wakes its first and its last line. -/
theorem State.tileStore_eq (s : State) (tile e : Nat) (bs : List Byte) :
    ∃ pins, s.tileStore tile e bs = ((State.write { s with ms := { s.ms with pins := pins } } (sramAddr tile e) bs).wakeLine
      (waitLine (sramAddr tile e))).wakeLine (waitLine (sramAddr tile (e + bs.length - 1))) :=
  ⟨_, rfl⟩
/-- A store to SRAM that no record waits for still ends the watch of a resident thread on its first line. -/
theorem State.Watches.waitAt_tileStore {s : State} {tile e : Nat} {bs : List Byte} (h : s.Watches (waitLine (sramAddr tile e)))
    (hw : ∀ w ∈ s.ms.waits, w.line ≠ waitLine (sramAddr tile e) ∧ w.line ≠ waitLine (sramAddr tile (e + bs.length - 1))) :
    (s.tileStore tile e bs).th.flow.waitAt = none := by
  obtain ⟨pins, heq⟩ := s.tileStore_eq tile e bs
  generalize hv : State.write { s with ms := { s.ms with pins := pins } } (sramAddr tile e) bs = v at heq
  have hwatch : v.Watches (waitLine (sramAddr tile e)) := hv ▸ h
  have hfirst : ∀ w ∈ v.ms.waits, w.line ≠ waitLine (sramAddr tile e) := hv ▸ fun w hm => (hw w hm).1
  have hlast : ∀ w ∈ (v.wakeLine (waitLine (sramAddr tile e))).ms.waits, w.line ≠ waitLine (sramAddr tile (e + bs.length - 1)) := by
    rw [State.wakeLine_ms hfirst, ← hv]
    exact fun w hm => (hw w hm).2
  rw [heq, State.wakeLine_th hlast]
  exact State.waitAt_noteWaiters_none _ (by rw [State.wakeLine_th hfirst, hwatch.waitAt_noteWaiters])

/-- Refutes O16: the store of a byte to the first word of tile 0's SRAM changes a thread that waits there by WAITA and has no record on
the wait list: `waitAt`, which is no counter, is cleared. -/
theorem not_storeFrame : ¬ Obligations.StoreFrame := by
  rintro ⟨-, hsram⟩
  let t : Thread := { Thread.empty with live := true, status := .waiting }
  let s : State := State.waitOn { State.reset with th := t } 0 [⟨0, sramAddr 0 0, 8, 0⟩]
  have hwatch : s.Watches (waitLine (sramAddr 0 0)) := ⟨rfl, rfl⟩
  have hwaits : s.ms.waits = [] := rfl
  obtain ⟨-, -, hth, -⟩ := hsram s 0 0 [1] rfl (by decide) (by simp [hwaits])
  have hcleared : (s.tileStore 0 0 [1]).th.flow.waitAt = none := hwatch.waitAt_tileStore (by simp [hwaits])
  rw [hth, hwatch.2] at hcleared
  cases hcleared

end Sys2Proof.Machine
end

section
/-! PROOFS. Steps of threads and of their tiles (03:R28-R35, R48, 13:R177-R182, 17:R230-R239, 23:R287). -/

namespace Sys2Proof.Machine
open Sys2Proof

-- Steps of units ------------------------------------------------------------------------------------------------------

/-- A unit's step whose operation gives a state does that. -/
theorem Does.of_some {i : Instr} {s t : State} {r : Option State} (hr : r = some t) (he : exec i s = unitStep s r := by rfl) : Does i s t := by
  rw [Does, he, hr, unitStep_some]
/-- A unit's step whose operation gives none does nothing. -/
theorem Does.of_none {i : Instr} {s : State} {r : Option State} (hr : r = none) (he : exec i s = unitStep s r := by rfl) : Does i s s := by
  rw [Does, he, hr, unitStep_none]

-- A resident thread ---------------------------------------------------------------------------------------------------

section
variable {s : State} {tid : Nat} {t : Thread} (ht : s.thread? tid = some t)
include ht

theorem State.onIssuer_resident (f : State → Option State) : s.onIssuer tid f = f (s.focus tid) := by simp [State.onIssuer, ht]

theorem State.parkDone_done (hst : (s.focus tid).th.status = .parked) (hd : (s.focus tid).th.outsDone = true) :
    let u := s.focus tid
    s.parkDone tid = some (State.takePark { u with th := u.th.countEv 4 ((u.tile u.th.tile).cyc - u.th.flow.since).toNat }) := by
  simp [State.parkDone, s.onIssuer_resident ht, hst, hd]
theorem State.takeCause_held {h : Trap × Word} (hh : (s.focus tid).th.heldHere = some h) :
    let u := s.focus tid
    s.takeCause tid = some
      (State.raise { u with th := { u.th with flow := { u.th.flow with held := u.th.flow.held.erase h } } } h.1 h.2) := by
  simp [State.takeCause, s.onIssuer_resident ht, hh]
theorem State.takeCause_due {x : Trap} (hh : (s.focus tid).th.heldHere = none) (hd : (s.focus tid).th.due = some x) :
    s.takeCause tid = some (s.focus tid).serviceTrap := by
  simp [State.takeCause, s.onIssuer_resident ht, hh, hd]
end

theorem State.serviceTrap_due {u : State} {x : Trap} (hd : u.th.due = some x) (ho : u.th.flow.outs = []) :
    let g := u.th.giveUp
    let f := if x.cause == .wdog then { g.flow with wdog := false, aborted := false } else { g.flow with asyncs := g.flow.asyncs.erase x }
    u.serviceTrap = State.enterTrap { u with th := { g with flow := f } } x g.pc := by
  have hg : u.th.giveUp.flow.outs = [] := ho
  simp [State.serviceTrap, hd, hg]

/-- A stopped thread with no result of its run outstanding leaves now, as its stop says (03:R48). -/
theorem State.preempted_leaves {s : State} {tid : Nat} {t : Thread} (ht : s.thread? tid = some t)
    (hs : (s.focus tid).stopDue (s.focus tid).th = true) (ho : (s.focus tid).th.flow.outs = []) :
    let u := s.focus tid
    let g := u.th.giveUp
    let k := u.stopKind u.th
    s.preempted tid = some (State.leaveNow { u with th := { g with flow := { g.flow with leave := if k = 2 then 4 else if k = 3 then 5 else 3 } } }) := by
  have hg : (s.focus tid).th.giveUp.flow.outs = [] := ho
  simp [State.preempted, s.onIssuer_resident ht, hs, hg]

section
variable {s : State} {tid : Nat} {t : Thread} (ht : s.thread? tid = some t)
include ht

theorem State.leaves_ready (hst : t.status = .leaving) (hm : s.mayLeave t = true) : s.leaves tid = some (s.leaveGang t) := by
  simp [State.leaves, ht, hst, hm]
theorem State.leaves_waits (hm : s.mayLeave t = false) : s.leaves tid = none := by simp [State.leaves, ht, hm]
theorem State.watchdogExpires_holder (hh : t.flow.holder = true) (hp : t.priv ≠ .h) (hst : t.status = .ready) (hk : t.flow.hold ≠ 3) :
    s.watchdogExpires tid = some (s.setThread { t with flow := { t.flow with wdog := true } }) := by
  simp [State.watchdogExpires, ht, hh, hp, hst, hk]
theorem State.watchdogExpires_stands (h : t.flow.holder = false ∨ t.priv = .h ∨ t.status ≠ .ready ∨ t.flow.hold = 3) :
    s.watchdogExpires tid = none := by
  rcases h with h | h | h | h <;> simp [State.watchdogExpires, ht, h]
theorem State.waitaLeave_waiting (hst : t.status = .waiting) (hva : t.flow.waitVa.isSome = true) (hat : t.flow.waitAt.isSome = true)
    (hn : (s.nodeOf t.home).isSome = true) (hk : t.info.kind ≠ 1) (hc : t.caller = none) (hm : s.memberOf tid = none) :
    let u : Thread := { t with flow := { t.flow with leave := 2 } }
    s.waitaLeave tid = if s.leaveReady u then some (s.leaveSlot u) else some (s.setThread { u with status := .leaving }) := by
  simp [State.waitaLeave, ht, hst, hva, hat, hn, hk, hc, hm]
theorem State.larderRoom_room (hk : t.flow.hold = 3) (hr : s.larderUsed (dieOf t.tile) < 2097152) (hh : t.flow.holder = true)
    (hc : s.canRun t = true) : s.larderRoom tid = some (s.focus tid) := by
  simp [State.larderRoom, State.turnTo, larderSize, ht, hk, hr, hh, hc]
theorem packetAbort_closes (hw : t.flow.wdog = true) (hp : t.flow.packet.isSome = true) :
    Does (.packetAbort tid) s (s.setThread { t with flow := { t.flow with packet := none, aborted := true } }) := by
  simp [Does, exec, execPacketAbort, ht, hw, hp]
end

theorem State.leaveGang_lone {s : State} {t : Thread} (h : t.flow.leave < 3 ∨ 6 ≤ t.flow.leave) : s.leaveGang t = s.leaveSlot t := by
  simp [State.leaveGang, h]
/-- The threads of a gang that is stopped leave together (03:R26). -/
theorem State.leaveGang_gang {s : State} {t : Thread} (h3 : 3 ≤ t.flow.leave) (h6 : t.flow.leave < 6) :
    s.leaveGang t = (s.gangOfThread t).foldl (fun z u => match z.thread? u.tid with
      | some v => z.leaveSlot (if v.tid = t.tid then t else v)
      | none => z) s :=
  if_neg (by simp [h3, h6])

/-- A thread that ends or is pre-empted writes its save area and its record, and gives up its slot (03:R29). -/
theorem State.leaveSlot_written {s : State} {t : Thread} (hl : t.flow.leave = 1 ∨ t.flow.leave = 3) (hck : t.info.ckv = false) (hrin : t.info.rin = 0)
    {w1 w2 : State × Option Cause} (hw1 : s.putLines t.home 1100 t.info.save (t.image ++ t.block) = w1)
    (hw2 : w1.1.putLines t.home 2 t.info.addr (t.record (if t.flow.leave = 1 then 4 else 1)) = w2) (h1 : w1.2 = none) (h2 : w2.2 = none) :
    s.leaveSlot t = if t.flow.leave = 1 then (w2.1.vacate t.tid).orphanJobs t.who
      else ((w2.1.vacate t.tid).keepCauses t).enqueue ⟨dieOf t.tile, t.home, t.info.pri, t.info.addr⟩ := by
  have hsame : { t with info := { t.info with ckv := t.flow.leave == 5, rin := if t.flow.leave = 5 then s.rinOf t.home else 0 } } = t := by
    obtain ⟨_, _, ⟨⟩⟩ := t
    rcases hl with hl | hl <;> simp_all
  have hrec : Thread.leaveState t.flow.leave = if t.flow.leave = 1 then 4 else 1 := by rcases hl with hl | hl <;> rw [hl] <;> rfl
  have hfatal : ¬ 16 ≤ t.flow.leave := by omega
  have hseal : (decide (t.flow.leave = 5) && t.flow.sealed) = false := by rcases hl with hl | hl <;> simp [hl]
  simp only [State.leaveSlot, hfatal, hseal, hsame, hrec, hw1, hw2, h1, h2]
  rcases hl with hl | hl <;> simp [hl]

theorem State.issuing_live {s : State} (hl : s.th.live = true) (f : State → Host.Outcome State Fault Refusal) : s.issuing f = f s := if_pos hl
/-- An illegal word takes its trap (07:R79). -/
theorem illegalEncoding_traps {s : State} (hl : s.th.live = true) (w : BitVec 32) :
    Does (.illegalEncoding w) s (s.trapping (.illegalEncoding w) ⟨.illenc, 0, illencTval w.toNat s.th.hints.length⟩) :=
  show execIllegalEncoding w s = _ from s.issuing_live hl _
theorem instructionFetchFault_traps {s : State} (hl : s.th.live = true) {x : Trap} (hf : s.fetchAt s.th.pc = .trap x) :
    Does (.instructionFetchFault s.th.pc) s (s.trapping (.instructionFetchFault s.th.pc) x) := by
  change execInstructionFetchFault s.th.pc s = _
  simp [execInstructionFetchFault, State.issuing_live hl, hf, State.finish_trap]

/-- A TLB entry that admits the access and has its bits set gives the address (17:R232). -/
theorem State.translate_hit {s : State} {tile fn : Nat} {m : Priv} {k : AccKind} {va : Word} {x : TlbEntry} (hc : canonical va = true)
    (hx : s.tlb? tile fn va.toNat = some x) (hp : permError x.leaf m k = none) (hb : x.leaf ||| needBits k = x.leaf) :
    s.translate tile fn m k va = .ok (s.leafPa x.leaf x.shift va.toNat, x.leaf, s) := by
  simp [State.translate, hc, hx, hp, hb]
theorem State.translate_miss {s : State} {tile fn : Nat} {m : Priv} {k : AccKind} {va : Word} (hc : canonical va = true)
    (hx : s.tlb? tile fn va.toNat = none) : s.translate tile fn m k va = s.walk tile fn m k va := by
  simp [State.translate, hc, hx]

section
variable {s : State} {tile fn : Nat} {m : Priv} {k : AccKind} {va : Word} {ea e sh : Nat} {seen : List Nat} (hr : bitOf (s.rootOf fn) 0 = true)
  (hl : s.pkgLive (bits (s.rootOf fn) 51 48) = true)
  (hw : s.walkFrom va.toNat walkLevels (bits (s.rootOf fn) 51 8 * 256) [] = .ok (ea, e, sh, seen))
include hr hl hw

/-- A walk to a valid leaf that admits the access sets A and D and fills the TLB (17:R230). -/
theorem State.walk_fills (he : leafError e sh va.toNat = none) (hp : permError e m k = none) :
    ∃ pa, s.walk tile fn m k va = .ok (pa, e ||| needBits k,
      ((seen.reverse.foldl (fun z a => z.walkRead fn a) s).walkSet fn ea e (needBits k)).tlbFill
        ⟨tile, fn, va.toNat / 2 ^ sh, sh, e ||| needBits k, ea⟩) := by
  simp only [State.walk, hr, hl, hw, he, hp]
  exact ⟨_, rfl⟩
theorem State.walk_refused (h : leafError e sh va.toNat ≠ none ∨ permError e m k ≠ none) : ∃ c, s.walk tile fn m k va = .error c := by
  simp only [State.walk, hr, hl, hw]
  cases he : leafError e sh va.toNat <;> cases hp : permError e m k <;> simp_all
end

section
variable {s : State} {tid : Nat} {k : AccKind} {va : Word} {t : Thread} (ht : s.thread? tid = some t)
include ht
theorem State.walkFor_translated {pa leaf : Nat} {u : State} (h : s.translate t.tile t.fn t.priv k va = .ok (pa, leaf, u)) :
    s.walkFor tid k va = some (u.onThread tid (·.walkEvents k (s.tlb? t.tile t.fn va.toNat))) := by
  simp [State.walkFor, ht, h]
theorem State.walkFor_refused {c : Nat} (h : s.translate t.tile t.fn t.priv k va = .error c) : s.walkFor tid k va = none := by
  simp [State.walkFor, ht, h]
end

section
variable {s : State} {k : AccKind} {tile dom pa line : Nat} (hl : lineOf (pa % 2 ^ 48) = some line)
include hl
theorem State.directory_pinned (hp : s.pinOfHome line ≠ none) : s.directory k tile dom pa = none := by
  simp only [State.directory, hl, Option.isSome_iff_ne_none.mpr hp, Bool.or_true, if_true]
section
variable (hr : regionOf (pa % 2 ^ 48) = .dram) (hp : s.pinOfHome line = none)
include hr hp
theorem State.directory_read (hk : k = .read ∨ k = .fetch) :
    s.directory k tile dom pa = some (s.cacheAccess tile dom line (sectorMask line (pa % 2 ^ 48) 1) false 0).1 := by
  have hwr : (k == .write || k == .atomic) = false := by rcases hk with rfl | rfl <;> rfl
  simp [State.directory, hl, hr, hp, hwr, -Nat.reducePow]
theorem State.directory_write (hk : k = .write ∨ k = .atomic) {u : State} (ht : s.tagged dom line (s.rinOf dom) (pa % 2 ^ 48) false = .ok u) :
    s.directory k tile dom pa = some (u.cacheAccess tile dom line (sectorMask line (pa % 2 ^ 48) 1) true 0).1 := by
  have hwr : (k == .write || k == .atomic) = true := by rcases hk with rfl | rfl <;> rfl
  simp [State.directory, hl, hr, hp, hwr, ht, -Nat.reducePow]
end
end

-- An access to a tile's SRAM at the tile ------------------------------------------------------------------------------

/-- The access and the piece as which a target serves `n` bytes at an offset of the package (29:R326). -/
def servedAcc (dom : Nat) (priv : Priv) : Acc := ⟨16 * noTile, noTile, dom, dom, priv, 0, true, none, false⟩
def State.servedPiece (s : State) (off n : Nat) : Piece := ⟨0, s.me * 2 ^ 48 + off, n, 0⟩

/-- What serves a read and a write of a tile's SRAM. The piece is made a variable before the branches of `serve` are followed: the kernel
would compute with the numbers in it. -/
theorem State.serve_tiles {s : State} {dom off n pkg tag rin : Nat} {priv : Priv} {data : List Byte} (hreg : regionOf off = .tiles)
    (htrap : s.pieceTrap (servedAcc dom priv) (s.servedPiece off n) = none) :
    (∀ bs u, s.engPiece (servedAcc dom priv) (s.servedPiece off n) = .ok (bs, u) →
      s.pinOfSram (s.servedPiece off n).slot.1 ((s.servedPiece off n).slot.2 / 192) = none →
      s.serve .read dom priv off n data pkg tag rin = .ok bs u) ∧
    (∀ u, s.engStore (servedAcc dom priv) (2 ^ 60) (s.servedPiece off n) data = .ok u → s.untagged dom rin (s.servedPiece off n) = none →
      s.serve .write dom priv off n data pkg tag rin = .ok [] u) := by
  have hserve : @State.serve = @State.serve := rfl
  conv at hserve =>
    rhs
    delta State.serve
  rw [hserve]
  clear hserve
  beta_reduce
  obtain ⟨p, hp⟩ : ∃ p : Piece, ⟨0, s.me * 2 ^ 48 + off, n, 0⟩ = p := ⟨_, rfl⟩
  obtain ⟨a, ha⟩ : ∃ a : Acc, ⟨16 * noTile, noTile, dom, dom, priv, 0, true, none, false⟩ = a := ⟨_, rfl⟩
  rw [show s.servedPiece off n = p from hp, show servedAcc dom priv = a from ha] at htrap ⊢
  rw [hp, ha]
  refine ⟨fun bs u heng hpin => ?_, fun u heng htag => ?_⟩
  · simp only [htrap, hreg, hpin, heng]
  · simp only [htrap, hreg, htag, heng, reduceCtorEq, if_false]

theorem State.serveTile_served {s u : State} {k : AccKind} {tile off dom : Nat} {data bs : List Byte}
    (h : s.serve k dom .s (sramAddr tile (off % Config.slotSize)) (Nat.max data.length 1) data s.me s.fresh (s.rinOf dom) = .ok bs u) :
    s.serveTile k tile off dom data = some u := by
  have hserve : @State.serveTile = @State.serveTile := rfl
  conv at hserve =>
    rhs
    delta State.serveTile
  rw [hserve]
  clear hserve
  beta_reduce
  generalize s.serve = serve at *
  simp only [h]

section
variable {tile off : Nat} (htile : tile < 1536) (hoff : off < Config.sramSize)
include htile hoff

theorem sramAddr_lt : sramAddr tile off < 2 ^ 48 := by
  simp only [sramAddr, Config.tileSpace, Config.slotSize, Config.sramSize] at *; omega
theorem regionOf_sramAddr : regionOf (sramAddr tile off) = .tiles := by
  simp only [sramAddr, Config.tileSpace, Config.slotSize, Config.sramSize] at *
  rw [regionOf, if_neg (by simp only [Config.dramEnd]; omega), if_pos (by simp only [Config.tileSpace]; omega)]
/-- The piece that serves an access to a tile's SRAM lies in that tile's slot. -/
theorem State.servedPiece_slot (s : State) (n : Nat) :
    let p := s.servedPiece (sramAddr tile off) n
    p.pkg = s.me ∧ p.off = sramAddr tile off ∧ p.slot = (tile, off) := by
  have hlt := sramAddr_lt htile hoff
  have hpkg : (s.me * 2 ^ 48 + sramAddr tile off) / 2 ^ 48 = s.me := by omega
  have hlow : (s.me * 2 ^ 48 + sramAddr tile off) % 2 ^ 48 = sramAddr tile off := by omega
  refine ⟨hpkg, hlow, ?_⟩
  simp only [State.servedPiece, Piece.slot, Piece.off, hlow]
  simp only [sramAddr, Config.tileSpace, Config.slotSize, Config.sramSize] at *
  exact Prod.ext (by simp only; omega) (by simp only; omega)
end

section
variable {s : State} {a : Acc} {p : Piece} {tile off : Nat} (hpkg : p.pkg = s.me) (hreg : regionOf p.off = .tiles) (hslot : p.slot = (tile, off))
  (hlive : s.retired tile = false) (hoff : off < Config.sramSize)
include hpkg hreg hslot hlive hoff

theorem State.pieceTrap_granted (hgrant : s.bankGranted tile a.dom (off / Config.bankSize) = true) : s.pieceTrap a p = none := by
  simp [State.pieceTrap, hpkg, hreg, hslot, hlive, hgrant, Nat.not_le.mpr hoff]

section
variable (hscr : s.bankScratch tile (off / Config.bankSize) = true) (hpin : s.pinOfSram tile (off / 192) = none)
include hscr hpin
theorem State.engPiece_scratch (hbad : s.badAt p.off p.n = false) : s.engPiece a p = .ok (s.read p.off p.n, s) := by
  simp [State.engPiece, hpkg, hreg, hslot, hlive, hscr, hpin, hbad, Nat.not_le.mpr hoff]
theorem State.engStore_scratch {job : Nat} {bs : List Byte} (hheld : s.held a p = false) :
    s.engStore a job p bs = .ok ((s.write p.off bs).wakeLine (waitLine p.off)) := by
  simp [State.engStore, hheld, hpkg, hreg, hslot, hlive, hscr, hpin, Nat.not_le.mpr hoff]
end
end

section
variable {s : State} {tile off dom : Nat} {data : List Byte} (htile : tile < 1536) (hlive : s.retired tile = false) (hoff : off < Config.sramSize)
  (hgrant : s.bankGranted tile dom (off / Config.bankSize) = true) (hscr : s.bankScratch tile (off / Config.bankSize) = true)
  (hpin : s.pinOfSram tile (off / 192) = none)
include htile hlive hoff hgrant hscr hpin

/-- A granted scratch bank of a live tile, with no pin on the line, serves an access: a read its bytes, a write them stored (17:R237). -/
theorem State.serveTile_scratch :
    (s.badAt (sramAddr tile off) (Nat.max data.length 1) = false → s.serveTile .read tile off dom data = some s) ∧
    s.serveTile .write tile off dom data = some ((s.write (sramAddr tile off) data).wakeLine (waitLine (sramAddr tile off))) := by
  have hmod : off % Config.slotSize = off := Nat.mod_eq_of_lt (Nat.lt_trans hoff (by decide))
  have hreg := regionOf_sramAddr htile hoff
  obtain ⟨hpkg, hpoff, hslot⟩ := s.servedPiece_slot htile hoff (Nat.max data.length 1)
  have hn : (s.servedPiece (sramAddr tile off) (Nat.max data.length 1)).n = Nat.max data.length 1 := rfl
  have hserve (pkg tag rin : Nat) := State.serve_tiles (pkg := pkg) (tag := tag) (rin := rin) (data := data) (priv := .s) (dom := dom) hreg
    (State.pieceTrap_granted (a := servedAcc dom .s) hpkg (by rw [hpoff, hreg]) hslot hlive hoff hgrant)
  obtain ⟨p, hp⟩ : ∃ p, s.servedPiece (sramAddr tile off) (Nat.max data.length 1) = p := ⟨_, rfl⟩
  rw [hp] at hpkg hpoff hslot hn hserve
  have hpreg : regionOf p.off = .tiles := by rw [hpoff, hreg]
  refine ⟨fun hbad => ?read, ?write⟩
  case read =>
    exact State.serveTile_served (by rw [hmod, (hserve s.me s.fresh (s.rinOf dom)).1 _ _
      (State.engPiece_scratch hpkg hpreg hslot hlive hoff hscr hpin (by rw [hpoff, hn, hbad])) (by rw [hslot, hpin])])
  case write =>
    have htag : s.untagged dom (s.rinOf dom) p = none := by simp [State.untagged, hpreg]
    have hmade := (hserve s.me s.fresh (s.rinOf dom)).2 _
      (State.engStore_scratch hpkg hpreg hslot hlive hoff hscr hpin (by simp [State.held, servedAcc])) htag
    rw [hpoff] at hmade
    exact State.serveTile_served (by rw [hmod, hmade])
end

-- Claims of free slots (23:R287) --------------------------------------------------------------------------------------

section
variable {s : State} {e : RunEntry} {tid : Nat} (hg : ∀ g n, s.recGang e ≠ some (1, g, n))
include hg

/-- A record of a thread in no gang is claimed by itself (03:R28). -/
theorem State.claimEntry_lone : s.claimEntry e tid = match s.loadRecord e.dom e.recA tid with
    | .ok s => some (s.unqueue e)
    | _ => s.claimFails e tid := by
  rw [State.claimEntry]
  split
  · next g n h => exact absurd h (hg g n)
  · rfl
theorem State.claimEntry_loads {u : State} (h : s.loadRecord e.dom e.recA tid = .ok u ∨ s.loadRecord e.dom e.recA tid = .invalid u) :
    s.claimEntry e tid = some (u.unqueue e) := by
  rw [State.claimEntry_lone hg]
  rcases h with h | h <;> simp [State.claimFails, h]
theorem State.claimEntry_cut {c : Nat} (h : s.loadRecord e.dom e.recA tid = .cut c) : s.claimEntry e tid = some (s.cutQueue e c) := by
  rw [State.claimEntry_lone hg]
  simp [State.claimFails, h]
end

/-- The slot of the one domain that it is granted to takes the first of its records of the highest priority that can be claimed. -/
theorem State.recordClaim_first {s u : State} {tid : Nat} {d : Dp} {e : RunEntry} {rest : List RunEntry} (hfree : s.thread? tid = none)
    (hlive : s.retired (tid / 16) = false) (hd : (s.tile (tid / 16)).dps.filter (fun d => d.v && bitOf d.tslot (tid % 16)) = [d])
    (hs : s.slicedOut d.dom = false) (hr : s.atRest d.dom = false) (hn : s.nodeOf d.dom ≠ none)
    (hq : s.runList (dieOf (tid / 16)) d.dom 3 = e :: rest) (hc : s.claimEntry e tid = some u) : s.recordClaim tid = some (u.sliceStart d.dom) := by
  have hclaim : s.claimFrom (dieOf (tid / 16)) d.dom tid [3, 2, 1, 0] = some u := by simp [State.claimFrom, hq, hc]
  simp [State.recordClaim, hfree, hlive, hd, hs, hr, hn, hclaim]

-- Gang barriers -------------------------------------------------------------------------------------------------------

/-- A gang barrier that every member has arrived at, with its stores performed, completes for its members (13:R177). -/
theorem State.gangBarrier_all {s : State} {tile gang : Nat} {t : Thread}
    (hf : s.threads.find? (fun t => t.tile == tile && t.info.kind == 1 && t.info.gang == gang) = some t)
    (hall : ∀ u ∈ s.gangOfThread t, u.flow.gba = true ∧ s.storesDone u.tid = true) :
    s.gangBarrier tile gang = some ((s.gangOfThread t).foldl (fun z u => z.onThread u.tid (fun u =>
      if u.status = .gbar then (let v := u.stepOver; { v with flow := { v.flow with gba := false } })
      else { u with flow := { u.flow with gba := false, gdone := true } })) s) := by
  have hready : ((s.gangOfThread t).all fun u => u.flow.gba && s.storesDone u.tid) = true := by simpa using hall
  obtain ⟨hp, as, bs, hsplit, hnot⟩ := List.find?_eq_some_iff_append.mp hf
  have hfind : s.threads.find? (fun t => t.tile == tile && t.info.kind == 1 && t.info.gang == gang &&
      (s.gangOfThread t).all fun u => u.flow.gba && s.storesDone u.tid) = some t :=
    List.find?_eq_some_iff_append.mpr ⟨by rw [hp, hready]; rfl, as, bs, hsplit, fun a ha => by
      have := hnot a ha
      simp_all⟩
  rw [State.gangBarrier, hfind]
  rfl

-- Packets (13:R180-R182) ----------------------------------------------------------------------------------------------

section
variable {s : State} {coord dom sender i : Nat} {beats : List Word} (hi : coordIdx (coord % 2048) = some i)
include hi
theorem State.intoQueue_accepts {n : Nat} {d : Dp} (hlive : s.retired i = false) (hd : (s.tile i).dp? dom = some (n, d))
    (hroom : ((s.tile i).rxq.getD n []).length + beats.length ≤ 512) :
    s.intoQueue coord dom sender beats = some (true, s.setTile i { s.tile i with
      rxq := (s.tile i).rxq.set n ((s.tile i).rxq.getD n [] ++ packetBeats beats sender) }) := by
  simp only [State.intoQueue, hi, hlive, hd, Nat.not_lt.mpr hroom, Bool.false_eq_true, if_false]
theorem State.intoQueue_refuses (h : s.retired i = true ∨ (s.tile i).dp? dom = none) : s.intoQueue coord dom sender beats = some (false, s) := by
  have hnone : (if s.retired i then none else (s.tile i).dp? dom) = none := by rcases h with h | h <;> simp [h]
  simp only [State.intoQueue, hi, hnone]
end

/-- A packet from another package is answered with whether it entered its queue. -/
theorem State.packetAccept_arrival {s u : State} {tid : Nat} {x : Arrival} {ok : Bool}
    (h : s.intoQueue x.coord x.dom x.sender x.beats = some (ok, u)) :
    s.packetAccept tid (some x) = some (if x.pkg < 16 then
      (u.flitsIn x.dom ((x.beats.length + 59) / 60)).sendReply x.dom x.pkg x.tag (if ok then .done else .domain) []
      else (u.portReceived x.dom).emit (.reply x.pkg x.tag (if ok then .done else .domain) [])) := by
  simp [State.packetAccept, h]

/-- The oldest closed packet of a thread has gone, accepted or refused; its guard is told. -/
def State.packetGone (z : State) (tid : Nat) (p : Packet) (rest : List Packet) (ok : Bool) : State :=
  (z.onThread tid (fun t => { t with flow := { t.flow with egress := rest } })).toRouter (.packetAck tid p.guard ok)

section
variable {s : State} {tid : Nat} {t : Thread} {p : Packet} {rest : List Packet} (ht : s.thread? tid = some t) (he : t.flow.egress = p :: rest)
include ht he
theorem State.packetAccept_noTarget (hc : s.coordOf t.dom p.coord = none) : s.packetAccept tid none = some (s.packetGone tid p rest false) := by
  simp only [State.packetAccept, ht, he, hc, State.packetGone]
theorem State.packetAccept_own {k i : Nat} {u : State} {ok : Bool} (hc : s.coordOf t.dom p.coord = some (k, s.me, i))
    (hq : s.intoQueue p.coord t.dom (s.pl.pkg * 2048 + idxCoord t.tile) p.beats = some (ok, u)) :
    s.packetAccept tid none = some (u.packetGone tid p rest ok) := by
  simp only [State.packetAccept, ht, he, hc, hq, State.packetGone, beq_self_eq_true, if_true, Option.bind_some]
end

theorem State.packetAcked_found {s : State} {tid q : Nat} {ok : Bool}
    (h : s.eng.router.find? (fun m => match m with | .packetAck src _ _ => src == tid | _ => false) = some (.packetAck tid q ok)) :
    s.packetAcked tid = some ((s.dropMsg (.packetAck tid q ok)).onThread tid (·.resolve q (if ok then .tru else .fls))) := by
  unfold State.packetAcked
  split
  · next heq => cases heq.symm.trans h; rfl
  · next hno => exact absurd h (hno _ _ _)

/-- Settles O51: each step is its operation, whose outcome is one of its branches. -/
theorem threadSteps : Obligations.ThreadSteps := by
  unfold Obligations.ThreadSteps
  refine ⟨fun s tid t ht => ⟨?park, ?due, ?held, ?stop⟩, fun s tid t ht => ⟨?leaves, ?gang, ?stays, ?watchdog, ?noWatchdog, ?abort, ?waita, ?larder⟩,
    fun s t hl => ?written, fun s hl => ⟨fun w => illegalEncoding_traps hl w, fun x hf => instructionFetchFault_traps hl hf⟩,
    fun s tid k va t ht hc => ⟨?hit, ?walk⟩, fun s k tile dom pa line hl hr => ⟨?pinned, fun hp => ⟨?read, ?write⟩⟩,
    fun s tile off dom data htile hlive hoff hgrant hscr hpin hbad => ?sram,
    fun s u tid d e rest hfree hlive hd hs hr hn hq hg => ⟨fun h => ?claim, fun h => ?invalid, fun c h => ?cut⟩,
    fun s tile gang t hf hall => .of_some (State.gangBarrier_all hf hall), fun s tid i x hi => ⟨?accepts, ?refuses⟩,
    fun s tid t p rest ht he => ⟨?noTarget, fun k i hc hi => ⟨?sentRefused, ?sentAccepted⟩⟩, fun s tid q ok h => .of_some (State.packetAcked_found h)⟩
  case park => exact fun hst hd => .of_some (State.parkDone_done ht hst hd)
  case due => exact fun x hh hd ho => .of_some ((State.takeCause_due ht hh hd).trans (congrArg some (State.serviceTrap_due hd ho)))
  case held => exact fun h hh => .of_some (State.takeCause_held ht hh)
  case stop =>
    intro hs ho k v
    have hstop := State.preempted_leaves ht hs ho
    exact ⟨fun hm => .of_some (hstop.trans (congrArg some (if_pos hm))), fun hm => .of_some (hstop.trans (congrArg some (if_neg (Bool.eq_false_iff.mp hm))))⟩
  case leaves => exact fun hst hm hk => .of_some ((State.leaves_ready ht hst hm).trans (congrArg some (State.leaveGang_lone hk)))
  case gang => exact fun hst hm h3 h6 => .of_some ((State.leaves_ready ht hst hm).trans (congrArg some (State.leaveGang_gang h3 h6)))
  case stays => exact fun _ hm => .of_none (State.leaves_waits ht hm)
  case watchdog => exact fun hh hp hst hk => .of_some (State.watchdogExpires_holder ht hh hp hst hk)
  case noWatchdog => exact fun h => .of_none (State.watchdogExpires_stands ht h)
  case abort => exact fun hw hp => packetAbort_closes ht hw hp
  case waita =>
    intro hst hva hat hn hk hc hm
    have hleave := State.waitaLeave_waiting ht hst hva hat hn hk hc hm
    exact ⟨fun h => .of_some (hleave.trans (if_pos h)), fun h => .of_some (hleave.trans (if_neg (Bool.eq_false_iff.mp h)))⟩
  case larder => exact fun hk hr hh hc => .of_some (State.larderRoom_room ht hk hr hh hc)
  case written => exact fun h1 h2 => State.leaveSlot_written (t := { t with info := { t.info with ckv := false, rin := 0 } }) hl rfl rfl rfl rfl h1 h2
  case hit => exact fun x hx hp hb => .of_some ((State.walkFor_translated ht (State.translate_hit hc hx hp hb)).trans (by rw [hx]))
  case walk => 
    intro ea e sh seen hx hr hl hw
    have hmiss := State.translate_miss (m := t.priv) (k := k) hc hx
    refine ⟨fun he hp => ?_, fun h => ?_⟩
    · obtain ⟨pa, hfill⟩ := State.walk_fills (tile := t.tile) hr hl hw he hp
      exact .of_some ((State.walkFor_translated ht (hmiss.trans hfill)).trans (by rw [hx]))
    · obtain ⟨c, hno⟩ := State.walk_refused (tile := t.tile) hr hl hw h
      exact .of_none (State.walkFor_refused ht (hmiss.trans hno))
  case pinned => exact fun hp => .of_none (State.directory_pinned hl hp)
  case read => exact fun hk => .of_some (State.directory_read hl hr hp hk)
  case write => exact fun u hk ht => .of_some (State.directory_write hl hr hp hk ht)
  case sram =>
    obtain ⟨hread, hwrite⟩ := State.serveTile_scratch (data := data) htile hlive hoff hgrant hscr hpin
    exact ⟨.of_some (hread hbad), .of_some hwrite⟩
  case claim => exact .of_some (State.recordClaim_first hfree hlive hd hs hr hn hq (State.claimEntry_loads hg (.inl h)))
  case invalid => exact .of_some (State.recordClaim_first hfree hlive hd hs hr hn hq (State.claimEntry_loads hg (.inr h)))
  case cut => exact .of_some (State.recordClaim_first hfree hlive hd hs hr hn hq (State.claimEntry_cut hg h))
  case accepts => exact fun n d hlive hd hroom => .of_some (State.packetAccept_arrival (State.intoQueue_accepts hi hlive hd hroom))
  case refuses => exact fun h => .of_some (State.packetAccept_arrival (State.intoQueue_refuses hi h))
  case noTarget => exact fun hc => .of_some (State.packetAccept_noTarget ht he hc)
  case sentRefused => exact fun h => .of_some (State.packetAccept_own ht he hc (State.intoQueue_refuses hi h))
  case sentAccepted => exact fun n d hlive hd hroom => .of_some (State.packetAccept_own ht he hc (State.intoQueue_accepts hi hlive hd hroom))

end Sys2Proof.Machine
end

section
/-! PROOFS. Steps of compacts, matrix units, engines and task units (03:R43-R47, 11:R151-R166, 13:R186-R198, 29:R333). -/
namespace Sys2Proof.Machine
open Sys2Proof
-- The boundary of a compact (03:R44-R47) ------------------------------------------------------------------------------

/-- The guards of a compact's SYNCs resolve to whether its vote is not 0 (03:R45). -/
def State.resolveVotes (s : State) (c : Compact) (r : Nat) : State :=
  c.members.foldl (fun z m => match m.vote with
    | some (_, _, q) => z.onThread m.tid (·.resolve q (if r = 0 then .fls else .tru))
    | none => z) s
/-- A compact in its next superstep, its members' plans chosen by the vote (03:R44). -/
def Compact.nextStep (c : Compact) (r : Nat) : Compact :=
  { c with superstep := c.superstep + 1, members := c.members.map (fun m =>
      { m with vote := none, told := false, exchDone := false, variant := if c.superstep = 0 then 0 else Nat.min r (m.plan.length - 1) }) }
/-- The deferred reads of a compact's tiles are served and the waits on its lines end (03:R41, 13:R178). -/
def State.serveStep (s : State) (bar : Nat) (d : Compact) : State :=
  let z := d.members.foldl (fun z m => z.serveReads m.tile 64) s
  (z.pinsOf bar).foldl (fun z p => z.wakePin d.dom p) z
/-- Step 4 of a boundary: the members go on, or the compact is stopped or sealed first (03:R44). -/
def State.afterBoundary (s : State) (bar : Nat) (d : Compact) (kinds : List Nat) : State :=
  let k := s.stepFour bar d kinds
  if k = 0 then s.resumeCompact bar d else s.setCompact bar { d with phase := k }

section
variable {s : State} {bar : Nat} {votes : List (Nat × Nat)} {c : Compact} (hc : s.compact? bar = some c) (hp : c.preempted = false)
  (hf : c.fault = 0) (hv : ∀ v ∈ votes, v.2 < 16)

include hv in
/-- Votes of other packages whose codes are those of SYNC tell of no fault (29:R333). -/
theorem votes_tell_noFault : (votes.findSome? fun v => if 32 ≤ v.2 then some (v.2 - 32)
    else if v.2 = 16 && c.members.any (·.vote.isSome) then some 2 else none) = none := by
  refine List.findSome?_eq_none_iff.mpr fun v hm => ?_
  have := hv v hm
  rw [if_neg (by omega), if_neg (by simp; omega)]

include hc hp hf hv
/-- Without a fault, a boundary is what its phase says, and in phase 0 what has been voted. -/
theorem State.boundary_preempts (h1 : c.phase = 1) (hg : s.gangStill bar c = true) : s.boundary bar votes = some (s.preemptCompact bar c) := by
  have hsame : { c with fault := 0 } = c := by rw [← hf]
  simp only [State.boundary, hc, hf, votes_tell_noFault hv, Option.getD_none, if_true, hsame]
  simp [hp, h1, hg]
theorem State.boundary_seals (h2 : c.phase = 2) (hg : s.gangStill bar c = true) : s.boundary bar votes = some (s.sealCompact bar c) := by
  have hsame : { c with fault := 0 } = c := by rw [← hf]
  simp only [State.boundary, hc, hf, votes_tell_noFault hv, Option.getD_none, if_true, hsame]
  simp [hp, h2, hg]
theorem State.boundary_tells {z : State} {d : Compact} (h0 : c.phase = 0) (ht : s.tellArrivals bar c = some (z, d))
    (hn : d.members.length + votes.length ≠ d.nmem) : s.boundary bar votes = some z := by
  have hsame : { c with fault := 0 } = c := by rw [← hf]
  simp only [State.boundary, hc, hf, votes_tell_noFault hv, Option.getD_none, if_true, hsame]
  simp [hp, h0, ht, hn]

section
variable (h0 : c.phase = 0) (ht : s.tellArrivals bar c = none) (harr : c.members.all s.arrivedAt = true)
  (hn : c.members.length + votes.length = c.nmem) (hd : s.phaseDone bar c = true)
include h0 ht harr hn hd
/-- Members that vote in different kinds are a compact fault (03:R45). -/
theorem State.boundary_mixed {kinds : List Nat} (hk : (c.members.filterMap (·.vote)).map (fun v => v.2.1) ++ votes.map (·.2) = kinds)
    (hany : kinds.any (· % 4 != kinds.headD 0 % 4) = true) : s.boundary bar votes = some (s.faultCompact bar c 1) := by
  have hsame : { c with fault := 0 } = c := by rw [← hf]
  simp only [State.boundary, hc, hf, votes_tell_noFault hv, Option.getD_none, if_true, hsame]
  simp only [hp, h0, ht, hf, harr, hn, hd, hk, hany, Option.getD_none, Bool.not_true, Bool.false_or, bne_self_eq_false]
  simp
theorem State.boundary_passes {kinds : List Nat} {r : Nat} (hk : (c.members.filterMap (·.vote)).map (fun v => v.2.1) ++ votes.map (·.2) = kinds)
    (hany : kinds.any (· % 4 != kinds.headD 0 % 4) = false)
    (hr : voteOf (kinds.headD 0 % 4) ((c.members.filterMap (·.vote)).map (·.1) ++ votes.map (·.1)) = r) :
    s.boundary bar votes = some ((((s.resolveVotes c r).setCompact bar (c.nextStep r)).serveStep bar (c.nextStep r)).afterBoundary bar
      (c.nextStep r) kinds) := by
  have hguard : guardOf (r != 0) = if r = 0 then .fls else .tru := by by_cases h : r = 0 <;> simp [guardOf, h]
  have hsame : { c with fault := 0 } = c := by rw [← hf]
  have hgo : (c.preempted || decide (c.phase = 3)) = false := by simp [hp, h0]
  have h1 : c.phase ≠ 1 := by omega
  have h2 : c.phase ≠ 2 := by omega
  have hready : (!c.members.all s.arrivedAt || c.members.length + votes.length != c.nmem || !s.phaseDone bar c) = false := by simp [harr, hn, hd]
  simp only [State.boundary, hc, eq_true hf, votes_tell_noFault hv, Option.getD_none, if_true, hsame]
  simp only [hgo, h1, h2, ht, hready, hk, hany, hr, hguard, eq_true hf, ne_eq, not_true, and_false, Option.getD_none, Bool.false_eq_true, if_false]
  rfl
end
end

theorem State.arrivedAt_iff {s : State} {m : Member} :
    s.arrivedAt m = true ↔ m.vote.isSome = true ∧ ∃ t, s.thread? m.tid = some t ∧ t.status = .sync := by
  unfold State.arrivedAt
  cases s.thread? m.tid <;> simp
theorem State.phaseDone_of_performed {s : State} {bar : Nat} {c : Compact} (hfly : c.fly = []) (hsent : c.sent = [])
    (h : ∀ t ∈ s.gangOf bar, s.storesDone t.tid = true ∧ s.farAwaited c t = false) : s.phaseDone bar c = true := by
  simpa [State.phaseDone, hfly, hsent] using h

-- The resumption and the dissolution of a compact (03:R46-R47) -------------------------------------------------------

theorem State.compactResume_of_saved {s u : State} {bar : Nat} {c : Compact} (hc : s.compact? bar = some c) (hs : s.slicedOut c.dom = false)
    (hr : s.atRest c.dom = false) (h : s.resumeSaved bar = some u) : s.compactResume bar = some (u.sliceStart c.dom) := by
  simp [State.compactResume, hc, hs, hr, h]

/-- The records of a pre-empted compact's members are loaded, all of them or none (03:R47). -/
def State.loadSaved (s : State) (c : Compact) : Option State :=
  (c.members.flatMap (·.recs)).foldl (fun (z : Option State) r => z.bind (fun z => match z.loadRecord c.dom r.2 r.1 with
    | .ok z => some z
    | _ => none)) (some s)
/-- A compact whose gangs are loaded pins its lines again from home (03:R47). -/
def State.pinSaved (u : State) (bar : Nat) (c : Compact) : State :=
  let s1 := u.setCompact bar { c with preempted := false, phase := 0, members := c.members.map (fun m => { m with recs := [] }) }
  let s2 := c.members.foldl (fun z m => z.emptyBanks m.tile (z.compactBank m.tile)) s1
  let s3 := (s2.pinsOf bar).foldl (fun (z : State) p =>
    if 2 ^ 60 ≤ p.line then z else (z.othersYield noTile c.dom p.line true).write (sramAddr p.tile (p.sline * 192))
      (if c.phase = 4 && !p.scl then List.replicate 192 0 else z.read p.line 192)) s2
  let s4 : State := { s3 with ms := { s3.ms with
    pins := s3.ms.pins.map (fun (p : Pin) => if p.bar = bar && p.far.isNone then { p with away := false, dirty := 0 } else p) } }
  c.members.foldl (fun z m => z.onThread m.tid (fun t => { t with flow := { t.flow with synced := true } })) s4

section
variable {s : State} {bar : Nat} {c : Compact} {far : List Pin} (hc : s.compact? bar = some c) (hp : c.preempted = true)
  (hfree : ∀ m ∈ c.members, ∀ r ∈ m.recs, r.1 % 16 ∈ s.freeSlots (r.1 / 16) c.dom) (hre : s.pl.refills.any (·.bar == bar) = false)
  (hpo : s.pl.posted.any (·.tid == 2 ^ 60 + bar) = false) (hfar : (s.pinsOf bar).filter (fun p => p.away && 2 ^ 60 ≤ p.line) = far)
include hfree in
theorem State.savedSlots_free : ((c.members.flatMap (·.recs)).all fun r => (s.freeSlots (r.1 / 16) c.dom).contains (r.1 % 16)) = true := by
  simp only [List.all_eq_true, List.mem_flatMap, List.contains_iff_mem]
  rintro r ⟨m, hm, hr⟩
  exact hfree m hm r hr
include hc hp hfree hre hpo hfar
theorem State.resumeSaved_asks (hne : far ≠ []) : s.resumeSaved bar = some (s.askRefills c.dom far) := by
  have hsome : far.isEmpty = false := by simpa using hne
  simp only [State.resumeSaved, hc, hp, State.savedSlots_free hfree, hre, hpo, hfar, hsome, Bool.not_true, Bool.not_false, Bool.or_self, if_true,
    Bool.false_eq_true, if_false]
theorem State.resumeSaved_loads (he : far = []) {u : State} (hu : s.loadSaved c = some u) : s.resumeSaved bar = some (u.pinSaved bar c) := by
  have hnone : far.isEmpty = true := by simp [he]
  simp only [State.resumeSaved, hc, hp, State.savedSlots_free hfree, hre, hpo, hfar, hnone, Bool.not_true, Bool.or_self, Bool.false_eq_true, if_false]
  exact congrArg (Option.map _) hu
end

/-- A compact that every member has dissolved publishes its lines and is gone (03:R46). -/
def State.dissolved (s : State) (bar : Nat) (c : Compact) : State :=
  let s1 := (s.pinsOf bar).foldl (fun z p => z.publish c.dom c.node p) s
  let s2 := c.members.foldl (fun z m => z.serveReads m.tile z.ms.defer.length) s1
  c.members.foldl (fun z m => z.onThread m.tid (fun t => { t with flow := { t.flow with ddone := true } })) (s2.dropCompact bar)
theorem State.dissolveAll_told {s : State} {bar : Nat} {c : Compact} (hc : s.compact? bar = some c) (hm : c.members ≠ [])
    (hall : ∀ m ∈ c.members, m.dissolving = true) (hf : c.fault = 0) : s.dissolveAll bar true = some (s.dissolved bar c) := by
  have hgo : (c.members.isEmpty || !c.members.all (·.dissolving) || decide (c.fault ≠ 0) || (!true && c.members.length != c.nmem)) = false := by
    simpa [hm, hf] using hall
  simp only [State.dissolveAll, hc, hgo]
  rfl

theorem State.onThread_eng (s : State) (tid : Nat) (f : Thread → Thread) : (s.onThread tid f).eng = s.eng := by
  unfold State.onThread State.setThread
  repeat' split
  all_goals rfl
theorem State.autoLeave_eng (s : State) : s.autoLeave.eng = s.eng := by
  unfold State.autoLeave
  split <;> rfl
theorem State.compact?_dropCompact (s : State) (bar : Nat) : (s.dropCompact bar).compact? bar = none := by
  rw [State.compact?, State.dropCompact, State.autoLeave_eng]
  simp [delKey]
/-- The identifier of a compact that is dissolved is free. -/
theorem State.compact?_dissolved (s : State) (bar : Nat) (c : Compact) : (s.dissolved bar c).compact? bar = none :=
  foldl_keeps (fun z : State => z.compact? bar = none) _ c.members
    (fun z m h => by simpa only [State.compact?, State.onThread_eng] using h) _ (State.compact?_dropCompact _ bar)

-- Exchanges (03:R43, 29:R333) -----------------------------------------------------------------------------------------

theorem State.failCompact_first {s : State} {bar : Nat} {c : Compact} (hf : c.fault = 0) : s.failCompact bar c 3 =
    if c.clk then (s.setCompact bar { c with fault := 3 }).emit (.arrival bar 0 35) else s.setCompact bar { c with fault := 3 } := by
  simp only [State.failCompact, hf, ne_eq, not_true, if_false, State.tellMembers]
section
variable {s : State} {bar tile off : Nat} {data : List Byte} {c : Compact} (hc : s.compact? bar = some c)
include hc
section
variable (hd : data ≠ []) (ht : c.members.any (·.tile == tile) = true) (ho : off + data.length ≤ Config.sramSize)
include hd ht ho
theorem State.exchangeWrite_silent : s.exchangeWrite bar tile off data none none = some (s.tileStore tile off data) := by
  have hgo : (c.members.any (·.tile == tile) && decide (off + data.length ≤ Config.sramSize)) = true := by simp only [ht, ho, decide_true, Bool.and_self]
  have hne : (!data.isEmpty) = true := by simpa using hd
  simp only [State.exchangeWrite, hc, hgo, hne, if_true]
theorem State.exchangeWrite_flagged (o : Nat) :
    s.exchangeWrite bar tile off data (some o) none = some ((s.tileStore tile off data).bumpFlag tile o) := by
  have hgo : (c.members.any (·.tile == tile) && decide (off + data.length ≤ Config.sramSize)) = true := by simp only [ht, ho, decide_true, Bool.and_self]
  have hne : (!data.isEmpty) = true := by simpa using hd
  simp only [State.exchangeWrite, hc, hgo, hne, if_true]
theorem State.exchangeWrite_package {p : Nat} (hp : p < 16) (tag : Nat) : s.exchangeWrite bar tile off data none (some (p, tag)) =
    some (((s.tileStore tile off data).flitsIn c.dom (dataFlits data.length)).sendReply c.dom p tag .done []) := by
  have hgo : (c.members.any (·.tile == tile) && decide (off + data.length ≤ Config.sramSize)) = true := by simp only [ht, ho, decide_true, Bool.and_self]
  have hne : (!data.isEmpty) = true := by simpa using hd
  simp only [State.exchangeWrite, hc, hgo, hne, hp, if_true]
end
/-- The oldest entry in flight lands on a tile of this package. -/
theorem State.exchangeWrite_lands {k i : Nat} {x : ExchEntry} {rest : List ExchEntry} (hf : c.fly = x :: rest)
    (hx : s.coordOf c.dom x.dst = some (k, s.me, i)) (hk : k ≤ 1) :
    let v := (s.setCompact bar { c with fly := rest }).tileStore i x.doff (s.read (sramAddr x.src x.soff) x.len)
    s.exchangeWrite bar 0 0 [] none none = some (if x.fe then v.bumpFlag i x.foff else v) := by
  have hdst : (s.setCompact bar { c with fly := rest }).coordOf c.dom x.dst = some (k, s.me, i) := hx
  have hme : (s.setCompact bar { c with fly := rest }).me = s.me := rfl
  simp [State.exchangeWrite, hc, hf, hdst, hme, hk]
theorem State.exchangeLost_connection : s.exchangeLost bar false = some (s.failCompact bar c 3) := by
  simp [State.exchangeLost, hc]
theorem State.exchangeLost_late (hx : c.xto ≠ 0) (hp : c.fly.any (·.path == 1) = true ∨ c.sent.any (·.path == 1) = true)
    (hv : c.members.all (·.vote.isSome) = true) : s.exchangeLost bar true = some (s.failCompact bar c 3) := by
  have hway : (c.fly.any (·.path == 1) || c.sent.any (·.path == 1)) = true := by simpa using hp
  simp only [State.exchangeLost, hc, hx, hway, hv]
  rfl
theorem State.exchangeLost_untimed (hx : c.xto = 0) : s.exchangeLost bar true = none := by simp [State.exchangeLost, hc, hx]
end

-- Matrix units (11:R151-R154) -----------------------------------------------------------------------------------------

theorem State.acceptHead_empty {s : State} {tile : Nat} {th : Thread} (h : th.flow.mq = []) : s.acceptHead tile th = none := by
  simp [State.acceptHead, h]
/-- The first thread in turn with a command queued is the one whose command is accepted. -/
theorem State.matrixAccept_first {s u : State} {tile : Nat} {th : Thread}
    (hf : ((List.range 16).map (fun i => tile * 16 + ((s.tile tile).mlast + 1 + i) % 16)).findSome? (fun x =>
      (s.thread? x).filter (fun t => !t.flow.mq.isEmpty)) = some th) (ha : s.acceptHead tile th = some u) : s.matrixAccept tile = some u := by
  have hfirst : ((List.range 16).map (fun i => tile * 16 + ((s.tile tile).mlast + 1 + i) % 16)).findSome?
      (fun x => (s.thread? x).bind (s.acceptHead tile)) = some u := by
    obtain ⟨xs, x, ys, hsplit, hx, hno⟩ := List.findSome?_eq_some_iff.mp hf
    refine List.findSome?_eq_some_iff.mpr ⟨xs, x, ys, hsplit, ?_, fun y hy => ?_⟩
    · obtain ⟨hth, -⟩ := Option.filter_eq_some_iff.mp hx
      rw [hth, Option.bind_some, ha]
    · cases hy' : s.thread? y with
      | none => rfl
      | some t =>
        have hempty := hno y hy
        rw [hy'] at hempty
        exact State.acceptHead_empty (by simpa using hempty)
  simp only [State.matrixAccept, hfirst]

/-- The command at the head of a thread's queue leaves it. -/
def State.popCmd (s : State) (tid : Nat) (rest : List MEntry) : State := s.onThread tid (fun t => { t with flow := { t.flow with mq := rest } })
section
variable {s : State} {tile : Nat} {th : Thread} {e : MEntry} {rest : List MEntry} (hq : th.flow.mq = e :: rest)
include hq
theorem State.acceptHead_false (hg : th.cond e.guard = .fls) : s.acceptHead tile th = some (s.popCmd th.tid rest) := by
  simp only [State.acceptHead, hq, hg, State.popCmd]
theorem State.acceptHead_starts (hg : th.cond e.guard = .tru) (hs : e.cmd.isScale = false) (hr : th.readsAcc e.cmd.off = false) :
    s.acceptHead tile th = some (((s.setTile tile { s.tile tile with mlast := th.slot }).startCmd tile e).popCmd th.tid rest) := by
  cases hcmd : e.cmd with
  | mscl a o n => simp [hcmd, MCmd.isScale] at hs
  | mzero a o | mma a o x y k =>
    rw [hcmd] at hr
    simp only [MCmd.off] at hr
    simp only [State.acceptHead, hq, hg, hcmd, hr, State.popCmd, Bool.false_eq_true, if_false]
end
theorem setKey_setKey {α : Type} (l : List (Nat × α)) (k : Nat) (x y : α) : setKey (setKey l k x) k y = setKey l k y := by
  induction l with
  | nil => simp [setKey]
  | cons p l ih =>
    obtain ⟨j, z⟩ := p
    by_cases h : j = k <;> simp [setKey, h, ih]
theorem State.setTile_setTile (s : State) (i : Nat) (t u : Tile) : (s.setTile i t).setTile i u = s.setTile i u := by
  simp only [State.setTile, setKey_setKey]
/-- A command that starts joins those being run, and MU.WM of its accumulator is 0 (11:R151). -/
theorem State.startCmd_of_turn (s : State) (tile slot : Nat) (e : MEntry) :
    let t := s.tile tile
    let v := s.setTile tile { t with mlast := slot, mrun := t.mrun ++ [⟨e, [], [], 0, 0, t.cyc⟩] }
    (s.setTile tile { t with mlast := slot }).startCmd tile e = if e.cmd.isGone then v else
      v.onThread e.tid (fun th => { th.capture with mu := { th.mu with wm := th.mu.wm.set e.cmd.acc 0 } }) := by
  simp only [State.startCmd, State.setTile_tile, State.setTile_setTile, Mu.setWm]

section
variable {s : State} {tile : Nat} {r : MRun} {rest : List MRun} (hr : (s.tile tile).mrun = r :: rest)
include hr
theorem State.takeScale_next {e : ScaleEntry} (hs : r.entry.cmd.scaled = true) (hl : r.scales.length < r.entry.cmd.chunks)
    (he : (s.tile tile).scq.find? (fun e => e.slot == r.entry.tid % 16 && e.acc == r.entry.cmd.acc) = some e) :
    s.takeScale tile = some (s.setTile tile { s.tile tile with
      scq := (s.tile tile).scq.erase e, mrun := { r with scales := r.scales ++ [e.bytes] } :: rest }) := by
  simp [State.takeScale, hr, hs, he, Nat.not_le.mpr hl]

section
variable (hs : r.entry.cmd.scaled = true → r.entry.cmd.chunks ≤ r.scales.length) (hres : r.res ≠ []) (hgone : r.entry.cmd.isGone = false)
include hs hres hgone
theorem State.matrixComplete_rows (h : r.rows < 28) : s.matrixComplete tile =
    some ((s.setTile tile { s.tile tile with mrun := { r with rows := r.rows + 4 } :: rest }).onThread r.entry.tid
      (r.writeRows (rest.any (fun q => q.entry.tid == r.entry.tid && q.entry.cmd.acc == r.entry.cmd.acc)))) := by
  have hready : (r.entry.cmd.scaled && decide (r.scales.length < r.entry.cmd.chunks)) = false := by simpa using hs
  have hrun : r.res.isEmpty = false := by simpa using hres
  simp only [State.matrixComplete, hr, hready, hrun, hgone, h, Bool.false_eq_true, if_false, if_true]
theorem State.matrixComplete_ends (h : 28 ≤ r.rows) : s.matrixComplete tile =
    some ((s.setTile tile { s.tile tile with mrun := rest }).onThread r.entry.tid (fun th =>
      ((r.writeRows (rest.any (fun q => q.entry.tid == r.entry.tid && q.entry.cmd.acc == r.entry.cmd.acc)) th).countEv 8 1).countEv 9
        ((s.tile tile).cyc - r.since).toNat)) := by
  have hready : (r.entry.cmd.scaled && decide (r.scales.length < r.entry.cmd.chunks)) = false := by simpa using hs
  have hrun : r.res.isEmpty = false := by simpa using hres
  simp only [State.matrixComplete, hr, hready, hrun, hgone, Nat.not_lt.mpr h, Bool.false_eq_true, if_false]
end
end

-- Messages of matrix units (11:R159-R165) -----------------------------------------------------------------------------

section
variable {s : State} {tile t src q acc dom : Nat} {a b k cap : Word} (hm : firstFor tile isMmar s.eng.router [] = some (.mmar t src q acc a b k cap dom))
include hm
theorem State.mmarReceive_refused {x : Nat} (hc : s.capCheck tile cap dom (if k = 0 then [40, 42] else [40]) acc = .error x) :
    s.mmarReceive tile = some ((s.dropMsg (.mmar t src q acc a b k cap dom)).toRouter (.status src q 1 x)) := by
  simp only [State.mmarReceive, hm, hc]
section
variable {dp : Nat} {h : Thread} {oa ob : MOper} {wa wb : Win} (hc : s.capCheck tile cap dom (if k = 0 then [40, 42] else [40]) acc = .ok (dp, h))
  (ho : (s.tile tile).operands a b k = .ok ((oa, wa), (ob, wb))) (hw : s.windowTrap h [a.toNat % 32, b.toNat % 32] = none)
include hc ho hw
theorem State.mmarReceive_cancels (hk : k = 0) : s.mmarReceive tile = some ((((s.setTile tile { s.tile tile with
      mrecv := (s.tile tile).mrecv.filter (fun e => !(e.sender == src && e.cmd.acc == acc)) }).useCap tile dp).dropMsg
        (.mmar t src q acc a b k cap dom)).toRouter (.status src q 1 0)) := by
  simp only [State.mmarReceive, hm, hc, ho, hw]
  exact if_pos hk
theorem State.mmarReceive_accepts (hk : k ≠ 0) (hroom : (s.tile tile).mrecv.length < 16) :
    let e : MEntry := ⟨.mma acc (h.bound ((h.ao acc).getD 0)) oa ob k.toNat, 0, h.tid, src⟩
    s.mmarReceive tile = some (((((s.setTile tile { s.tile tile with mrecv := (s.tile tile).mrecv ++ [e] }).onThread h.tid
      (fun th => { th with mu := th.mu.setOwn acc 1 })).useCap tile dp).dropMsg (.mmar t src q acc a b k cap dom)).toRouter (.status src q 1 0)) := by
  simp only [State.mmarReceive, hm, hc, ho, hw]
  exact (if_neg hk).trans (if_neg (Nat.not_le.mpr hroom))
end
end

theorem guardOf_code (x : Nat) : guardOf (x == 0) = if x = 0 then .tru else .fls := by by_cases h : x = 0 <;> simp [guardOf, h]
theorem State.mmarStatus_found {s : State} {tid q unit code : Nat}
    (h : s.eng.router.find? (fun m => match m with | .status src _ _ _ => src == tid | _ => false) = some (.status tid q unit code)) :
    s.mmarStatus tid = some ((s.dropMsg (.status tid q unit code)).onThread tid (fun t =>
      if code = 0 then t.resolve q .tru
      else { t.resolve q .fls with mu := { (t.resolve q .fls).mu with rst := unit * 16 + code } })) := by
  unfold State.mmarStatus
  split
  · next heq =>
    cases heq.symm.trans h
    by_cases hc : code = 0 <;> simp only [guardOf_code, hc, if_true, if_false]
  · next hno => exact absurd h (hno _ _ _ _)

section
variable {s : State} {tile t src q acc dom : Nat} {es : List (List Byte)} (hm : firstFor tile isScaleMsg s.eng.router [] = some (.scale t src q acc dom es))
include hm
theorem State.scaleMessage_retired (hr : s.retired tile = true) :
    s.scaleMessage tile = some ((s.dropMsg (.scale t src q acc dom es)).toRouter (.scaleAck src q 3)) := by
  simp only [State.scaleMessage, hm, hr, if_true]
theorem State.scaleMessage_noDomain (hr : s.retired tile = false) (hd : (s.tile tile).dp? dom = none) :
    s.scaleMessage tile = some ((s.dropMsg (.scale t src q acc dom es)).toRouter (.scaleAck src q 6)) := by
  simp only [State.scaleMessage, hm, hr, hd, Option.bind_none, Bool.false_eq_true, if_false]
theorem State.scaleMessage_room {dp slot : Nat} {d : Dp} (hr : s.retired tile = false) (hd : (s.tile tile).dp? dom = some (dp, d))
    (hh : (s.tile tile).host.getD dp (false, 0) = (true, slot)) (hroom : es.length ≤ (s.tile tile).scaleRoom dom) :
    s.scaleMessage tile = some (((s.setTile tile { s.tile tile with
      scq := (s.tile tile).scq ++ es.map (fun b => (⟨dom, slot, acc, b⟩ : ScaleEntry)) }).dropMsg (.scale t src q acc dom es)).toRouter
        (.scaleAck src q 0)) := by
  have hall : Nat.min es.length ((s.tile tile).scaleRoom dom) = es.length := Nat.min_eq_left hroom
  simp only [State.scaleMessage, hm, hr, hd, hh, hall, Option.bind_some, List.take_length, Bool.false_eq_true, if_false, if_true]
end

/-- The answers of a SCALEMC's targets under a guard, and what of it is still on its way. -/
def ackOf (tid g : Nat) (m : RouterMsg) : Bool := match m with | .scaleAck src k _ => src == tid && k == g | _ => false
def awayOf (tid g : Nat) (m : RouterMsg) : Bool := match m with | .scale _ src k _ _ _ => src == tid && k == g | _ => false
def ackCode (m : RouterMsg) : Nat := match m with | .scaleAck _ _ c => c | _ => 0
def State.refusals (s : State) (tid g : Nat) : List Nat := ((s.eng.router.filter (ackOf tid g)).map ackCode).filter (· != 0)
/-- The answers are taken, the guard resolves, and MU.RST takes the code of the last refusal (11:R164). -/
def State.resolveScales (s : State) (tid g : Nat) (bad : List Nat) : State :=
  State.onThread { s with eng := { s.eng with router := s.eng.router.filter (fun m => !ackOf tid g m) } } tid (fun t =>
    let t := t.resolve g (guardOf bad.isEmpty)
    match bad.getLast? with
    | some c => { t with mu := { t.mu with rst := 2 * 16 + c } }
    | none => t)

section
variable {s : State} {tid q : Nat} (hq : q < 16) (hno : ∀ g, g < q → s.eng.router.any (ackOf tid g) = false)
  (hack : s.eng.router.any (ackOf tid q) = true) (haway : s.eng.router.any (awayOf tid q) = false)
include hq hno hack haway
theorem firstAcked : (List.range 16).find? (fun g => s.eng.router.any (ackOf tid g) && !s.eng.router.any (awayOf tid g)) = some q :=
  List.find?_range_eq_some.mpr ⟨by rw [hack, haway]; rfl, List.mem_range.mpr hq, fun g hg => by rw [hno g hg]; rfl⟩
/-- With every target's answer there a SCALEMC is over (11:R164). -/
theorem State.scaleAcks_done : s.scaleAcks tid = some (s.resolveScales tid q (s.refusals tid q)) := by
  unfold State.scaleAcks
  dsimp only
  split
  · next heq => exact absurd (heq.symm.trans (firstAcked hq hno hack haway)) (by simp)
  · next heq =>
    cases heq.symm.trans (firstAcked hq hno hack haway)
    rfl
end
theorem State.resolveScales_refused {s : State} {tid q c : Nat} {bad : List Nat} (hc : bad.getLast? = some c) : s.resolveScales tid q bad =
    State.onThread { s with eng := { s.eng with router := s.eng.router.filter (fun m => !ackOf tid q m) } } tid (fun t =>
      { t.resolve q .fls with mu := { (t.resolve q .fls).mu with rst := 2 * 16 + c } }) := by
  have hsome : bad.isEmpty = false := by cases bad <;> simp_all
  simp only [State.resolveScales, hc, hsome, guardOf, Bool.false_eq_true, if_false]

section
variable {s : State} {tile t src q dom : Nat} {off ctl cap : Word}
  (hm : firstFor tile isAcvt s.eng.router [] = some (.acvt t src q off ctl cap dom))
include hm
theorem State.acvtRemote_badControl (hk : acvtCtl ctl = none) :
    s.acvtRemote tile = some ((s.dropMsg (.acvt t src q off ctl cap dom)).toRouter (.status src q 3 7)) := by
  simp only [State.acvtRemote, hm, hk]
theorem State.acvtRemote_refused {k : AcvtCtl} {x : Nat} (hk : acvtCtl ctl = some k) (hc : s.capCheck tile cap dom [41] k.acc = .error x) :
    s.acvtRemote tile = some ((s.dropMsg (.acvt t src q off ctl cap dom)).toRouter (.status src q 3 x)) := by
  simp only [State.acvtRemote, hm, hk, hc]
theorem State.acvtRemote_answers {k : AcvtCtl} {dp : Nat} {h : Thread} (hk : acvtCtl ctl = some k)
    (hc : s.capCheck tile cap dom [41] k.acc = .ok (dp, h)) (hrecv : (s.tile tile).mrecv = []) (hrun : (s.tile tile).mrun = [])
    (hd : h.rowsDone k = true) :
    let r := h.acvtRows ((h.ao k.acc).getD 0) k
    s.acvtRemote tile = some (((s.useCap tile dp).dropMsg (.acvt t src q off ctl cap dom)).toRouter (.rows src q off r.1 r.2)) := by
  simp [State.acvtRemote, hm, hk, hc, hrecv, hrun, hd]
end

section
variable {s : State} {tid q : Nat} {off : Word} {bs : List Byte} {fx : BitVec 6} {t : Thread}
  (hm : s.eng.router.find? (fun m => match m with | .rows src _ _ _ _ => src == tid | _ => false) = some (.rows tid q off bs fx))
  (ht : s.thread? tid = some t)
include hm ht
theorem State.acvtReply_lands (hl : s.localCheck (if q < 8 then { t with dom := t.home } else t) off.toNat bs.length off.toNat = .ok) :
    s.acvtReply tid = some (((s.localStore (if q < 8 then { t with dom := t.home } else t) off.toNat bs).dropMsg (.rows tid q off bs fx)).onThread tid
      (fun t => (t.resolve q .tru).orFlags q fx)) := by
  unfold State.acvtReply
  split
  · next heq hth =>
    cases heq.symm.trans hm
    cases hth.symm.trans ht
    simp only [hl]
  · next hth => exact absurd (hth.symm.trans ht) (by simp)
  · next hno _ => exact absurd hm (fun h => hno _ _ _ _ _ _ h ht)
theorem State.acvtReply_fails {x : Trap}
    (hl : s.localCheck (if q < 8 then { t with dom := t.home } else t) off.toNat bs.length off.toNat = .trap x) :
    s.acvtReply tid = some (((s.dropMsg (.rows tid q off bs fx)).onThread tid (fun t => t.resolve q .fls)).refuseD tid x) := by
  unfold State.acvtReply
  split
  · next heq hth =>
    cases heq.symm.trans hm
    cases hth.symm.trans ht
    simp only [hl]
  · next hth => exact absurd (hth.symm.trans ht) (by simp)
  · next hno _ => exact absurd hm (fun h => hno _ _ _ _ _ _ h ht)
end

-- Engines (13:R186-R195) ----------------------------------------------------------------------------------------------

theorem State.acceptSub_nearest {s : State} {e : Nat} {j : JobEntry} (hroom : s.engineUsed e < queueSize e)
    (hj : nearest (s.engine e).last (s.engine e).subs = some j) :
    s.acceptSub e = some ((s.setEngine e { s.engine e with subs := (s.engine e).subs.erase j, last := j.tile }).accept e j).2 := by
  simp only [State.acceptSub, Nat.not_le.mpr hroom, hj, if_false]

/-- The engine has taken an entry of a tile (01:R13). -/
def State.takenFrom (s : State) (e : Nat) (j : JobEntry) : State :=
  s.setEngine e { s.engine e with last := if e < 192 then (s.engine e).last else j.tile }
section
variable {s : State} {e : Nat} {j : JobEntry}
theorem State.jobStart_next (h : s.nextStart e = some j) : s.jobStart e = some (s.startJob e j) := by simp only [State.jobStart, h, Option.map_some]
theorem State.startJob_false (hg : (s.takenFrom e j).jobGuard j = .fls) :
    s.startJob e j = (s.takenFrom e j).setJob e { j with stage := 1, st := 5, acts := [] } :=
  if_pos (beq_iff_eq.mpr hg)
section
variable (hg : (s.takenFrom e j).jobGuard j ≠ .fls) (hw : j.win = none)
include hg hw
theorem State.startJob_fault {x : Trap} (hr : (s.takenFrom e j).engRead j.acc j.card 256 = .error x) :
    s.startJob e j = (s.takenFrom e j).setJob e { j with
      stage := 1, st := if x.jobCode = 0 then 3 else 4, code := x.jobCode, faddr := x.tval, fx := 0 } := by
  cases j
  cases hw
  refine (if_neg (fun h => hg (beq_iff_eq.mp h))).trans ?_
  rw [State.takenFrom] at hr ⊢
  simp only [hr]
  exact congrArg _ rfl
section
variable {c : List Byte} {u : State} (hr : (s.takenFrom e j).engRead j.acc j.card 256 = .ok (c, u)) (hcls : j.cls = 0)
include hr hcls
theorem State.startJob_badCard (hb : cardBreaches 1 c ≠ []) :
    s.startJob e j = u.setJob e { j with
      reads := cardReads c, writes := cardWrites c, acts := cardActs c, stage := 1, st := 4, code := 7, faddr := 0, fx := 0 } := by
  have hbad : (!(cardBreaches (0 + 1) c).isEmpty) = true := by simpa using hb
  cases j
  cases hw
  cases hcls
  refine (if_neg (fun h => hg (beq_iff_eq.mp h))).trans ?_
  rw [State.takenFrom] at hr
  simp only [hr, hbad, if_true]
  exact congrArg _ rfl
theorem State.startJob_copies (hb : cardBreaches 1 c = []) :
    let k : JobEntry := { j with reads := cardReads c, writes := cardWrites c, acts := cardActs c }
    let r := u.copyPayload k c
    let l : JobEntry := { k with stage := 1, todo := r.2.2.1, esz := r.2.2.2, st := if r.2.1.code = 0 then 3 else 4
                                 code := r.2.1.code, faddr := r.2.1.faddr, fx := r.2.1.fx }
    s.startJob e j = (r.1.setJob e l).pump e l := by
  have hgood : (!(cardBreaches (0 + 1) c).isEmpty) = false := by simp [hb]
  cases j
  cases hw
  cases hcls
  refine (if_neg (fun h => hg (beq_iff_eq.mp h))).trans ?_
  rw [State.takenFrom] at hr
  simp only [hr, hgood, Bool.false_eq_true, if_false, if_true]
end
end
end

/-- The first started entry that can go on does (log 63). -/
theorem State.completeJob_first {s u : State} {e : Nat} {j : JobEntry} {rest : List JobEntry}
    (hf : (s.engine e).jobs.filter (fun j => j.stage == 1 || j.stage == 3) = j :: rest) (hu : s.endJob e j = some u) : s.completeJob e = some u := by
  simp only [State.completeJob, hf, List.findSome?_cons, hu]
section
variable {s : State} {e : Nat} {j : JobEntry} (hpo : s.jobPosted (jobTid e j.jid) = false)
include hpo
theorem State.endJob_over (h3 : j.stage = 3) : s.endJob e j = some (s.jobOver e j) := by
  simp only [State.endJob, hpo, h3, Bool.false_eq_true, if_false, if_true]
/-- An entry whose payload and actions are over writes its status (13:R186 step 6). -/
theorem State.endJob_status (h1 : j.stage = 1) (ht : j.todo = []) (ha : j.acts = []) {u : State} (hu : s.jobStatus e j = some u) :
    s.endJob e j = some u := by
  cases j
  cases ha
  cases ht
  cases h1
  have h3 : ¬ 1 = 3 := by decide
  simp only [State.endJob, hpo, h3, State.runActs, List.isEmpty_nil, Bool.not_true, Bool.false_eq_true, if_false, hu, ite_self]
end
theorem State.jobStatus_written {s u : State} {e : Nat} {j : JobEntry} (hc : j.card.toNat % 256 = 0) (he : j.early = false)
    (hw : s.writeStatus j.acc (jobTid e j.jid) j.card j.st j.code j.fx.toNat j.jid j.faddr = (u, none, [])) :
    s.jobStatus e j = some (if u.jobPosted (jobTid e j.jid) then u.setJob e { j with stage := 3 } else u.jobOver e j) := by
  have hgo : (decide (j.card.toNat % 256 ≠ 0) || (j.early && j.st == 4)) = false := by simp [hc, he]
  simp only [State.jobStatus, hgo, hw, Bool.false_eq_true, if_false]

section
variable {s : State} {tile w : Nat} {j : JobEntry} {x : Win}
  (hj : (s.engine (copyEngine tile)).jobs.find? (fun j => j.win == some w && j.tile == tile && j.stage == 2) = some j)
  (hx : ((s.dropJob (copyEngine tile) j.jid).tile tile).win? w = some x)
include hj hx
theorem State.fillEnd_dropped (hd : x.drop = true) : s.fillEnd tile w = some ((s.dropJob (copyEngine tile) j.jid).dropWindow tile w) := by
  simp only [State.fillEnd, hj, hx, hd, if_true]
theorem State.fillEnd_kept (hd : x.drop = false) :
    let u := s.dropJob (copyEngine tile) j.jid
    let y : Win := if j.early && j.st == 4 then { x with state := 0 } else { x with state := if j.st = 3 then 2 else 3, code := j.code, faddr := j.faddr }
    s.fillEnd tile w = some (u.setTile tile ((u.tile tile).setWin w y)) := by
  simp only [State.fillEnd, hj, hx, hd, Bool.false_eq_true, if_false]
  split <;> rfl
end

-- Task units (13:R197, 23:R287) ---------------------------------------------------------------------------------------

/-- The first ready node of the highest priority goes to its slot, where no queued record of that priority goes first. -/
theorem State.taskDispatch_first {s w : State} {die d tid : Nat} {n : TaskNode} {rest : List TaskNode}
    (hd : ((s.eng.tasks.filter (fun n => n.die == die)).map (·.dom)).dedup = [d]) (hs : s.slicedOut d = false) (hr : s.atRest d = false)
    (hn : s.nodeOf d ≠ none) (hp : s.pantryList die d 3 = n :: rest) (ht : s.taskSlot n = some tid) (hq : s.runList die d 3 = [])
    (hw : s.placeTask n tid = some w) : s.taskDispatch die = some (w.sliceStart d) := by
  have hgo : (s.slicedOut d || s.atRest d || (s.nodeOf d).isNone) = false := by simp [hs, hr, Option.isSome_iff_ne_none, hn]
  have hpri : [3, 2, 1, 0].filter (fun q => decide (3 ≤ q)) = [3] := rfl
  have hnone : ([3, 2, 1, 0].filter (fun q => decide (3 ≤ q))).any (fun q => (s.runList die d q).any (fun e => (s.claimEntry e tid).isSome)) = false := by
    rw [hpri]
    simp [hq]
  simp only [State.taskDispatch, hd, List.findSome?_cons, List.findSome?_nil, hgo, hp, ht, hnone, hw, Option.map_some, Bool.false_eq_true, if_false]

/-- A node has left the pantry. -/
def State.nodeStarted (z : State) (n : TaskNode) : State := { z with eng := { z.eng with
  tasks := z.eng.tasks.map (fun (x : TaskNode) => if x == n then { x with started := true } else x)
  pantry := z.eng.pantry.erase (n.die, n.id) } }
section
variable {s : State} {n : TaskNode} {tid : Nat}
theorem State.placeTask_unwritten {x : Trap} (hx : s.writeThread (n.kern.thread n.dom n.recA n.save n.arg 0 2 n.die n.id n.pri) = .error x) :
    s.placeTask n tid = some ((s.nodeStarted n).postFatal n.dom n.recA x.cause.code) := by
  simp only [State.placeTask, hx, State.nodeStarted]
theorem State.placeTask_placed {u v w : State} (hu : s.writeThread (n.kern.thread n.dom n.recA n.save n.arg 0 2 n.die n.id n.pri) = .ok u)
    (hv : u.bindTable n.dom n.kern [tid / 16] = some v) (hw : v.loadRecord n.dom n.recA tid = .ok w) :
    s.placeTask n tid = some (w.nodeStarted n) := by
  simp only [State.placeTask, hu, hv, hw, Option.getD_some, State.nodeStarted]
end

/-- Settles O52: each of the units' steps is its operation, and each operation is what its first member, message, command or job makes it do. -/
theorem unitSteps : Obligations.UnitSteps := by
  unfold Obligations.UnitSteps
  refine ⟨fun s bar votes c hc hp hf hv => ⟨?preempts, ?seals, ?tells, ?votes⟩, fun vs => ⟨rfl, rfl, rfl⟩,
    fun s u bar c hc hs hr hp hfree hre hpo => ⟨?asks, ?loads⟩, fun s bar c hc hm hall hf => ⟨?dissolves, ?gone⟩,
    fun s bar tile off data c hc hd ht ho => ⟨?silent, ?flagged, ?package⟩, fun s bar k i c x rest hc hf hx hk => ?lands,
    fun s bar c hc hf => ⟨?connection, ?late, ?untimed⟩, fun s tile th e rest hth hq => ⟨?skips, ?starts⟩,
    fun s tile r rest e hr hs hl he => ?scale, fun s tile r rest hr hs hres hgone => ⟨?rows, ?ends⟩,
    fun s tile t src q acc dom a b k cap hm => ⟨?refused, fun dp h oa ob wa wb hc ho hw => ⟨?cancels, ?accepts⟩⟩,
    fun s tid q unit code h => ?status, fun s tile t src q acc dom es hm => ⟨?retired, ?noDomain, ?room⟩,
    fun s tid q hq hno hack haway => ?acks, fun s tile t src q dom off ctl cap hm => ⟨?badControl, fun k hk => ⟨?foreign, ?answers⟩⟩,
    fun s tid q off bs fx t hm ht => ⟨?replyLands, ?replyFails⟩, fun s e j hroom hj => ?accept, fun s u e j c x hj => ⟨?guarded, ?reads⟩,
    fun s u e j rest hf hpo => ⟨?finished, ?statusWritten⟩, fun s tile w j x hj hx => ⟨?dropped, ?kept⟩,
    fun s u v w die d tid n rest hd hs hr hn hp ht hq => ⟨?unwritten, ?placed⟩⟩
  case preempts => exact fun h1 hg => .of_some (State.boundary_preempts hc hp hf hv h1 hg)
  case seals => exact fun h2 hg => .of_some (State.boundary_seals hc hp hf hv h2 hg)
  case tells => exact fun z d h0 ht hn => .of_some (State.boundary_tells hc hp hf hv h0 ht hn)
  case votes =>
    intro h0 ht harr hn hfly hsent hperf vs kinds
    have harrived : c.members.all s.arrivedAt = true := List.all_eq_true.mpr fun m hm => State.arrivedAt_iff.mpr (harr m hm)
    have hdone := State.phaseDone_of_performed hfly hsent hperf
    refine ⟨fun ⟨k, hk, hne⟩ => ?_, fun hsame => ?_⟩
    · exact .of_some (State.boundary_mixed hc hp hf hv h0 ht harrived hn hdone rfl (List.any_eq_true.mpr ⟨k, hk, bne_iff_ne.mpr hne⟩))
    · exact .of_some (State.boundary_passes hc hp hf hv h0 ht harrived hn hdone rfl
        (List.any_eq_false.mpr fun k hk h => bne_iff_ne.mp h (hsame k hk)) rfl)
  case asks => exact fun h => .of_some (State.compactResume_of_saved hc hs hr (State.resumeSaved_asks hc hp hfree hre hpo rfl h))
  case loads => exact fun h hu => .of_some (State.compactResume_of_saved hc hs hr (State.resumeSaved_loads hc hp hfree hre hpo rfl h hu))
  case dissolves => exact .of_some (State.dissolveAll_told hc hm hall hf)
  case gone => exact State.compact?_dissolved s bar c
  case silent => exact .of_some (State.exchangeWrite_silent hc hd ht ho)
  case flagged => exact fun o => .of_some (State.exchangeWrite_flagged hc hd ht ho o)
  case package => exact fun p tag hp => .of_some (State.exchangeWrite_package hc hd ht ho hp tag)
  case lands => exact .of_some (State.exchangeWrite_lands hc hf hx hk)
  case connection => exact .of_some ((State.exchangeLost_connection hc).trans (congrArg some (State.failCompact_first hf)))
  case late => exact fun hx hway hv => .of_some ((State.exchangeLost_late hc hx hway hv).trans (congrArg some (State.failCompact_first hf)))
  case untimed => exact fun hx => .of_none (State.exchangeLost_untimed hc hx)
  case skips => exact fun hg => .of_some (State.matrixAccept_first hth (State.acceptHead_false hq hg))
  case starts =>
    intro hg hs hr
    have hstart := State.startCmd_of_turn s tile th.slot e
    exact .of_some ((State.matrixAccept_first hth (State.acceptHead_starts hq hg hs hr)).trans (congrArg (fun z => some (State.popCmd z th.tid rest)) hstart))
  case scale => exact .of_some (State.takeScale_next hr hs hl he)
  case rows => exact fun h => .of_some (State.matrixComplete_rows hr hs hres hgone h)
  case ends => exact fun h => .of_some (State.matrixComplete_ends hr hs hres hgone h)
  case refused => exact fun x hx => .of_some (State.mmarReceive_refused hm hx)
  case cancels => exact fun hk => .of_some (State.mmarReceive_cancels hm hc ho hw hk)
  case accepts => exact fun hk hroom => .of_some (State.mmarReceive_accepts hm hc ho hw hk hroom)
  case status => exact .of_some (State.mmarStatus_found h)
  case retired => exact fun hr => .of_some (State.scaleMessage_retired hm hr)
  case noDomain => exact fun hr hd => .of_some (State.scaleMessage_noDomain hm hr hd)
  case room => exact fun dp d slot hr hd hh hroom => .of_some (State.scaleMessage_room hm hr hd hh hroom)
  case acks =>
    have hdone := State.scaleAcks_done hq hno hack haway
    exact ⟨fun hb => .of_some (hdone.trans (congrArg (fun b => some (s.resolveScales tid q b)) hb)),
      fun c hb => .of_some (hdone.trans (congrArg some (State.resolveScales_refused hb)))⟩
  case badControl => exact fun hk => .of_some (State.acvtRemote_badControl hm hk)
  case foreign => exact fun x hx => .of_some (State.acvtRemote_refused hm hk hx)
  case answers => exact fun dp h hcap hrecv hrun hd => .of_some (State.acvtRemote_answers hm hk hcap hrecv hrun hd)
  case replyLands => exact fun h => .of_some (State.acvtReply_lands hm ht h)
  case replyFails => exact fun x h => .of_some (State.acvtReply_fails hm ht h)
  case accept => exact .of_some (State.acceptSub_nearest hroom hj)
  case guarded => exact fun hg => .of_some ((State.jobStart_next hj).trans (congrArg some (State.startJob_false hg)))
  case reads =>
    exact fun hg hw => ⟨fun hr => .of_some ((State.jobStart_next hj).trans (congrArg some (State.startJob_fault hg hw hr))),
      fun hr hcls => ⟨fun hb => .of_some ((State.jobStart_next hj).trans (congrArg some (State.startJob_badCard hg hw hr hcls hb))),
        fun hb => .of_some ((State.jobStart_next hj).trans (congrArg some (State.startJob_copies hg hw hr hcls hb)))⟩⟩
  case finished => exact fun h3 => .of_some (State.completeJob_first hf (State.endJob_over hpo h3))
  case statusWritten =>
    intro h1 ht ha hc he hw
    have hend := State.completeJob_first hf (State.endJob_status hpo h1 ht ha (State.jobStatus_written hc he hw))
    exact ⟨fun h => .of_some (hend.trans (congrArg some (if_pos h))), fun h => .of_some (hend.trans (congrArg some (if_neg (Bool.eq_false_iff.mp h))))⟩
  case dropped => exact fun hd => .of_some (State.fillEnd_dropped hj hx hd)
  case kept => exact fun hd => .of_some (State.fillEnd_kept hj hx hd)
  case unwritten => exact fun x hx => .of_some (State.taskDispatch_first hd hs hr hn hp ht hq (State.placeTask_unwritten hx))
  case placed => exact fun hu hv hw => .of_some (State.taskDispatch_first hd hs hr hn hp ht hq (State.placeTask_placed hu hv hw))

end Sys2Proof.Machine
end

section
/-! PROOFS. Steps of the stewards (21:R267-R277, 23:R278-R292, 25:R293-R310). -/
namespace Sys2Proof.Machine
open Sys2Proof

-- Passes of the queues (23:R280) ---------------------------------------------------------------------------------------

theorem State.queuePass_badEntry {s : State} {f q : Nat} (hp : ((s.vcp f).queue q).pass.isSome = true) (he : s.nextEntry f q = none) :
    s.queuePass f q = some (s.queueError f q ((s.vcp f).queue q) 5) := by
  obtain ⟨p, hp⟩ := Option.isSome_iff_exists.mp hp
  simp only [State.queuePass, hp, he, Option.isNone_none, if_true]

/-- A queue whose pass begins: its notify is taken and its control word read (23:R280). -/
def Queue.noticed (x : Queue) : Queue := { x with pending := false, seen := x.ctl }
/-- A queue that was DISABLED starts at index 0 (23:R280). -/
def Queue.opened (x : Queue) : Queue := if x.state = 0 then { x.noticed with state := 1, qrd := 0 } else x.noticed
/-- An enabled queue in no error state is checked: its size, its priority, the pages of its ring, and its indexes (23:R280). -/
def State.checkQueue (s : State) (f q : Nat) (x y : Queue) : State :=
  let lg := Queue.log x.ctl
  let n := (y.qwr + 2 ^ 32 - y.qrd) % 2 ^ 32
  if lg < 4 ∨ 16 < lg then s.queueError f q y 1
  else if (s.cfg f).qmax < Queue.prio x.ctl then s.queueError f q y 2
  else if !s.ringOk f (BitVec.ofNat 64 (x.base.toNat / 65536 * 65536)) 1 .read then s.queueError f q y 3
  else match s.ringTouch f x.base (64 * 2 ^ lg) .read with
    | none => s.queueError f q y 4
    | some u =>
      if 2 ^ lg < n then u.queueStop f q y 4 y.code
      else u.setQueue f q { y with pass := if n = 0 then none else some (x.base, x.ctl, x.qwr) }

theorem Queue.opened_state (x : Queue) : x.opened.state = if x.state = 0 then 1 else x.state := by unfold Queue.opened; split <;> rfl

section
variable {s : State} {f q : Nat} {x : Queue} (hx : (s.vcp f).queue q = x) (hp : x.pass = none) (hf : (s.vcp f).firstPending = some q)
  (hr : s.atRest f = false)
include hx hp hf hr
theorem State.queuePass_disabled (he : Queue.enabled x.ctl = false) : s.queuePass f q = some (s.setQueue f q { x.noticed with state := 0, qrd := 0 }) := by
  have hgo : ((s.vcp f).firstPending != some q || s.atRest f) = false := by simp [hf, hr]
  cases x
  cases hp
  simp only [State.queuePass, hx, hgo, he, Bool.not_false, Bool.false_eq_true, if_false, if_true, Queue.noticed]
theorem State.queuePass_enabled (he : Queue.enabled x.ctl = true) : s.queuePass f q = some
    (if x.opened.state = 3 ∨ x.opened.state = 4 then s.setQueue f q x.opened else s.checkQueue f q x x.opened) := by
  have hgo : ((s.vcp f).firstPending != some q || s.atRest f) = false := by simp [hf, hr]
  cases x with | mk base ctl qwr qrd state code pending pass fence cmds seen =>
  cases hp
  simp only [State.queuePass, hx, hgo, he, Bool.not_true, Bool.false_eq_true, if_false, Queue.opened]
  by_cases h0 : state = 0
  · simp only [eq_true h0, if_true]
    exact congrArg _ rfl
  · simp only [h0, if_false]
    exact congrArg _ rfl
theorem State.queuePass_error (he : Queue.enabled x.ctl = true) (h : x.state = 3 ∨ x.state = 4) :
    s.queuePass f q = some (s.setQueue f q x.noticed) := by
  have h0 : x.state ≠ 0 := by omega
  rw [State.queuePass_enabled hx hp hf hr he, Queue.opened_state, if_neg h0, if_pos h, Queue.opened, if_neg h0]
theorem State.queuePass_checks (he : Queue.enabled x.ctl = true) (h3 : x.state ≠ 3) (h4 : x.state ≠ 4) :
    s.queuePass f q = some (s.checkQueue f q x x.opened) := by
  have hno : ¬ (x.opened.state = 3 ∨ x.opened.state = 4) := by
    rw [Queue.opened_state]
    split <;> omega
  rw [State.queuePass_enabled hx hp hf hr he, if_neg hno]
end

section
variable {s : State} {f q : Nat} {x y : Queue}
theorem State.checkQueue_size (h : Queue.log x.ctl < 4 ∨ 16 < Queue.log x.ctl) : s.checkQueue f q x y = s.queueError f q y 1 := if_pos h
section
variable (h4 : 4 ≤ Queue.log x.ctl) (h16 : Queue.log x.ctl ≤ 16)
include h4 h16
theorem State.checkQueue_prio (h : (s.cfg f).qmax < Queue.prio x.ctl) : s.checkQueue f q x y = s.queueError f q y 2 :=
  (if_neg (by omega)).trans (if_pos h)
section
variable (hq : Queue.prio x.ctl ≤ (s.cfg f).qmax)
include hq
theorem State.checkQueue_base (h : s.ringOk f (BitVec.ofNat 64 (x.base.toNat / 65536 * 65536)) 1 .read = false) :
    s.checkQueue f q x y = s.queueError f q y 3 :=
  (if_neg (by omega)).trans ((if_neg (Nat.not_lt.mpr hq)).trans (if_pos (by rw [h]; rfl)))
section
variable (hb : s.ringOk f (BitVec.ofNat 64 (x.base.toNat / 65536 * 65536)) 1 .read = true)
include hb
theorem State.checkQueue_ring (h : s.ringTouch f x.base (64 * 2 ^ Queue.log x.ctl) .read = none) : s.checkQueue f q x y = s.queueError f q y 4 := by
  refine (if_neg (by omega)).trans ((if_neg (Nat.not_lt.mpr hq)).trans ((if_neg (by simp [hb])).trans ?_))
  rw [h]
theorem State.checkQueue_indexes {u : State} (h : s.ringTouch f x.base (64 * 2 ^ Queue.log x.ctl) .read = some u) :
    let n := (y.qwr + 2 ^ 32 - y.qrd) % 2 ^ 32
    s.checkQueue f q x y = if 2 ^ Queue.log x.ctl < n then u.queueStop f q y 4 y.code
      else u.setQueue f q { y with pass := if n = 0 then none else some (x.base, x.ctl, x.qwr) } := by
  refine (if_neg (by omega)).trans ((if_neg (Nat.not_lt.mpr hq)).trans ((if_neg (by simp [hb])).trans ?_))
  rw [h]
end
end
end
end

-- NOP, SIGNAL, WAIT, QFENCE (23:R282, 21:R276) ---------------------------------------------------------------------------

theorem State.command_entry {s : State} {f q op : Nat} {e : List Nat} (h : Entry s f q op e) :
    s.command f q op = some (e, (s.vcp f).queue q, s.entryRead f q) := by
  obtain ⟨hr, ho, he, hop⟩ := h
  simp only [State.command, he, hop, hr, ho, Bool.not_false, Bool.and_self, decide_true, if_true]

section
variable {s : State} {f q : Nat} {e : List Nat}
theorem State.cmdNop_entry (h : Entry s f q 0 e) : s.cmdNop f q = some ((s.entryRead f q).setQueue f q ((s.vcp f).queue q).advance.settled) := by
  simp only [State.cmdNop, State.command_entry h, Option.map_some]

section
variable (h : Entry s f q 4 e) (hc : ((s.vcp f).queue q).cmds = [])
include h hc
theorem State.cmdSignal_fails {t : Trap} (hs : (s.entryRead f q).signal f (BitVec.ofNat 64 (e.getD 1 0)) (leBytes 8 (e.getD 2 0)) = .error t) :
    s.cmdSignal f q = some ((s.entryRead f q).queueError f q ((s.vcp f).queue q) 5) := by
  simp only [State.cmdSignal, hc, State.command_entry h, Option.map_some, hs, List.isEmpty_nil, Bool.not_true, Bool.false_eq_true, if_false]
theorem State.cmdSignal_stores {u : State} (hs : (s.entryRead f q).signal f (BitVec.ofNat 64 (e.getD 1 0)) (leBytes 8 (e.getD 2 0)) = .ok u) :
    s.cmdSignal f q = some (u.setQueue f q ((u.vcp f).queue q).advance.settled) := by
  simp only [State.cmdSignal, hc, State.command_entry h, Option.map_some, hs, List.isEmpty_nil, Bool.not_true, Bool.false_eq_true, if_false]
end

section
variable (h : Entry s f q 5 e)
include h
theorem State.cmdWait_fails {t : Trap} (hs : (s.entryRead f q).sysWord f (BitVec.ofNat 64 (e.getD 1 0)) = .error t) :
    s.cmdWait f q = some ((s.entryRead f q).queueError f q ((s.vcp f).queue q) 5) := by
  simp only [State.cmdWait, State.command_entry h, hs]
section
variable {v : Nat} (hs : (s.entryRead f q).sysWord f (BitVec.ofNat 64 (e.getD 1 0)) = .ok v)
include hs
theorem State.cmdWait_reached (hv : e.getD 2 0 ≤ v) : s.cmdWait f q =
    some (((s.entryRead f q).sysTouch f (BitVec.ofNat 64 (e.getD 1 0)) 8).setQueue f q ((s.vcp f).queue q).advance.settled) := by
  simp only [State.cmdWait, State.command_entry h, hs, hv, if_true]
theorem State.cmdWait_waits {ps : List Piece} {u : State} (hv : v < e.getD 2 0)
    (hp : (s.entryRead f q).sysPieces f .read (BitVec.ofNat 64 (e.getD 1 0)) 8 = .ok (ps, u)) :
    s.cmdWait f q = if u.ms.mem = (s.entryRead f q).ms.mem then none else some u := by
  simp only [State.cmdWait, State.command_entry h, hs, hp, Nat.not_le.mpr hv, if_false]
end
end
end

section
variable {s : State} {f q : Nat}
theorem State.fenceDone_sealed {c : Command} {rest : List Command} (hc : ((s.vcp f).queue q).cmds = c :: rest) (h3 : c.op = 3)
    (hs : sealedPast (s.rinOf f) c.upto = true) :
    s.fenceDone f q = some (s.setQueue f q (Queue.settled { (s.vcp f).queue q with cmds := rest, fence := c.idx })) := by
  simp only [State.fenceDone, hc, h3, hs, decide_true, Bool.and_self, if_true]
theorem State.cmdFence_sealed {u : State} (h : s.fenceDone f q = some u) : s.cmdFence f q = some u := by simp only [State.cmdFence, h]
theorem State.fenceDone_none (hc : ((s.vcp f).queue q).cmds = []) : s.fenceDone f q = none := by simp only [State.fenceDone, hc]
section
variable {e : List Nat} (h : Entry s f q 3 e) (hc : ((s.vcp f).queue q).cmds = [])
include h hc
theorem State.cmdFence_fails {t : Trap} (hs : (s.entryRead f q).signal f (BitVec.ofNat 64 (e.getD 1 0))
      (leBytes 8 ((s.vcp f).queue q).qrd ++ leBytes 8 ((s.entryRead f q).rinOf f)) = .error t) :
    s.cmdFence f q = some ((s.entryRead f q).queueError f q ((s.vcp f).queue q) 5) := by
  simp only [State.cmdFence, State.fenceDone_none hc, hc, State.command_entry h, Option.map_some, hs, List.isEmpty_nil, Bool.not_true,
    Bool.false_eq_true, if_false]
theorem State.cmdFence_starts {u : State} (hs : (s.entryRead f q).signal f (BitVec.ofNat 64 (e.getD 1 0))
      (leBytes 8 ((s.vcp f).queue q).qrd ++ leBytes 8 ((s.entryRead f q).rinOf f)) = .ok u) :
    let y := (u.vcp f).queue q
    s.cmdFence f q = some (if u.rinOf f = 0 then u.setQueue f q (Queue.settled { y.advance with fence := y.qrd })
      else u.setQueue f q { y.advance with cmds := [⟨3, y.qrd, [], [], 0, none, u.rinOf f⟩] }) := by
  simp only [State.cmdFence, State.fenceDone_none hc, hc, State.command_entry h, Option.map_some, hs, List.isEmpty_nil, Bool.not_true,
    Bool.false_eq_true, if_false]
end
end

-- Launches (23:R283-R285) ----------------------------------------------------------------------------------------------

/-- A launch's records, save areas and status word can be read and written (23:R283, R285). -/
def State.areasUsable (s : State) (f : Nat) (ts : List Thread) (stat : Word) : Prop :=
  (∀ t ∈ ts, (s.usable f .read t.info.addr 64 = true ∧ s.usable f .write t.info.addr 64 = true) ∧
    s.usable f .read t.info.save ((t.gran + 1) * 1024) = true ∧ s.usable f .write t.info.save ((t.gran + 1) * 1024) = true) ∧
  (stat = 0 ∨ s.usable f .write stat 8 = true)
section
variable {s : State} {f : Nat} {ts : List Thread} {stat : Word}
theorem State.areasUsable_iff : s.areasUsable f ts stat ↔
    (!ts.all (fun t => (s.usable f .read t.info.addr 64 && s.usable f .write t.info.addr 64) &&
        (s.usable f .read t.info.save ((t.gran + 1) * 1024) && s.usable f .write t.info.save ((t.gran + 1) * 1024))) ||
      (stat != 0 && !s.usable f .write stat 8)) = false := by
  rw [Bool.or_eq_false_iff, State.areasUsable]
  refine and_congr (by simp) ?_
  by_cases h0 : stat = 0#64 <;> simp [h0]
theorem State.createThreads_usable (h : s.areasUsable f ts stat) : s.createThreads f ts stat = some (ts.foldl State.putThread s) :=
  if_neg (Bool.eq_false_iff.mp (State.areasUsable_iff.mp h))
theorem State.createThreads_unusable (h : ¬ s.areasUsable f ts stat) : s.createThreads f ts stat = none :=
  if_pos (Bool.eq_true_of_not_eq_false fun hno => h (State.areasUsable_iff.mpr hno))
end

/-- PRIO of a queue as its pass has read it; 0 without one. -/
def Queue.passPrio (x : Queue) : Nat := match x.pass with | some (_, ctl, _) => Queue.prio ctl | none => 0
/-- The state in which LAUNCH and CLAUNCH look at their kernel header, which has been read. -/
def State.headerRead (s : State) (f q : Nat) (e : List Nat) : State := (s.entryRead f q).sysTouch f (BitVec.ofNat 64 (e.getD 1 0)) 64
/-- The threads of a LAUNCH are queued, round-robin over the dies of the partition, and the command has started (23:R283). -/
def State.launched (u : State) (f q prio : Nat) (e : List Nat) (ts : List Thread) : State :=
  let dies := u.launchDies f
  let v := (ts.zip (List.range ts.length)).foldl (fun s (p : Thread × Nat) =>
    s.enqueue ⟨dies.getD (p.2 % dies.length) 0, f, prio, p.1.info.addr⟩) u
  let y := (v.vcp f).queue q
  v.setQueue f q { y.advance with cmds := y.cmds ++ [⟨1, y.qrd, ts.map (·.info.addr), [], BitVec.ofNat 64 (e.getD 6 0), none, 0⟩] }

section
variable {s : State} {f q : Nat} {e : List Nat} (h : Entry s f q 1 e)
include h
theorem State.cmdLaunch_header {c : Nat} (hh : (s.headerRead f q e).launchHeader f (BitVec.ofNat 64 (e.getD 1 0)) true = .error c) :
    s.cmdLaunch f q = some ((s.headerRead f q e).launchFails f q c e) := by
  rw [State.headerRead] at hh ⊢
  simp only [State.cmdLaunch, State.command_entry h, Option.map_some, hh]
section
variable {k : Kern} (hh : (s.headerRead f q e).launchHeader f (BitVec.ofNat 64 (e.getD 1 0)) true = .ok k)
include hh
theorem State.cmdLaunch_unbound (hb : (s.headerRead f q e).bindTable f k ((s.headerRead f q e).launchTiles f) = none) :
    s.cmdLaunch f q = some ((s.headerRead f q e).launchFails f q 4 e) := by
  rw [State.headerRead] at hh hb ⊢
  simp only [State.cmdLaunch, State.command_entry h, Option.map_some, hh, hb]
section
variable {b : State} (hb : (s.headerRead f q e).bindTable f k ((s.headerRead f q e).launchTiles f) = some b) {ts : List Thread}
  (hts : (List.range (e.getD 5 0)).map (launchThread k f ((s.vcp f).queue q).passPrio e) = ts)
include hb hts
theorem State.cmdLaunch_unusable (hr : ¬ b.areasUsable f ts (BitVec.ofNat 64 (e.getD 6 0))) :
    s.cmdLaunch f q = some ((s.headerRead f q e).launchFails f q 5 e) := by
  subst hts
  rw [State.headerRead] at hh hb ⊢
  simp only [State.cmdLaunch, State.command_entry h, Option.map_some, hh, hb]
  refine congrArg some ?_
  split
  · rfl
  · next hu => exact absurd (hu.symm.trans (State.createThreads_unusable hr)) (by simp)
theorem State.cmdLaunch_starts (hr : b.areasUsable f ts (BitVec.ofNat 64 (e.getD 6 0))) :
    s.cmdLaunch f q = some ((ts.foldl State.putThread b).launched f q ((s.vcp f).queue q).passPrio e ts) := by
  subst hts
  rw [State.headerRead] at hh hb
  simp only [State.cmdLaunch, State.command_entry h, Option.map_some, hh, hb]
  refine congrArg some ?_
  split
  · next hn => exact absurd (hn.symm.trans (State.createThreads_usable hr)) (by simp)
  · next hu =>
    cases hu.symm.trans (State.createThreads_usable hr)
    rfl
end
end
end

/-- The next member of a CLAUNCH has been given to a slot. -/
def State.memberPlaced (u : State) (f q : Nat) (c : Command) (rest : List (Word × Nat)) : State :=
  let u := u.sliceStart f
  let x := (u.vcp f).queue q
  u.setQueue f q { x with cmds := x.cmds.map (fun d => if d == c then { d with todo := rest } else d) }
section
variable {s : State} {f q : Nat} {c : Command} {recA : Word} {tile : Nat} {rest : List (Word × Nat)} (ht : c.todo = (recA, tile) :: rest)
include ht
theorem State.placeMember_retired (hr : s.retired tile = true) : s.placeMember f q c = some (s.memberFails f q c recA rest) := by
  simp only [State.placeMember, ht, hr, if_true]
section
variable {k : Nat} (hr : s.retired tile = false) (hs : s.slicedOut f = false) (hk : (s.freeSlots tile f).head? = some k)
include hr hs hk
theorem State.placeMember_loads {u : State} (hl : s.loadRecord f recA (tile * 16 + k) = .ok u ∨ s.loadRecord f recA (tile * 16 + k) = .invalid u) :
    s.placeMember f q c = some (u.memberPlaced f q c rest) := by
  obtain hl | hl := hl <;> simp only [State.placeMember, ht, hr, hs, hk, hl, Bool.false_eq_true, if_false, State.memberPlaced]
theorem State.placeMember_lost (hl : s.loadRecord f recA (tile * 16 + k) = .lost) : s.placeMember f q c = some (s.memberPlaced f q c rest) := by
  simp only [State.placeMember, ht, hr, hs, hk, hl, Bool.false_eq_true, if_false, State.memberPlaced]
theorem State.placeMember_cut {n : Nat} (hl : s.loadRecord f recA (tile * 16 + k) = .cut n) :
    s.placeMember f q c = some ((s.memberPlaced f q c rest).postFatal f recA n) := by
  simp only [State.placeMember, ht, hr, hs, hk, hl, Bool.false_eq_true, if_false, State.memberPlaced]
end
end
/-- The first command of a queue that waits for slots places its next member before another CLAUNCH starts (23:R284). -/
theorem State.cmdClaunch_places {s u : State} {f q : Nat} {c : Command} {more : List Command} (hr : s.atRest f = false)
    (hc : ((s.vcp f).queue q).cmds = c :: more) (hp : s.placeMember f q c = some u) : s.cmdClaunch f q = some u := by
  simp only [State.cmdClaunch, hr, hc, List.findSome?_cons, hp, Bool.false_eq_true, if_false]

/-- The state in which CLAUNCH looks at its compact record's first words, which have been read. -/
def State.compactRead (s : State) (f q : Nat) (e : List Nat) : State := (s.headerRead f q e).sysTouch f (BitVec.ofNat 64 (e.getD 2 0)) 64
/-- A CLAUNCH's scale server has its role (01:R16). -/
def State.withLoft (u : State) (f : Nat) (loft : Option (Nat × Word)) : State := match loft with | some (i, w) => u.takeLoft i w f | none => u
/-- A CLAUNCH has started; its members wait for their slots (23:R284). -/
def State.claunched (u : State) (f q : Nat) (e : List Nat) (loft : Option (Nat × Word)) (recs : List Word) (tiles : List Nat) : State :=
  let v := u.withLoft f loft
  let x := (v.vcp f).queue q
  v.setQueue f q { x.advance with
    cmds := x.cmds ++ [⟨2, x.qrd, recs, recs.zip tiles, BitVec.ofNat 64 (e.getD 6 0), loft.map (·.1), 0⟩] }
/-- A CLAUNCH whose record and members have been read: R285's checks of its members, its scale server, its tables and its areas, in order. -/
def State.startCompact (y : State) (f q prio : Nat) (e : List Nat) (k : Kern) (bs : List Byte) (n : Nat) : State :=
  match y.launchMembers f bs n, y.launchLoft f (e.getD 5 0) (e.getD 7 0) with
  | none, _ => y.launchFails f q 6 e
  | some _, none => y.launchFails f q 7 e
  | some ms, some loft => match y.bindTable f k (ms.map (·.2.1)) with
    | none => y.launchFails f q 4 e
    | some b =>
      let ts := ms.map (fun m => { launchThread k f prio e m.1 with pc := m.2.2 })
      match b.createThreads f ts (BitVec.ofNat 64 (e.getD 6 0)) with
      | none => y.launchFails f q 5 e
      | some u => u.claunched f q e loft (ts.map (·.info.addr)) (ms.map (·.2.1))

section
variable {s : State} {f q : Nat} {e : List Nat} (h : Entry s f q 2 e) (hall : ∀ c ∈ ((s.vcp f).queue q).cmds, c.todo = [])
include h hall
theorem State.noMember_waits : (if s.atRest f then none else ((s.vcp f).queue q).cmds.findSome? (fun c => s.placeMember f q c)) = none := by
  obtain ⟨hr, -⟩ := h
  rw [hr]
  refine List.findSome?_eq_none_iff.mpr fun c hc => ?_
  simp only [State.placeMember, hall c hc]
theorem State.cmdClaunch_header {c : Nat} (hh : (s.compactRead f q e).launchHeader f (BitVec.ofNat 64 (e.getD 1 0)) false = .error c) :
    s.cmdClaunch f q = some ((s.compactRead f q e).launchFails f q c e) := by
  rw [State.compactRead, State.headerRead] at hh ⊢
  simp only [State.cmdClaunch, State.noMember_waits h hall, State.command_entry h, Option.map_some, hh]
section
variable {k : Kern} (hh : (s.compactRead f q e).launchHeader f (BitVec.ofNat 64 (e.getD 1 0)) false = .ok k)
include hh
theorem State.cmdClaunch_unread {t : Trap} (hw : (s.compactRead f q e).sysRead f (BitVec.ofNat 64 (e.getD 2 0)) 64 = .error t) :
    s.cmdClaunch f q = some ((s.compactRead f q e).launchFails f q 5 e) := by
  rw [State.compactRead, State.headerRead] at hh hw ⊢
  simp only [State.cmdClaunch, State.noMember_waits h hall, State.command_entry h, Option.map_some, hh, hw]
section
variable {w : List Byte} (hw : (s.compactRead f q e).sysRead f (BitVec.ofNat 64 (e.getD 2 0)) 64 = .ok w)
include hw
theorem State.cmdClaunch_badRecord (hn : bits (wordAt w 0) 15 0 = 0 ∨ 24576 < bits (wordAt w 0) 15 0 ∨ bits (wordAt w 0) 25 16 ≠ f) :
    s.cmdClaunch f q = some ((s.compactRead f q e).launchFails f q 6 e) := by
  rw [State.compactRead, State.headerRead] at hh hw ⊢
  simp only [State.cmdClaunch, State.noMember_waits h hall, State.command_entry h, Option.map_some, hh, hw]
  exact congrArg some (if_pos hn)
section
variable {n : Nat} (hn : bits (wordAt w 0) 15 0 = n) (h0 : n ≠ 0) (hmax : n ≤ 24576) (hf : bits (wordAt w 0) 25 16 = f)
include hn h0 hmax hf
theorem State.cmdClaunch_unreadMembers {t : Trap}
    (hm : (s.compactRead f q e).sysRead f (BitVec.ofNat 64 (e.getD 2 0)) (64 + 288 * n) = .error t) :
    s.cmdClaunch f q = some ((s.compactRead f q e).launchFails f q 5 e) := by
  have hok : ¬ (n = 0 ∨ 24576 < n ∨ bits (wordAt w 0) 25 16 ≠ f) := by omega
  rw [State.compactRead, State.headerRead] at hh hw hm ⊢
  simp only [State.cmdClaunch, State.noMember_waits h hall, State.command_entry h, Option.map_some, hh, hw, hn, hok, hm, if_false]
theorem State.cmdClaunch_members {bs : List Byte}
    (hm : (s.compactRead f q e).sysRead f (BitVec.ofNat 64 (e.getD 2 0)) (64 + 288 * n) = .ok bs) : s.cmdClaunch f q =
      some (((s.compactRead f q e).sysTouch f (BitVec.ofNat 64 (e.getD 2 0)) (64 + 288 * n)).startCompact f q ((s.vcp f).queue q).passPrio e k bs n) := by
  have hok : ¬ (n = 0 ∨ 24576 < n ∨ bits (wordAt w 0) 25 16 ≠ f) := by omega
  rw [State.compactRead, State.headerRead] at hh hw hm ⊢
  simp only [State.cmdClaunch, State.noMember_waits h hall, State.command_entry h, Option.map_some, hh, hw, hn, hok, hm, if_false]
  exact congrArg _ rfl
end
end
end
end

section
variable {y : State} {f q prio n : Nat} {e : List Nat} {k : Kern} {bs : List Byte}
theorem State.startCompact_badMembers (hms : y.launchMembers f bs n = none) : y.startCompact f q prio e k bs n = y.launchFails f q 6 e := by
  simp only [State.startCompact, hms]
section
variable {ms : List (Nat × Nat × Word)} (hms : y.launchMembers f bs n = some ms)
include hms
theorem State.startCompact_badLoft (hl : y.launchLoft f (e.getD 5 0) (e.getD 7 0) = none) :
    y.startCompact f q prio e k bs n = y.launchFails f q 7 e := by
  simp only [State.startCompact, hms, hl]
section
variable {loft : Option (Nat × Word)} (hl : y.launchLoft f (e.getD 5 0) (e.getD 7 0) = some loft)
include hl
theorem State.startCompact_unbound (hb : y.bindTable f k (ms.map (·.2.1)) = none) : y.startCompact f q prio e k bs n = y.launchFails f q 4 e := by
  simp only [State.startCompact, hms, hl, hb]
section
variable {b : State} (hb : y.bindTable f k (ms.map (·.2.1)) = some b) {ts : List Thread}
  (hts : ms.map (fun m => { launchThread k f prio e m.1 with pc := m.2.2 }) = ts)
include hb hts
theorem State.startCompact_unusable (hr : ¬ b.areasUsable f ts (BitVec.ofNat 64 (e.getD 6 0))) :
    y.startCompact f q prio e k bs n = y.launchFails f q 5 e := by
  simp only [State.startCompact, hms, hl, hb, hts, State.createThreads_unusable hr]
theorem State.startCompact_starts (hr : b.areasUsable f ts (BitVec.ofNat 64 (e.getD 6 0))) :
    y.startCompact f q prio e k bs n = (ts.foldl State.putThread b).claunched f q e loft (ts.map (·.info.addr)) (ms.map (·.2.1)) := by
  simp only [State.startCompact, hms, hl, hb, hts, State.createThreads_usable hr]
end
end
end
end

theorem State.launchDone_first {s : State} {f q : Nat} {c : Command} {rest : List Command} (hc : ((s.vcp f).queue q).cmds = c :: rest)
    (hop : c.op = 1 ∨ c.op = 2) (ht : c.todo = []) (hends : ∀ r ∈ c.recs, s.recState f r = some 4 ∨ s.recState f r = some 5) :
    let u := (s.endLoft c).launchStatus f c.stat (if ∃ r ∈ c.recs, s.recState f r = some 5 then 2 else 1) 0
    let x := (u.vcp f).queue q
    s.launchDone f q = some (u.setQueue f q (Queue.settled { x with cmds := x.cmds.erase c })) := by
  have hall : c.recs.all (fun r => s.recState f r == some 4 || s.recState f r == some 5) = true := by
    simpa only [List.all_eq_true, Bool.or_eq_true, beq_iff_eq] using hends
  have hover : ((c.op == 1 || c.op == 2) && c.todo.isEmpty && c.recs.all (fun r => s.recState f r == some 4 || s.recState f r == some 5)) = true := by
    rw [hall, ht]
    obtain h1 | h2 := hop
    · rw [h1]; rfl
    · rw [h2]; rfl
  have hst : (if ∃ r ∈ c.recs, s.recState f r = some 5 then 2 else 1) = if c.recs.any (fun r => s.recState f r == some 5) then 2 else 1 :=
    if_congr (by simp only [List.any_eq_true, beq_iff_eq]) rfl rfl
  simp only [State.launchDone, hc, List.find?_cons, hover, hst]

-- Seals (21:R267-R268) --------------------------------------------------------------------------------------------------

section
variable {s : State} {n : Nat}
theorem State.prepare_done (hs : (s.rgs n).sealing = true) (hp : (s.rgs n).prepared.contains s.me = false) (hr : (s.rgs n).roll = none)
    (hd : s.partsDone n = true) :
    let g := s.rgs n
    let z := (s.cleanLines (s.lineOfNode n)).restamp n (nextRin g.rin)
    let u := z.setRgs n { g with prepared := z.me :: g.prepared, next := z.recordSeal n }
    s.prepare n = if u.coordinator n = u.me then some (u.tryCommit n) else some (u.emit (.steward 1 n (u.coordinator n))) := by
  have hgo : (!(s.rgs n).sealing || (s.rgs n).prepared.contains s.me || (s.rgs n).roll.isSome || !s.partsDone n) = false := by
    rw [hs, hp, hr, hd]; rfl
  exact if_neg (Bool.eq_false_iff.mp hgo)
theorem State.takePrepared_first {p : Nat} {z : State} (hz : s.settleCommit n = z) (hp : (z.rgs n).prepared.contains p = false)
    (hpeer : (z.rgs n).peers.contains p = true) (hr : (z.rgs n).roll = none) :
    s.takePrepared n p = some ((z.setRgs n { z.rgs n with prepared := p :: (z.rgs n).prepared }).tryCommit n) := by
  subst hz
  have hgo : (((s.settleCommit n).rgs n).prepared.contains p || !((s.settleCommit n).rgs n).peers.contains p ||
      ((s.settleCommit n).rgs n).roll.isSome) = false := by
    rw [hp, hpeer, hr]; rfl
  exact if_neg (Bool.eq_false_iff.mp hgo)
theorem State.commit_prepared (hs : (s.rgs n).sealing = true) (hc : (s.rgs n).cmt = false) (hr : (s.rgs n).roll = none)
    (hp : (s.rgs n).prepared.contains s.me = true) (hco : s.coordinator n ≠ s.me) :
    s.commit n = some ((s.setRgs n { s.rgs n with cmt := true }).emit (.steward 3 n (s.coordinator n))) := by
  have hgo : (!(s.rgs n).sealing || (s.rgs n).cmt || (s.rgs n).roll.isSome || !(s.rgs n).prepared.contains s.me || decide (s.coordinator n = s.me))
      = false := by
    rw [hs, hc, hr, hp, decide_eq_false hco]; rfl
  exact if_neg (Bool.eq_false_iff.mp hgo)
theorem State.commitAck_counts {p : Nat} (hs : (s.rgs n).sealing = true) (ha : (s.rgs n).acked.contains p = false)
    (hpeer : (s.rgs n).peers.contains p = true) (hco : s.coordinator n = s.me) (hr : (s.rgs n).roll = none)
    (hall : ∀ k ∈ s.groupPkgs n, (s.rgs n).prepared.contains k = true) :
    let g := { s.rgs n with acked := p :: (s.rgs n).acked }
    s.commitAck n p = if g.peers.all g.acked.contains then some (g.peers.foldl (fun s k => s.emit (.steward 4 n k)) (s.setRgs n { g with cmt := true }))
      else some (s.setRgs n g) := by
  have hgo : (!(s.rgs n).sealing || (s.rgs n).acked.contains p || !(s.rgs n).peers.contains p || s.coordinator n != s.me || (s.rgs n).roll.isSome ||
      !(s.groupPkgs n).all (s.rgs n).prepared.contains) = false := by
    rw [hs, ha, hpeer, hco, hr, List.all_eq_true.mpr hall, bne_self_eq_false]; rfl
  exact if_neg (Bool.eq_false_iff.mp hgo)
theorem State.worksFor_iff {t : Thread} : s.worksFor n t = true ↔ s.nodeOf t.dom = some n ∨ s.nodeOf t.home = some n := by
  simp only [State.worksFor, Bool.or_eq_true, beq_iff_eq]
/-- A gate call of a group hears of SEALTO (27:R316). -/
def State.hearsSealto (s : State) (n : Nat) (t : Thread) : Thread :=
  if s.nodeOf t.dom = some n ∨ s.nodeOf t.home = some n then
    (if t.caller.isSome ∧ t.flow.sealed = false then
      { t with flow := { t.flow with asyncs := t.flow.asyncs ++ [⟨.sealto, 0, BitVec.ofNat 64 (s.rgs n).rin⟩] } } else t)
  else t
theorem State.hearsSealto_eq {t : Thread} : s.hearsSealto n t = if s.worksFor n t && t.caller.isSome && !t.flow.sealed then
    { t with flow := { t.flow with asyncs := t.flow.asyncs ++ [(⟨.sealto, 0, BitVec.ofNat 64 (s.rgs n).rin⟩ : Trap)] } } else t := by
  by_cases hw : s.nodeOf t.dom = some n ∨ s.nodeOf t.home = some n
  · rw [State.hearsSealto, if_pos hw, State.worksFor_iff.mpr hw]
    exact if_congr (by simp) rfl rfl
  · rw [State.hearsSealto, if_neg hw, Bool.eq_false_iff.mpr (fun h => hw (State.worksFor_iff.mp h))]
    rfl
theorem State.sealTimeout_first (hs : (s.rgs n).sealing = true) (hl : (s.rgs n).late = false) :
    s.sealTimeout n = some ((s.setRgs n { s.rgs n with late := true }).mapThreads (s.hearsSealto n)) := by
  have hgo : (!(s.rgs n).sealing || (s.rgs n).late) = false := by rw [hs, hl]; rfl
  refine (if_neg (Bool.eq_false_iff.mp hgo)).trans (congrArg (fun f => some (State.mapThreads _ f)) (funext fun t => ?_))
  exact (State.hearsSealto_eq (s := s) (n := n) (t := t)).symm
end

-- Rollbacks (21:R273-R277) ---------------------------------------------------------------------------------------------

section
variable {s : State} {n : Nat}
section
variable {c p l : Nat}
theorem State.rollFrom_noCellar (h : (s.rgs n).ccap = 0 ∨ s.inCellar n p l = true) : s.rollFrom n c p l = s.noRoll n p l true := by
  refine if_pos ?_
  obtain h | h := h <;> simp [h]
theorem State.rollFrom_starts (hc : (s.rgs n).ccap ≠ 0) (hl : s.inCellar n p l = false) (hr : (s.rgs n).roll = none) :
    let u := ((s.setRgs n { s.rgs n with roll := some ⟨c, p, l⟩ }).stopGroup n).clearQueues n
    s.rollFrom n c p l = if p = u.me then (u.rgs n).peers.foldl (fun s k => s.emit (.rollback n k c p l)) u else u := by
  have hgo : (decide ((s.rgs n).ccap = 0) || s.inCellar n p l) = false := by rw [decide_eq_false hc, hl]; rfl
  refine (if_neg (Bool.eq_false_iff.mp hgo)).trans ?_
  rw [hr]
end
section
variable (hp : s.isPart n = true) {c p l : Nat}
include hp
theorem State.rollStep_starts (h0 : c ≠ 0) (h7 : c ≠ 7) : s.rollStep n c p l = some ((s.settleCommit n).rollFrom n c p l) := by
  simp only [State.rollStep, hp, h0, h7, Bool.not_true, Bool.false_eq_true, if_false, State.rollBack]
theorem State.rollStep_stops {u : State} (h : s.rollStops n = some u) : s.rollStep n 0 p l = some u := by
  simp [State.rollStep, hp, h]
theorem State.rollStep_finishes (h : s.rollStops n = none) : s.rollStep n 0 p l = s.finishRoll n := by
  simp [State.rollStep, hp, h]
theorem State.rollStep_noRoll : s.rollStep n 7 p l = some (s.noRoll n p l false) := by
  simp [State.rollStep, hp]
end
theorem State.rollStops_first (hr : (s.rgs n).roll.isSome = true) (hpo : s.pl.posted.any (·.node == n) = false)
    (hst : (s.rgs n).stopped.any (·.1 == s.me) = false) :
    let g := s.rgs n
    s.rollStops n = some (g.peers.foldl (fun s k => s.emit (.stopped n k g.rin g.cmt)) (s.setRgs n { g with stopped := (s.me, g.rin, g.cmt) :: g.stopped })) := by
  have hgo : ((s.rgs n).roll.isNone || (s.rgs n).stopped.any (·.1 == s.me) || s.pl.posted.any (·.node == n)) = false := by
    rw [hst, hpo, Option.isNone_eq_false_iff.mpr hr]; rfl
  exact if_neg (Bool.eq_false_iff.mp hgo)
theorem State.rollStops_told (hst : (s.rgs n).stopped.any (·.1 == s.me) = true) : s.rollStops n = none := by
  simp only [State.rollStops, hst, Bool.or_true, Bool.true_or, if_true]
/-- A group whose packages have all stopped, none of which knows of a COMMIT, goes back (21:R273-R274). -/
theorem State.finishRoll_back {r : Roll} (hr : (s.rgs n).roll = some r) (hall : ∀ k ∈ s.groupPkgs n, (s.rgs n).stopped.any (·.1 == k) = true)
    (hc : ∀ x ∈ (s.rgs n).stopped, x.2.2 = false) : s.finishRoll n = some (s.rollTo n r) := by
  have hbehind : (s.rgs n).stopped.filter (fun p => p.2.2) = [] := List.filter_eq_nil_iff.mpr fun x hx => by rw [hc x hx]; decide
  have hstopped : (!(s.groupPkgs n).all (fun p => (s.rgs n).stopped.any (·.1 == p))) = false := by rw [List.all_eq_true.mpr hall]; rfl
  simp only [State.finishRoll, hr, hstopped, hbehind, List.any_nil, Bool.false_and, Bool.and_false, Bool.false_eq_true, if_false]

section
variable (hp : s.isPart n = false)
include hp
theorem State.rollStep_strikes {c l : Nat} (hc : c = 1 ∨ c = 2) : s.rollStep n c s.me l = some (s.strike (l % 2 ^ 48)) := by
  simp only [State.rollStep, hp, hc, Bool.not_false, if_true, ne_eq, not_true, if_false]
theorem State.rollStep_strikesReg {l i : Nat} (hi : coordIdx (l % 2048) = some i) : s.rollStep n 3 s.me l = some (s.strikeReg i (l / 2048)) := by
  simp [State.rollStep, hp, hi]
end
end

theorem State.hangs_oldest {s y : State} {f q i : Nat} (hi : s.oldest f q = some i) (ht : bits ((s.vcp f).queue q).seen.toNat 47 32 ≠ 0)
    (hs : s.slicedOut f = false)
    (hy : (if f = 0 then s.postEvent f 4 (pack [(q, 32), (i, 0)]) else (s.postEvent f 4 (pack [(q, 32), (i, 0)])).postEvent 0 4 (pack [(q, 32), (i, 0)])) = y) :
    s.hangs f q = some (match y.nodeOf f with | some n => y.rollBack n 8 y.me 0 | none => y) := by
  have hgo : (decide (bits ((s.vcp f).queue q).seen.toNat 47 32 = 0) || s.slicedOut f) = false := by rw [decide_eq_false ht, hs]; rfl
  subst hy
  simp only [State.hangs, hi, hgo, Bool.false_eq_true, if_false]
  exact congrArg _ rfl

-- Budgets and slices (23:R289-R290) ------------------------------------------------------------------------------------

theorem State.renew_limits (s : State) : s.renew.st.limits = s.st.cfgs.flatMap (fun p => (List.range 4).map (fun k => (4 * p.1 + k, p.2.budget k))) := by
  unfold State.renew
  refine congrArg (List.flatMap _) ?_
  refine foldl_keeps (fun z : State => z.st.cfgs = s.st.cfgs) _ _ ?_ s rfl
  exact fun _ _ h => h

/-- The slice of a partition's function with its length (23:R290). -/
def State.putSlice (s : State) (n g k : Nat) : State := { s with st := { s.st with slice := (n, g, k) :: s.st.slice.filter (fun p => p.1 != n) } }
/-- What is left of a function's slice; all of it before it begins (23:R290). -/
def State.sliceLeft (s : State) (n f : Nat) : Nat :=
  match s.st.slice.find? (fun p => p.1 == n && p.2.1 == f) with | some (_, _, k) => k | none => (s.cfg f).weight
section
variable {s : State} {n f : Nat} (hf : s.slicer n = some f)
include hf
theorem State.sliceChange_shortens (h : 1 < s.sliceLeft n f) : s.sliceChange n = some (s.putSlice n f (s.sliceLeft n f - 1)) := by
  unfold State.sliceChange
  split
  · next hno => exact absurd (hno.symm.trans hf) (by simp)
  · next hf' =>
    cases hf'.symm.trans hf
    exact if_pos h
theorem State.sliceChange_ends (h : s.sliceLeft n f ≤ 1) :
    let g := ((s.workers n).find? (f < ·)).getD ((s.workers n).headD f)
    s.sliceChange n = if g = f then some (s.putSlice n g (s.cfg g).weight) else some ((s.putSlice n g (s.cfg g).weight).mapThreads (fun t =>
      if t.home = f && t.flow.preempt = 0 then { t with flow := { t.flow with preempt := 1 } } else t)) := by
  unfold State.sliceChange
  split
  · next hno => exact absurd (hno.symm.trans hf) (by simp)
  · next hf' =>
    cases hf'.symm.trans hf
    exact if_neg (Nat.not_lt.mpr h)
end

-- Capacity blocks (25:R297-R301) ---------------------------------------------------------------------------------------

section
variable {s : State} {b : Nat} {x : Word}
theorem State.bownPut_invalid (h : s.blockRetired b = true ∨ bits x.toNat 63 16 ≠ 0 ∨ bits x.toNat 11 10 = 3 ∨
    (bits x.toNat 11 10 = 0 ∧ bits x.toNat 6 0 ≠ 0) ∨ (1 ≤ (s.move b).state ∧ (s.move b).state ≤ 3)) : s.bownPut b x = s := by
  refine if_pos ?_
  obtain h | h | h | h | ⟨h1, h3⟩ := h
  · exact .inl h
  · exact .inr (.inl h)
  · exact .inr (.inr (.inl h))
  · exact .inr (.inr (.inr (.inl h)))
  · exact .inr (.inr (.inr (.inr (.inl (by simp; omega)))))
/-- A node that a block leaves or goes to is a partition with no functions bound (25:R297). -/
def State.unboundNode (s : State) (o : Option Nat) : Bool := match o with
  | none => true
  | some p => s.isPart p && (s.bound p).isEmpty
theorem State.bownPut_valid (hr : s.blockRetired b = false) (hz : bits x.toNat 63 16 = 0) (h3 : bits x.toNat 11 10 ≠ 3)
    (h0 : bits x.toNat 11 10 = 0 → bits x.toNat 6 0 = 0) (hm : (s.move b).state = 0 ∨ 4 ≤ (s.move b).state) (hb : b < 288)
    (hown : ∀ p, s.owner b = some p → s.isPart p = true ∧ s.bound p = [])
    (hnew : bits x.toNat 11 10 ≠ 0 → s.isPart (bits x.toNat 6 0) = true ∧ s.bound (bits x.toNat 6 0) = [])
    (hold : s.blockKind b = 2 → (s.rgs (s.blockNode b)).cuse = 0) (hcuse : bits x.toNat 11 10 = 2 → (s.rgs (bits x.toNat 6 0)).cuse = 0) :
    let u : State := { s with st := { s.st with bown := setKey s.st.bown b (pack [(bits x.toNat 11 10, 10), (bits x.toNat 6 0, 0)]) } }
    s.bownPut b x = (u.countCellar (s.blockNode b)).countCellar (bits x.toNat 6 0) := by
  have hgo : ¬ (s.blockRetired b = true ∨ bits x.toNat 63 16 ≠ 0 ∨ bits x.toNat 11 10 = 3 ∨ (bits x.toNat 11 10 = 0 ∧ bits x.toNat 6 0 ≠ 0) ∨
      (!decide ((s.move b).state = 0 ∨ 4 ≤ (s.move b).state)) = true ∨ 288 ≤ b) := by
    have hmove : decide ((s.move b).state = 0 ∨ 4 ≤ (s.move b).state) = true := decide_eq_true hm
    rw [hr, hmove]
    simp
    omega
  have hfree : s.unboundNode (s.owner b) = true := by
    cases ho : s.owner b with
    | none => rfl
    | some p =>
      obtain ⟨hpart, hnone⟩ := hown p ho
      simp [State.unboundNode, hpart, hnone]
  have hgets : s.unboundNode (if bits x.toNat 11 10 = 0 then none else some (bits x.toNat 6 0)) = true := by
    by_cases hk : bits x.toNat 11 10 = 0
    · rw [if_pos hk]; rfl
    · obtain ⟨hpart, hnone⟩ := hnew hk
      simp [State.unboundNode, hk, hpart, hnone]
  have hcalm (k n : Nat) (h : k = 2 → (s.rgs n).cuse = 0) : (k != 2 || (s.rgs n).cuse == 0) = true := by
    by_cases hk : k = 2
    · simp [h hk]
    · simp [hk]
  have hready : (!s.unboundNode (s.owner b) || !s.unboundNode (if bits x.toNat 11 10 = 0 then none else some (bits x.toNat 6 0)) ||
      !(s.blockKind b != 2 || (s.rgs (s.blockNode b)).cuse == 0) ||
      !(bits x.toNat 11 10 != 2 || (s.rgs (bits x.toNat 6 0)).cuse == 0)) = false := by
    rw [hfree, hgets, hcalm _ _ hold, hcalm _ _ hcuse]; rfl
  exact (if_neg hgo).trans (if_neg (Bool.eq_false_iff.mp hready))
end

section
variable {s : State} {f b : Nat} {x : Word} (hb : b = bits x.toNat 8 0) (hz : bits x.toNat 63 20 = 0) (hv : bitOf x.toNat 15 = true) (hmax : b < 288)
  (hn : s.nodeOf f ≠ none)
include hb hz hv hmax hn
/-- An acknowledgement of a block's move is for its owner while it is offered, and for its gaining node once it is scrubbed (25:R299). -/
theorem State.mbackPut_valid : s.mbackPut f x =
    if (s.move b).state = 1 ∧ s.nodeOf f = s.owner b then (if s.blockHeld b || s.lastCellar b then s.moveTo b 5 3 else s.startScrub b)
    else if (s.move b).state = 3 ∧ s.nodeOf f = some (s.move b).gain then
      (if s.lastCellar b then s.moveTo b 5 3
      else
        let u := s.moveTo b 4 0
        let v : State := { u with st := { u.st with bown := setKey u.st.bown b (pack [(1, 10), ((s.move b).gain, 0)]) } }
        (v.countCellar (s.blockNode b)).countCellar (s.move b).gain)
    else s := by
  subst hb
  refine if_neg ?_
  have hsome : (s.nodeOf f).isNone = false := Option.isNone_eq_false_iff.mpr (Option.isSome_iff_ne_none.mpr hn)
  rw [hv, hsome]
  simp [hz, hmax]
end

/-- A byte of memory reads 0 in a cleared range, and as before elsewhere, whatever the form of the cells. -/
theorem getByte_clearRange_any (m : List Host.Cell) (lo hi a : Nat) :
    getByte (clearRange m lo hi) a = if lo ≤ a ∧ a < hi then 0 else getByte m a := by
  induction m with
  | nil => simp [clearRange, getByte]
  | cons c cs ih =>
    rw [clearRange] at ih ⊢
    by_cases ha : c.1 = a
    · by_cases hr : lo ≤ a ∧ a < hi
      · rw [List.filter_cons_of_neg (by simp; omega), ih]
        simp [hr]
      · rw [List.filter_cons_of_pos (by simp; omega)]
        simp [getByte, ha, hr]
    · rw [List.filter_cons]
      split <;> simp [getByte, ha, ih]
/-- The memory of a scrubbed block is zero before its gaining node is told (25:R300 step 3). -/
theorem State.scrubbed_reads (s : State) (b : Nat) : ∃ u : State, s.scrubbed b = u.moveTo b 3 0 ∧
    ∀ a, u.read a 1 = if b * Config.blockSize ≤ a ∧ a < (b + 1) * Config.blockSize then [0] else s.read a 1 := by
  refine ⟨_, rfl, fun a => ?_⟩
  simp only [State.read, readBytes]
  rw [getByte_clearRange_any]
  split <;> rfl

/-- Settles O53: each of the stewards' steps is its operation, and each operation is what its queue, its group or its block is at. -/
theorem stewardSteps : Obligations.StewardSteps := by
  unfold Obligations.StewardSteps
  refine ⟨fun s f k => rfl, fun s f q => ⟨?badEntry, fun hp hf hr => ⟨?disabled, ?stopped, ?checked⟩⟩, fun s f q e h => ?nop,
    fun s f q e h hc => ⟨?signalFails, ?signalStores⟩, fun s f q e h => ⟨?waitFails, ?waits⟩, fun s f q => ⟨?fenceSealed, ?fenceStarts⟩,
    fun s f q e h => ⟨?launchHeader, ?launch⟩, fun s f q c more recA tile k rest hr hc ht => ⟨?retired, ?places⟩,
    fun s f q e h hall => ⟨?claunchHeader, ?claunch⟩, fun s f q c rest hc hop ht hends => .of_some (State.launchDone_first hc hop ht hends),
    fun s n hs hp hr hd => ⟨?commits, ?prepares⟩, fun s n p hp hpeer hr => .of_some (State.takePrepared_first rfl hp hpeer hr),
    fun s n hs hc hr hp hco => .of_some (State.commit_prepared hs hc hr hp hco), fun s n p hs ha hpeer hco hr hall => ⟨?sealsAll, ?counts⟩,
    fun s n => ⟨?sealed, ?unsealed⟩, fun s n hs hl => .of_some (State.sealTimeout_first hs hl), fun s n c p l hp h0 h7 => ⟨?noCellar, ?rolls⟩,
    fun s n p l hp hr hpo hst => ?stops, fun s n p l r hp hr hall hc => ?back, fun s n c l hp hc => .of_some (State.rollStep_strikes hp hc),
    fun s n l i hp hi => .of_some (State.rollStep_strikesReg hp hi), fun s n p l hp => .of_some (State.rollStep_noRoll hp),
    fun s n => ⟨fun hp => .of_some (if_pos hp), fun hp => .of_none (if_neg (Bool.eq_false_iff.mp hp))⟩,
    fun s f q i hi ht hs => ?hang, fun s => ⟨rfl, rfl, State.renew_limits s⟩, fun s n f left hf hleft => ?slice,
    fun s b k n x hk hn hb => ⟨?bownInvalid, ?bownValid⟩, fun s f b x hb hz hv hmax hn => ⟨?offered, ?lastCellar, ?gains, ?none⟩,
    fun s b h => .of_some (if_pos h), fun s b h => .of_some (if_pos h), State.scrubbed_reads, fun s f => ⟨fun h => ?flr, rfl⟩⟩
  case badEntry => exact fun hp he => .of_some (State.queuePass_badEntry hp he)
  case disabled => exact fun he => .of_some (State.queuePass_disabled rfl hp hf hr he)
  case stopped => exact fun he h => .of_some (State.queuePass_error rfl hp hf hr he h)
  case checked =>
    intro he h3 h4
    have hchecks := State.queuePass_checks rfl hp hf hr he h3 h4
    refine ⟨fun h => .of_some (hchecks.trans (congrArg some (State.checkQueue_size h))), fun hl hu =>
      ⟨fun h => .of_some (hchecks.trans (congrArg some (State.checkQueue_prio hl hu h))), fun hq =>
        ⟨fun h => .of_some (hchecks.trans (congrArg some (State.checkQueue_base hl hu hq h))), fun hb =>
          ⟨fun h => .of_some (hchecks.trans (congrArg some (State.checkQueue_ring hl hu hq hb h))), fun u h => ?_⟩⟩⟩⟩
    have hindexes := hchecks.trans (congrArg some (State.checkQueue_indexes hl hu hq hb h))
    exact ⟨fun hn => .of_some (hindexes.trans (congrArg some (if_pos hn))),
      fun hn => .of_some (hindexes.trans (congrArg some (if_neg (Nat.not_lt.mpr hn))))⟩
  case nop => exact .of_some (State.cmdNop_entry h)
  case signalFails => exact fun t ht => .of_some (State.cmdSignal_fails h hc ht)
  case signalStores => exact fun u hu => .of_some (State.cmdSignal_stores h hc hu)
  case waitFails => exact fun t ht => .of_some (State.cmdWait_fails h ht)
  case waits =>
    refine fun v hv => ⟨fun hle => .of_some (State.cmdWait_reached h hv hle), fun hlt ps u hp => ?_⟩
    have hwaits := State.cmdWait_waits h hv hlt hp
    exact ⟨fun hm => .of_none (hwaits.trans (if_pos hm)), fun hm => .of_some (hwaits.trans (if_neg hm))⟩
  case fenceSealed => exact fun c rest hc h3 hs => .of_some (State.cmdFence_sealed (State.fenceDone_sealed hc h3 hs))
  case fenceStarts =>
    refine fun e h hc => ⟨fun t ht => .of_some (State.cmdFence_fails h hc ht), fun u hu => ?_⟩
    have hstarts := State.cmdFence_starts h hc hu
    exact ⟨fun h0 => .of_some (hstarts.trans (congrArg some (if_pos h0))), fun h0 => .of_some (hstarts.trans (congrArg some (if_neg h0)))⟩
  case launchHeader => exact fun c hc => .of_some (State.cmdLaunch_header h hc)
  case launch =>
    exact fun k hk => ⟨fun hb => .of_some (State.cmdLaunch_unbound h hk hb), fun b hb =>
      ⟨fun hr => .of_some (State.cmdLaunch_unusable h hk hb rfl hr), fun hr => .of_some (State.cmdLaunch_starts h hk hb rfl hr)⟩⟩
  case retired => exact fun h => .of_some (State.cmdClaunch_places hr hc (State.placeMember_retired ht h))
  case places =>
    exact fun hret hs hk => ⟨fun u hl => .of_some (State.cmdClaunch_places hr hc (State.placeMember_loads ht hret hs hk hl)),
      fun hl => .of_some (State.cmdClaunch_places hr hc (State.placeMember_lost ht hret hs hk hl)),
      fun n hl => .of_some (State.cmdClaunch_places hr hc (State.placeMember_cut ht hret hs hk hl))⟩
  case claunchHeader => exact fun c hc => .of_some (State.cmdClaunch_header h hall hc)
  case claunch =>
    refine fun k hk => ⟨fun t ht => .of_some (State.cmdClaunch_unread h hall hk ht), fun w hw =>
      ⟨fun hn => .of_some (State.cmdClaunch_badRecord h hall hk hw hn), fun h0 hmax hf =>
      ⟨fun t ht => .of_some (State.cmdClaunch_unreadMembers h hall hk hw rfl h0 hmax hf ht), fun bs hm => ?_⟩⟩⟩
    have hstart := State.cmdClaunch_members h hall hk hw rfl h0 hmax hf hm
    exact ⟨fun hms => .of_some (hstart.trans (congrArg some (State.startCompact_badMembers hms))), fun ms hms =>
      ⟨fun hl => .of_some (hstart.trans (congrArg some (State.startCompact_badLoft hms hl))), fun loft hl =>
      ⟨fun hb => .of_some (hstart.trans (congrArg some (State.startCompact_unbound hms hl hb))), fun b hb =>
      ⟨fun hr => .of_some (hstart.trans (congrArg some (State.startCompact_unusable hms hl hb rfl hr))),
        fun hr => .of_some (hstart.trans (congrArg some (State.startCompact_starts hms hl hb rfl hr)))⟩⟩⟩⟩
  case commits => exact fun hco => .of_some ((State.prepare_done hs hp hr hd).trans (if_pos hco))
  case prepares => exact fun hco => .of_some ((State.prepare_done hs hp hr hd).trans (if_neg hco))
  case sealsAll => exact fun h => .of_some ((State.commitAck_counts hs ha hpeer hco hr hall).trans (if_pos (List.all_eq_true.mpr h)))
  case counts => exact fun h => .of_some ((State.commitAck_counts hs ha hpeer hco hr hall).trans (if_neg (fun hacked => h (List.all_eq_true.mp hacked))))
  case sealed => exact fun h => .of_some (if_pos h)
  case unsealed => exact fun h => .of_none (if_neg (Bool.eq_false_iff.mp h))
  case noCellar => exact fun h => .of_some ((State.rollStep_starts hp h0 h7).trans (congrArg some (State.rollFrom_noCellar h)))
  case rolls => exact fun hc hl hr => .of_some ((State.rollStep_starts hp h0 h7).trans (congrArg some (State.rollFrom_starts hc hl hr)))
  case stops => exact .of_some (State.rollStep_stops hp (State.rollStops_first hr hpo hst))
  case back =>
    have hme := hall s.me List.mem_cons_self
    exact .of_some ((State.rollStep_finishes hp (State.rollStops_told hme)).trans (State.finishRoll_back hr hall hc))
  case hang =>
    intro z y
    have hhang := State.hangs_oldest hi ht hs (y := y) rfl
    refine ⟨fun n hn => .of_some (hhang.trans ?_), fun hn => .of_some (hhang.trans ?_)⟩
    · rw [hn]
    · rw [hn]
  case slice =>
    intro put g
    subst hleft
    refine ⟨fun h => .of_some (State.sliceChange_shortens hf h), fun h hg => ?_, fun h hg => ?_⟩
    · exact .of_some ((State.sliceChange_ends hf h).trans ((if_pos hg).trans
        (congrArg (fun h => some (s.putSlice n h (s.cfg h).weight)) hg)))
    · exact .of_some ((State.sliceChange_ends hf h).trans (if_neg hg))
  case bownInvalid =>
    subst hk hn
    exact fun h => congrArg Host.Outcome.next (State.bownPut_invalid h)
  case bownValid =>
    subst hk hn
    exact fun hr hz h3 h0 hm hown hnew hold hcuse => congrArg Host.Outcome.next (State.bownPut_valid hr hz h3 h0 hm hb hown hnew hold hcuse)
  case offered =>
    intro h1 hown
    have hack := (State.mbackPut_valid hb hz hv hmax hn).trans (if_pos ⟨h1, hown⟩)
    exact ⟨fun h => congrArg Host.Outcome.next (hack.trans (if_pos (by simpa using h))),
      fun hheld hlast => congrArg Host.Outcome.next (hack.trans (if_neg (by simp [hheld, hlast])))⟩
  case lastCellar =>
    intro h3 hg hlast
    have hack := (State.mbackPut_valid hb hz hv hmax hn).trans ((if_neg (fun h => by omega)).trans (if_pos ⟨h3, hg⟩))
    exact congrArg Host.Outcome.next (hack.trans (if_pos hlast))
  case gains =>
    intro h3 hg hlast
    have hack := (State.mbackPut_valid hb hz hv hmax hn).trans ((if_neg (fun h => by omega)).trans (if_pos ⟨h3, hg⟩))
    exact congrArg Host.Outcome.next (hack.trans (if_neg (Bool.eq_false_iff.mp hlast)))
  case none =>
    intro h1 h3
    exact congrArg Host.Outcome.next ((State.mbackPut_valid hb hz hv hmax hn).trans ((if_neg (fun h => h1 h.1)).trans (if_neg (fun h => h3 h.1))))
  case flr => exact congrArg Host.Outcome.next (if_neg h)

end Sys2Proof.Machine
end

section
/-! PROOFS. Steps of fabric, clocks, power, sparing, boot and host link (29:R321-R339, 31:R340-R347, 17:R348). -/
namespace Sys2Proof.Machine
open Sys2Proof

-- What an event leaves of the clocks (31:R344) --------------------------------------------------------------------------

theorem State.CacheWork.stopped {s t : State} (h : s.CacheWork t) : t.pl.stopped = s.pl.stopped := by
  obtain ⟨_, _, _, _, _, _, rfl⟩ := h
  rfl
theorem State.TagWork.stopped {s t : State} (h : s.TagWork t) : t.pl.stopped = s.pl.stopped := by
  obtain ⟨⟨_, _, _, _, rfl⟩, -⟩ := h
  rfl
theorem State.stopped_send (s : State) (m : OutMsg) (f k : Nat) : ((s.emit m).flits f k).tick.pl.stopped = s.pl.stopped :=
  (State.cacheWork_flits (s.emit m) f k).stopped
theorem State.stopped_postWrite (s : State) (off : Nat) (bs : List Byte) (h : Bool) : (s.postWrite off bs h).pl.stopped = s.pl.stopped := by
  unfold State.postWrite
  dsimp only
  split <;> rfl
theorem State.stopped_walkRead (s : State) (fn ea : Nat) : (s.walkRead fn ea).pl.stopped = s.pl.stopped := by
  unfold State.walkRead
  dsimp only
  generalize hu : (if ea / 2 ^ 48 = s.me then _ else _) = u
  have hsu : u.pl.stopped = s.pl.stopped := by
    subst hu
    split
    · exact (s.cacheWork_sees _ _).stopped
    · exact s.stopped_send ..
  refine Eq.trans ?_ hsu
  split
  · exact (u.cacheWork_unitRead ..).stopped
  · rfl
theorem State.stopped_walkSet (s : State) (fn ea e k : Nat) : (s.walkSet fn ea e k).pl.stopped = s.pl.stopped := by
  unfold State.walkSet
  dsimp only
  split
  · rfl
  · split
    · exact s.stopped_send ..
    · have hput (u : State) : State.pl (match u.unitLoc (ea % 2 ^ 48) with
          | some loc => u.write loc (leBytes 8 (e ||| k))
          | none => u) = u.pl := by
        split <;> rfl
      refine (congrArg Plat.stopped (hput _)).trans ?_
      split
      · exact (s.cacheWork_unitWrite ..).stopped
      · rfl
theorem State.stopped_walk {s : State} {tile fn : Nat} {m : Priv} {k : AccKind} {va : Word} {r : Nat × Nat × State}
    (h : s.walk tile fn m k va = .ok r) : r.2.2.pl.stopped = s.pl.stopped := by
  unfold State.walk at h
  dsimp only at h
  (repeat' split at h) <;> cases h
  exact (State.stopped_walkSet ..).trans (foldl_keeps (fun u : State => u.pl.stopped = s.pl.stopped) _ _
    (fun u a hu => (u.stopped_walkRead fn a).trans hu) s rfl)
theorem State.stopped_translate {s : State} {tile fn : Nat} {m : Priv} {k : AccKind} {va : Word} {r : Nat × Nat × State}
    (h : s.translate tile fn m k va = .ok r) : r.2.2.pl.stopped = s.pl.stopped := by
  unfold State.translate at h
  split at h
  next => cases h
  next =>
    split at h
    next =>
      split at h
      next => cases h
      next =>
        split at h
        next => cases h; rfl
        next => exact State.stopped_walk h
    next => exact State.stopped_walk h
theorem stopped_piecesFrom {a : Acc} {k : AccKind} {fuel n : Nat} {va : Word} {s : State} {ps : List Piece} {t : State}
    (h : piecesFrom a k fuel va n s = .ok (ps, t)) : t.pl.stopped = s.pl.stopped := by
  induction fuel generalizing va n s ps with
  | zero => cases h; rfl
  | succ fuel ih =>
    rw [piecesFrom] at h
    split at h
    next => cases h; rfl
    next =>
      dsimp only at h
      split at h
      next => cases h
      next pa leaf u hu =>
        split at h
        next => cases h
        next ps v hv =>
          cases h
          refine (ih hv).trans (Eq.trans ?_ (State.stopped_translate hu))
          split <;> rfl
theorem State.stopped_sysPieces {s : State} {f : Nat} {k : AccKind} {n : Nat} {va : Word} {ps : List Piece} {t : State}
    (h : s.sysPieces f k va n = .ok (ps, t)) : t.pl.stopped = s.pl.stopped := by
  unfold State.sysPieces at h
  split at h
  next => cases h
  next hp =>
    split at h <;> cases h
    unfold State.pieces at hp
    split at hp
    next => cases hp
    next hq =>
      split at hp <;> cases hp
      unfold accessPieces at hq
      split at hq
      next => cases hq
      next hr =>
        cases hq
        exact (stopped_piecesFrom hr :)
theorem State.stopped_ringTouch {s t : State} {f : Nat} {base : Word} {n : Nat} {k : AccKind} (h : s.ringTouch f base n k = some t) :
    t.pl.stopped = s.pl.stopped := by
  unfold State.ringTouch at h
  refine foldl_keeps (fun r : Option State => ∀ t, r = some t → t.pl.stopped = s.pl.stopped) _ _ ?_ (some s) (fun t ht => by cases ht; rfl) t h
  intro r i hr t ht
  cases r with
  | none => cases ht
  | some u =>
    dsimp only at ht
    split at ht
    · split at ht <;> cases ht
      next hv => exact (State.stopped_translate hv :).trans (hr u rfl)
    · cases ht
      exact hr _ rfl
theorem State.stopped_devStoreIn (s : State) (dom rin off : Nat) (bs : List Byte) : (s.devStoreIn dom rin off bs).pl.stopped = s.pl.stopped := by
  unfold State.devStoreIn
  split
  next =>
    split
    next => rfl
    next line _ =>
      split
      next u hu =>
        refine Eq.trans ?_ ((State.cacheWork_unitWrite u dom line).stopped.trans (State.tagWork_tagged hu).stopped)
        unfold State.writeLine
        split <;> rfl
      next => rfl
      next u hu => exact (State.cacheWork_tagged_roll hu).stopped
  next => split <;> rfl
  next => exact s.stopped_postWrite ..
  next => rfl
  next => rfl
theorem State.stopped_sysWrite {s t : State} {f : Nat} {va : Word} {bs : List Byte} (h : s.sysWrite f va bs = .ok t) :
    t.pl.stopped = s.pl.stopped := by
  unfold State.sysWrite at h
  split at h
  next => cases h
  next ps u hu =>
    cases h
    refine Eq.trans ?_ (State.stopped_sysPieces hu)
    refine foldl_keeps (fun x : State × List Byte => x.1.pl.stopped = u.pl.stopped) _ ps (fun x p hx => Eq.trans ?_ hx) (u, bs) rfl
    dsimp only
    split
    · exact State.stopped_devStoreIn ..
    · exact State.stopped_send ..
/-- An event leaves the clocks as they are. -/
theorem State.stopped_postEvent (s : State) (f code : Nat) (arg : Word) : (s.postEvent f code arg).pl.stopped = s.pl.stopped := by
  unfold State.postEvent
  dsimp only
  split
  · rfl
  · split
    next => rfl
    next u hu =>
      split
      next => rfl
      next t ht => exact (State.stopped_sysWrite ht).trans (State.stopped_ringTouch hu)

-- The fabric (29:R321-R331) --------------------------------------------------------------------------------------------

section
variable {s : State} (hen : s.pl.en = true)
include hen
theorem State.leaveDomain_alone (hsh : s.shared = false) :
    let u := s.livePeers.foldl (fun s j => s.emit (.steward 6 0 j)) s
    s.leaveDomain = some { u with pl := { u.pl with
      en := false, trained := false, joined := false
      peers := u.pl.peers.map (fun (p : Nat × Peer) => (p.1, { p.2 with st := 0, relay := 0 })) } } := by
  have hgo : (!s.pl.en || s.shared) = false := by rw [hen, hsh]; rfl
  exact if_neg (Bool.eq_false_iff.mp hgo)
omit hen in
theorem State.leaveDomain_shared (hsh : s.shared = true) : s.leaveDomain = none := if_pos (by simp [hsh])

/-- The packages found in training that no route leads to yet (29:R330). -/
def State.newPeers (s : State) (ps : List Nat) : List Nat := ps.filter (fun j => j < 16 && j != s.me && ((s.peer j).st == 0 || (s.peer j).st == 3))
section
variable {ps : List Nat} (hdown : s.pl.portsDown = false)
include hdown
theorem State.trainedWith_twice (ht : s.pl.trained = false) : s.trainedWith ps true =
    some { s with pl := { s.pl with peers := s.pl.peers.map (fun (p : Nat × Peer) => (p.1, { p.2 with st := 0, relay := 0 })) } } := by
  have hgo : (!s.pl.en || s.pl.portsDown || (s.pl.trained && (true || (s.newPeers ps).isEmpty))) = false := by rw [hen, hdown, ht]; rfl
  exact (if_neg (Bool.eq_false_iff.mp hgo)).trans (if_pos rfl)
theorem State.trainedWith_found (h : s.pl.trained = false ∨ s.newPeers ps ≠ []) :
    let u := (s.newPeers ps).foldl (fun s j => s.setPeer j { s.peer j with st := 1, relay := 0 }) s
    s.trainedWith ps false =
      some ((s.newPeers ps).foldl State.reroute { u with pl := Plat.portsUp { u.pl with trained := true, joined := true } }) := by
  have hgo : (!s.pl.en || s.pl.portsDown || (s.pl.trained && (false || (s.newPeers ps).isEmpty))) = false := by
    rw [hen, hdown]
    obtain ht | hne := h
    · rw [ht]; rfl
    · rw [List.isEmpty_eq_false_iff.mpr hne]; simp
  exact (if_neg (Bool.eq_false_iff.mp hgo)).trans (if_neg Bool.false_ne_true)
omit hen hdown in
theorem State.trainedWith_nobody (ht : s.pl.trained = true) (hnew : s.newPeers ps = []) : s.trainedWith ps false = none := by
  refine if_pos ?_
  have hstay : (s.pl.trained && (false || (s.newPeers ps).isEmpty)) = true := by rw [ht, hnew]; rfl
  exact (congrArg (_ || ·) hstay).trans (Bool.or_true _)
end
end

section
variable {s : State} {j l : Nat} (hj : j < 16) (hme : j ≠ s.me) (hl : l < 48)
include hj hme hl
theorem State.lane_named : (decide (16 ≤ j) || j == s.me || decide (48 ≤ l)) = false := by
  simp [hj, hme, hl]
theorem State.checkLane_passed (good : Bool) (h : good = true ∨ (s.peer j).lanes.contains l = true) : s.checkLane j l good = some s := by
  refine (if_neg (Bool.eq_false_iff.mp (State.lane_named hj hme hl))).trans (if_pos ?_)
  rwa [Bool.or_eq_true]
section
variable (hc : (s.peer j).lanes.contains l = false)
include hc
theorem State.checkLane_fails (hk : ((s.peer j).checks.filter (·.1 == l)).length < 2) :
    s.checkLane j l false = some (s.setPeer j { s.peer j with checks := (s.peer j).checks ++ [(l, 100)] }) :=
  (if_neg (Bool.eq_false_iff.mp (State.lane_named hj hme hl))).trans ((if_neg (by simpa using hc)).trans (if_pos hk))
theorem State.checkLane_third (hk : 2 ≤ ((s.peer j).checks.filter (·.1 == l)).length) : s.checkLane j l false =
    some ((s.setPeer j { s.peer j with checks := (s.peer j).checks.filter (·.1 != l), lanes := (s.peer j).lanes ++ [l] }).reroute j) :=
  (if_neg (Bool.eq_false_iff.mp (State.lane_named hj hme hl))).trans ((if_neg (by simpa using hc)).trans (if_neg (Nat.not_lt.mpr hk)))
end
end

theorem State.spareLane_free {s : State} {j : Nat} (h : (s.peer j).spu < Nat.min (s.peer j).fail 2) :
    s.spareLane j = some (State.resendAll (s.setPeer j { s.peer j with spu := (s.peer j).spu + 1 }) j) := if_neg (Nat.not_le.mpr h)

section
variable {s u : State} {j l tag : Nat} (hu : (s.checkLane j l false).getD s = u)
include hu
theorem State.badFlit_again (hk : lookupD u.pl.nacked tag 0 < 16) : s.badFlit j l tag =
    State.emit { u with pl := { u.pl with nacked := setKey u.pl.nacked tag (lookupD u.pl.nacked tag 0 + 1) } } (.nack j tag) := by
  subst hu
  exact if_pos hk
theorem State.badFlit_lost (hk : 16 ≤ lookupD u.pl.nacked tag 0) : s.badFlit j l tag = (u.lose tag).getD (u.forgetNacks tag) := by
  subst hu
  exact if_neg (Nat.not_lt.mpr hk)
end

section
variable {s u : State} {tag : Nat} (hu : s.forgetNacks tag = u)
include hu
theorem State.lose_frame {p : Nat} (he : u.ethernetTag tag = some p) : s.lose tag =
    some ((u.count (325 + Config.uetPort s.fresh % 8) ((u.ownerOf tag).getD 0) 3 1).emit (.resend p tag)).tick := by
  subst hu
  simp only [State.lose, he]
  rfl
section
variable (he : u.ethernetTag tag = none)
include he
theorem State.lose_group {n : Nat} (hg : u.groupOfTag tag = some n) :
    s.lose tag = some (u.rollBack n 4 s.me (Config.lostPlane s.fresh % 48)).tick := by
  subst hu
  simp only [State.lose, he, hg]
  rfl
theorem State.lose_owner {f : Nat} (hg : u.groupOfTag tag = none) (hf : u.ownerOf tag = some f) : s.lose tag = some (u.reply tag .lost []) := by
  subst hu
  simp only [State.lose, he, hg, hf]
end
end

section
variable {s : State} {pa dom pkg tag rin : Nat} {bs : List Byte}
/-- A relay passes on what is not a read that has been forwarded (29:R329). -/
theorem State.remote_passes {k : ReqKind} (hpa : pa / 2 ^ 48 ≠ s.me) (hk : ∀ p t, k ≠ .forward p t) (hst : (s.peer (pa / 2 ^ 48)).st = 1) :
    s.remote k pa dom pkg tag rin bs =
      some ((s.count 324 (dom % 1024) 3 (Nat.max 1 (reqFlits k bs.length))).emit (.passed k (pa / 2 ^ 48) pkg tag pa dom rin bs)) := by
  cases k
  case forward p t => exact absurd rfl (hk p t)
  all_goals
    unfold State.remote
    dsimp only [-Nat.reducePow]
    rw [if_neg hpa]
    exact (if_pos hpa).trans (if_pos hst)

/-- A request for this package has arrived, its flits counted (25:R309). -/
def State.requestIn (s : State) (dom : Nat) (k : ReqKind) (bs : List Byte) : State := s.flitsIn (dom % 1024) (reqFlits k bs.length)
/-- PRIV of a request: S for a function's, H for the device's (29:R326). -/
def privOf (dom : Nat) : Priv := if dom < 1024 then .s else .h
section
variable (hpa : pa / 2 ^ 48 = s.me)
include hpa
theorem State.requestIn_here (dom : Nat) (k : ReqKind) (bs : List Byte) : ¬ pa / 2 ^ 48 ≠ (s.requestIn dom k bs).me := by
  rw [State.requestIn, State.flitsIn]
  split <;> exact not_not.mpr hpa
theorem State.remote_acc (k : AccKind) :
    let u := s.requestIn dom (.acc k) bs
    s.remote (.acc k) pa dom pkg tag rin bs = some (u.answerServed (dom % 1024) pkg tag
      (u.serve k (dom % 1024) (privOf dom) (pa % 2 ^ 48) (Nat.max bs.length 1) bs pkg tag rin)) := by
  unfold State.remote
  dsimp only [-Nat.reducePow]
  rw [if_pos hpa]
  exact if_neg (State.requestIn_here hpa dom _ bs)
theorem State.remote_forward (p t : Nat) :
    let u := s.requestIn dom (.forward p t) bs
    s.remote (.forward p t) pa dom pkg tag rin bs = some (u.answerServed (dom % 1024) p t
      (u.serve .read (dom % 1024) (privOf dom) (pa % 2 ^ 48) (Nat.max bs.length 1) bs p t rin)) := by
  unfold State.remote
  dsimp only [-Nat.reducePow]
  rw [if_pos hpa]
  exact if_pos hpa
theorem State.remote_wake : s.remote .wake pa dom pkg tag rin bs = some ((s.requestIn dom .wake bs).wakeLine (waitLine (pa % 2 ^ 48))) := by
  unfold State.remote
  dsimp only [-Nat.reducePow]
  rw [if_pos hpa]
  exact if_neg (State.requestIn_here hpa dom _ bs)
theorem State.remote_waiter :
    let u := s.requestIn dom .waiter bs
    s.remote .waiter pa dom pkg tag rin bs =
      some { u with ms := { u.ms with waits := u.ms.waits ++ [⟨waitLine (pa % 2 ^ 48), 0, dom % 1024, 0, 0, some (pkg, tag)⟩] } } := by
  unfold State.remote
  dsimp only [-Nat.reducePow]
  rw [if_pos hpa]
  exact if_neg (State.requestIn_here hpa dom _ bs)
theorem State.remote_pin (bar : Nat) (init : Bool) :
    let u := s.requestIn dom (.pin bar init) bs
    s.remote (.pin bar init) pa dom pkg tag rin bs =
      some (u.answerServed (dom % 1024) pkg tag (u.servePin bar init (dom % 1024) (privOf dom) (pa % 2 ^ 48) pkg)) := by
  unfold State.remote
  dsimp only [-Nat.reducePow]
  rw [if_pos hpa]
  exact if_neg (State.requestIn_here hpa dom _ bs)
theorem State.remote_unpin (bar dirty : Nat) : s.remote (.unpin bar dirty) pa dom pkg tag rin bs =
    some (((s.requestIn dom (.unpin bar dirty) bs).farPinned bar pkg (pa % 2 ^ 48) (fun p s =>
      (s.unpinFar p pkg).sectorsHome (dom % 1024) (pa % 2 ^ 48) rin dirty bs)).answer (dom % 1024) pkg tag .done []) := by
  unfold State.remote
  dsimp only [-Nat.reducePow]
  rw [if_pos hpa]
  exact if_neg (State.requestIn_here hpa dom _ bs)
theorem State.remote_publish (bar dirty : Nat) : s.remote (.publish bar dirty) pa dom pkg tag rin bs =
    some (((s.requestIn dom (.publish bar dirty) bs).farPinned bar pkg (pa % 2 ^ 48) (fun p s =>
      (s.unpinFar p pkg).owned (dom % 1024) rin (pa % 2 ^ 48) (noTile + 1 + pkg) (pa % 2 ^ 48) dirty bs)).answer (dom % 1024) pkg tag .done []) := by
  unfold State.remote
  dsimp only [-Nat.reducePow]
  rw [if_pos hpa]
  exact if_neg (State.requestIn_here hpa dom _ bs)
theorem State.remote_save (bar dirty : Nat) (away : Bool) : s.remote (.save bar dirty away) pa dom pkg tag rin bs =
    some (((s.requestIn dom (.save bar dirty away) bs).farPinned bar pkg (pa % 2 ^ 48) (fun p s =>
      let z : State := { s with ms := { s.ms with pins := s.ms.pins.map (fun (q : Pin) => if q = p then { q with away := away } else q) } }
      (if away then z.answered (pa % 2 ^ 48) pkg else z).sectorsHome (dom % 1024) (pa % 2 ^ 48) rin dirty bs)).answer
        (dom % 1024) pkg tag .done []) := by
  unfold State.remote
  dsimp only [-Nat.reducePow]
  rw [if_pos hpa]
  exact if_neg (State.requestIn_here hpa dom _ bs)
theorem State.remote_line {k : ReqKind} {line : Nat} (hk : k = .clean ∨ k = .inval ∨ k = .discard ∨ k = .check)
    (hl : lineOf (pa % 2 ^ 48) = some line) :
    s.remote k pa dom pkg tag rin bs = some ((s.requestIn dom k bs).serveLine k (dom % 1024) rin line pkg tag) := by
  obtain rfl | rfl | rfl | rfl := hk
  all_goals
    unfold State.remote
    dsimp only [-Nat.reducePow]
    rw [if_pos hpa]
    refine (if_neg (State.requestIn_here hpa dom _ bs)).trans ?_
    rw [hl]
    exact congrArg some rfl
end
end

/-- A package that is declared dead leaves the clock group, and the groups that had a partition on it roll back (29:R330). -/
def State.withoutDead (s : State) (p : Nat) : State :=
  let u := (s.setPeer p { s.peer p with st := 3, relay := 0 }).leaveClock p
  (u.st.parts.filter (fun n => (u.rgs n).peers.contains p)).foldl (fun s n => s.rollDead n p) u
theorem State.declareDead_live {s : State} {p : Nat} (hp : p < 16) (hme : p ≠ s.me) (hst : (s.peer p).st ≠ 3) :
    let w := ((((s.withoutDead p).dropSent (·.pkg == p)).failDead p).serveDead p).wakeFar (· % 16 == p)
    s.declareDead p = some ((w.inFlight p).foldl (fun s g => s.reply g .notile []) w).rerouteAll := by
  have hgo : (decide (16 ≤ p) || p == s.me || (s.peer p).st == 3) = false := by simp [hp, hme, hst]
  exact if_neg (Bool.eq_false_iff.mp hgo)

-- Clock groups (29:R334-R337) and sensors (31:R344) -------------------------------------------------------------------

section
variable {s : State} {m : Nat} {x : Nat × ClockMember} (hx : s.pl.members.find? (·.1 == m) = some x)
include hx
theorem State.removeSilent_silent (h : x.2.silent = true) :
    s.removeSilent m = some ((s.setMember m { x.2 with pend := x.2.pend ++ [(128, leadTicks)] }).tellClock m 128) := by
  simp only [State.removeSilent, hx, h, if_true]
theorem State.silence_live (h : x.2.silent = false) (hp : x.2.pend.any (·.1 == 128) = false) : s.silence m =
    some ((s.setMember m { x.2 with silent := true, ceil := 0, pend := [] }).postEvent 0 7 (BitVec.ofNat 64 (s.pl.group.getD 0))) := by
  simp only [State.silence, hx, h, hp, Bool.or_self, Bool.false_eq_true, if_false]
end

section
variable {s : State} {m l : Nat} (hm : m < 64) (hl : l ≤ 60 ∨ l = 128) (hme : ¬ (s.pl.group.isSome = true ∧ m = s.pl.index))
  (hg : s.agreeJoins.pl.group ≠ none)
include hm hl hme hg
theorem State.announced_member : s.announced m l = match s.agreeJoins.pl.members.find? (·.1 == m) with
    | none => if l = 128 then none else some (s.agreeJoins.setMember m ⟨l, [], leadTicks, false⟩)
    | some (_, x) => some (s.agreeJoins.setMember m { x with silent := false, pend := x.pend ++ [(l, leadTicks)] }) := by
  have hgo : ¬ (64 ≤ m ∨ (60 < l ∧ l ≠ 128) ∨ (s.pl.group.isSome ∧ m = s.pl.index)) := by
    rintro (h | ⟨h, h'⟩ | h)
    · omega
    · omega
    · exact hme h
  have hgroup : s.agreeJoins.pl.group.isNone = false := Option.isNone_eq_false_iff.mpr (Option.isSome_iff_ne_none.mpr hg)
  exact (if_neg hgo).trans (if_neg (Bool.eq_false_iff.mp hgroup))
theorem State.announced_new (hx : s.agreeJoins.pl.members.find? (·.1 == m) = none) (h128 : l ≠ 128) :
    s.announced m l = some (s.agreeJoins.setMember m ⟨l, [], leadTicks, false⟩) := by
  rw [State.announced_member hm hl hme hg, hx]
  exact if_neg h128
theorem State.announced_again {x : Nat × ClockMember} (hx : s.agreeJoins.pl.members.find? (·.1 == m) = some x) :
    s.announced m l = some (s.agreeJoins.setMember m { x.2 with silent := false, pend := x.2.pend ++ [(l, leadTicks)] }) := by
  rw [State.announced_member hm hl hme hg, hx]
end

theorem State.overheats_stopped (s : State) (tj : Nat) : (s.overheats tj).pl.stopped = true := by
  unfold State.overheats
  split
  next h => exact h
  next => exact State.stopped_postEvent ..

-- Power (31:R343) -----------------------------------------------------------------------------------------------------

section
variable {s : State} (h2 : s.pl.pwCur = 2)
include h2
theorem State.runPower_leaving (h : (s.pl.en = true ∧ s.pl.trained = false) ∨ s.pl.ethDown = true) :
    s.runPower = { s with pl := { s.pl with pwReq := 0, leaving := true } } := by
  have hwait : (true && (!s.pl.en || s.pl.trained) && !s.pl.ethDown) = false := by
    obtain ⟨he, ht⟩ | he := h
    · rw [he, ht]; rfl
    · rw [he]; simp
  exact congrArg s.setPl ((if_pos h2).trans (if_neg (Bool.eq_false_iff.mp hwait)))
theorem State.runPower_up (h : s.pl.en = false ∨ s.pl.trained = true) (he : s.pl.ethDown = false) :
    s.runPower = { s with pl := { s.pl with pwReq := 0, leaving := false, pwCur := 0 } } := by
  have hgo : (true && (!s.pl.en || s.pl.trained) && !s.pl.ethDown) = true := by
    rw [he]
    obtain h | h := h <;> simp [h]
  exact congrArg s.setPl ((if_pos h2).trans (if_pos hgo))
end

section
variable {s : State} (hr : s.pl.pwReq ≠ 0) (hd : s.pl.pwCur ≠ s.pl.pwReq ∨ s.pl.leaving = true)
  (hi : s.clocked = false ∨ s.st.parts.all s.partIdle = true)
include hr hd hi
/-- A power state is asked for, is not yet reached, and no partition is busy (31:R343). -/
theorem State.powerReached_idle : s.powerReached =
    if s.pl.pwReq = 1 ∧ s.pl.pwCur = 2 ∧ (s.pl.ethDown ∨ (s.pl.en ∧ !s.pl.trained)) then none
    else if s.pl.pwReq = 2 then
      some (s.setPl { s.pl with pwCur := 2, leaving := false, trained := false, ethDown := s.pl.ept.any (fun e => bits e.2.1.toNat 63 62 == 2) })
    else some (s.setPl { s.pl with pwCur := s.pl.pwReq, leaving := false }) := by
  have hgo : ¬ (s.pl.pwReq = 0 ∨ (s.pl.pwCur = s.pl.pwReq ∧ !s.pl.leaving)) := by
    rintro (h | ⟨h, h'⟩)
    · exact hr h
    · obtain hne | hl := hd
      · exact hne h
      · rw [hl] at h'; exact absurd h' (by decide)
  have hidle : (s.clocked && !s.st.parts.all s.partIdle) = false := by
    obtain h | h := hi
    · rw [h]; rfl
    · rw [h]; simp
  exact (if_neg hgo).trans (if_neg (Bool.eq_false_iff.mp hidle))
theorem State.powerReached_low (h2 : s.pl.pwReq = 2) : s.powerReached = some { s with pl := { s.pl with
    pwCur := 2, leaving := false, trained := false, ethDown := s.pl.ept.any (fun e => bits e.2.1.toNat 63 62 == 2) } } :=
  (State.powerReached_idle hr hd hi).trans ((if_neg (fun h => by omega)).trans (if_pos h2))
theorem State.powerReached_hold (h1 : s.pl.pwReq = 1)
    (hup : s.pl.pwCur ≠ 2 ∨ (s.pl.ethDown = false ∧ (s.pl.en = false ∨ s.pl.trained = true))) :
    s.powerReached = some { s with pl := { s.pl with pwCur := 1, leaving := false } } := by
  have hgo : ¬ (s.pl.pwReq = 1 ∧ s.pl.pwCur = 2 ∧ (s.pl.ethDown ∨ (s.pl.en ∧ !s.pl.trained))) := by
    rintro ⟨-, h2, hwait⟩
    obtain hne | ⟨he, hen⟩ := hup
    · exact hne h2
    · obtain h | ⟨h, h'⟩ := hwait
      · rw [he] at h; exact absurd h (by decide)
      · obtain hen | ht := hen
        · rw [hen] at h; exact absurd h (by decide)
        · rw [ht] at h'; exact absurd h' (by decide)
  refine (State.powerReached_idle hr hd hi).trans ((if_neg hgo).trans ((if_neg (by omega)).trans ?_))
  rw [h1]
  rfl
end

-- The host link (29:R338-R339, 17:R348) -------------------------------------------------------------------------------

section
variable {s : State} {f : Nat} (h0 : f ≠ 0) (h512 : f ≤ 512)
include h0 h512
theorem State.tdispMsg_named : ¬ (f = 0 ∨ 512 < f) := by omega
theorem State.tdispMsg_lock (hk : lookupD s.pl.tdisp f 0 = 0) : s.tdispMsg f .lock = some (s.setPl { s.pl with tdisp := setKey s.pl.tdisp f 1 }) :=
  (if_neg (State.tdispMsg_named h0 h512)).trans (if_pos hk)
theorem State.tdispMsg_start (hk : lookupD s.pl.tdisp f 0 = 1) : s.tdispMsg f .start = some (s.setPl { s.pl with tdisp := setKey s.pl.tdisp f 2 }) :=
  (if_neg (State.tdispMsg_named h0 h512)).trans (if_pos hk)
theorem State.tdispMsg_stop : s.tdispMsg f .stop = some (s.setPl { s.pl with tdisp := setKey s.pl.tdisp f 0 }) :=
  if_neg (State.tdispMsg_named h0 h512)
theorem State.tdispMsg_report : s.tdispMsg f .report =
    some ((s.emit (.report f (lookupD s.pl.tdisp f 0) (s.lockedItems f) (Config.signature s.fresh))).tick) :=
  if_neg (State.tdispMsg_named h0 h512)
end

section
variable {s : State} {f o : Nat} {x : BitVec 32} (h1 : s.pl.fwSt = 1) (hf : f ≤ s.pl.vfs)
include h1 hf
theorem State.configRequest_booted : ¬ s.pl.fwSt = 0 ∧ ¬ (s.pl.vfs < f ∨ (s.pl.fwSt = 3 ∧ f ≠ 0)) := by omega
theorem State.configRequest_reads : s.configRequest f o false x =
    s.emit (.configReply f o (lookupD s.pl.config (f * 4096 + o % 4096) (Config.configWord f (o % 4096)))) := by
  obtain ⟨hb, hn⟩ := State.configRequest_booted h1 hf
  exact (if_neg hb).trans ((if_neg hn).trans (if_pos rfl))
theorem State.configRequest_writes (h0 : f ≠ 0) : s.configRequest f o true x =
    s.setPl { s.pl with config := setKey s.pl.config (f * 4096 + o % 4096) x, vfs := s.pl.vfs } := by
  obtain ⟨hb, hn⟩ := State.configRequest_booted h1 hf
  have hvfs : (if f = 0 ∧ o % 4096 = Config.vfOffset then Nat.min x.toNat 512 else s.pl.vfs) = s.pl.vfs := if_neg (fun h => h0 h.1)
  refine (if_neg hb).trans ((if_neg hn).trans ((if_neg (by decide)).trans ((if_neg (fun h => h0 h.1)).trans ?_)))
  exact congrArg (fun v => s.setPl { s.pl with config := setKey s.pl.config (f * 4096 + o % 4096) x, vfs := v }) hvfs
end

section
variable {s : State} {off n : Nat} {x : Word}
/-- A VF in RUN takes no write of its page that comes outside its own stream (29:R339). -/
theorem State.unprotected_outside {f k : Nat} (hf : f ≠ 0) (ht : lookupD s.pl.tdisp f 0 = 2) (hk : k = 0 ∨ s.pl.ide.contains k = false) :
    s.unprotected f k = true := by
  have hout : (k != 0 && k == Config.vfStream f % 8 + 1 && s.pl.ide.contains k) = false := by
    obtain rfl | hk := hk
    · rfl
    · rw [hk, Bool.and_false]
  rw [State.unprotected, hout, ht]
  simp [hf]
theorem registerWrite_outside {f : Nat} (hoff : 0x100000000 ≤ off) (hn : 32 ≤ n) (hu : s.unprotected f (n / 32 - 1) = true)
    (hf : f = (off - 0x100000000) / 0x1000) : Does (.registerWrite off n x) s (s.emit (.unsupported f)) := by
  subst hf
  exact if_pos ⟨hoff, hn, hu⟩
section
variable (hn : n < 32)
include hn
theorem registerWrite_mode : (n / 16 % 2 == 1) = decide (16 ≤ n) := by
  rw [Bool.eq_iff_iff, beq_iff_eq, decide_eq_true_eq]
  omega
theorem registerWrite_aligned {cur : Word} (hfit : off % 8 + n % 16 ≤ 8) (hcur : s.mmioWord (off / 8 * 8) = some cur) :
    Does (.registerWrite off n x) s (s.regPut (off / 8 * 8) (mergeWord cur (off % 8) (n % 16) x) (decide (16 ≤ n))) := by
  rw [← registerWrite_mode hn]
  refine (if_neg (fun h => Nat.not_le.mpr hn h.2.1)).trans ((if_neg (Nat.not_lt.mpr hfit)).trans ?_)
  rw [hcur]
theorem registerWrite_crossing (hcross : 8 < off % 8 + n % 16) : Does (.registerWrite off n x) s
    (s.postWrite off ((List.range (n % 16)).map (fun i => BitVec.ofNat 8 (x.toNat / 2 ^ (8 * i)))) (decide (16 ≤ n))) := by
  rw [← registerWrite_mode hn]
  exact (if_neg (fun h => Nat.not_le.mpr hn h.2.1)).trans (if_pos hcross)
end
end

-- Joins of clock groups (15:R221), measurements and firmware (31:R341-R342) -----------------------------------------------

theorem clockJoinTimeout_pending {s : State} {tid : Nat} {x : Nat × Word} (hx : s.pl.joins.find? (·.1 == tid) = some x)
    (h0 : bits x.2.toNat 33 32 = 0) : Does (.clockJoinTimeout tid) s (s.setJoin tid (x.2 ||| 0x200000000)) := by
  show execClockJoinTimeout tid s = _
  simp only [execClockJoinTimeout, hx, h0, if_true]
theorem getMeasurements_block {s : State} {k : Nat} (h1 : 1 ≤ k) (h5 : k ≤ 5) :
    Does (.getMeasurements k) s ((s.emit (.measurement k (s.measured k) (Config.signature s.fresh))).tick) := by
  have hblock : (if k = 255 then [1, 2, 3, 4, 5] else if 1 ≤ k ∧ k ≤ 5 then [k] else []) = [k] :=
    (if_neg (by omega)).trans (if_pos ⟨h1, h5⟩)
  show execGetMeasurements k s = _
  simp only [execGetMeasurements, hblock, List.foldl_cons, List.foldl_nil]
section
variable {s : State} (h1 : s.pl.fwSt = 1) (v : Nat) (r : Bool)
include h1
theorem firmwareUpdate_verified : Does (.firmwareUpdate v true r) s (s.setPl { s.pl with
    fwFirst := 1 - s.pl.fwSlot, fwVer := s.pl.fwVer.set (1 - s.pl.fwSlot) (v % 65536)
    fwMin := if r then Nat.max s.pl.fwMin (v % 65536) else s.pl.fwMin }) := by
  refine congrArg Host.Outcome.next ((if_neg (not_not.mpr h1)).trans ?_)
  cases r <;> rfl
theorem firmwareUpdate_unverified : Does (.firmwareUpdate v false r) s (s.setPl { s.pl with
    fwFirst := 1 - s.pl.fwSlot, fwVer := s.pl.fwVer.set (1 - s.pl.fwSlot) (v % 65536 + 65536) }) := by
  refine congrArg Host.Outcome.next ((if_neg (not_not.mpr h1)).trans ?_)
  cases r <;> rfl
end

/-- Settles O54: each of the platform's steps is its operation, and each operation is what its peer, its clock group or its register is at. -/
theorem platformSteps : Obligations.PlatformSteps := by
  unfold Obligations.PlatformSteps
  refine ⟨fun s h => .of_some (if_neg (Bool.eq_false_iff.mp h)), fun s hen hsh => .of_some (State.leaveDomain_alone hen hsh),
    fun s hen hsh => .of_none (State.leaveDomain_shared hsh), fun s ps hen hdown => ⟨?twice, ?found, ?nobody⟩, fun s => rfl,
    fun s j l hj hme hl => ⟨?passes, ?failed, fun hc => ⟨?fails, ?third⟩⟩, fun s j h => .of_some (State.spareLane_free h), fun s tag r => rfl,
    fun s j l tag r bs => ⟨rfl, ?again, ?beyond⟩, fun s tag => ⟨?frame, ?group, ?owner⟩,
    fun s k pa dom pkg tag rin bs hpa hk hst => .of_some (State.remote_passes hpa hk hst),
    fun s pa dom pkg tag rin bs hpa => ⟨?acc, ?wake, ?waiter, ?pin, ?unpin, ?publish, ?save, ?forward, ?line⟩,
    fun s p hp hme hst => .of_some (State.declareDead_live hp hme hst), fun s f p w x => rfl, fun s l => ⟨?above, ?ceiling⟩,
    fun s m x hx => ⟨?silent, ?live⟩, fun s m l hm hl hme hg => ⟨?new, ?member⟩, fun s => ⟨rfl, rfl⟩,
    fun s tid x hx h0 => clockJoinTimeout_pending hx h0, fun s tj => ⟨rfl, rfl, rfl, s.overheats_stopped tj⟩,
    fun s => ⟨rfl, rfl, ?run, fun h2 => ⟨?leaving, ?up⟩⟩, fun s hr hd hi => ⟨?low, ?hold⟩, fun s x => rfl,
    fun s pa h => congrArg Host.Outcome.next (if_pos h), fun s => ⟨rfl, rfl, rfl, rfl, rfl, rfl, rfl⟩,
    fun s v r h1 => ⟨firmwareUpdate_verified h1 v r, firmwareUpdate_unverified h1 v r⟩, fun s k h1 h5 => getMeasurements_block h1 h5,
    fun s f h0 h512 => ⟨?lock, ?start, ?stop, ?report, ?unsupported⟩, fun s k hk h => ?ide, fun s f o w x h => ?unbooted,
    fun s f o x h1 hf h0 => ?configWrite, fun s f o x h1 hf => ?configRead, fun s off n x hoff hn => ?outside,
    fun s off n x cur hn hfit hcur => registerWrite_aligned hn hfit hcur, fun s off n x hn hcross => registerWrite_crossing hn hcross⟩
  case twice => exact fun ht => .of_some (State.trainedWith_twice hen hdown ht)
  case found => exact fun h => .of_some (State.trainedWith_found hen hdown h)
  case nobody => exact fun ht hnew => .of_none (State.trainedWith_nobody ht hnew)
  case passes => exact .of_some (State.checkLane_passed hj hme hl true (.inl rfl))
  case failed => exact fun h => .of_some (State.checkLane_passed hj hme hl false (.inr h))
  case fails => exact fun hk => .of_some (State.checkLane_fails hj hme hl hc hk)
  case third => exact fun hk => .of_some (State.checkLane_third hj hme hl hc hk)
  case again => exact fun hk => congrArg Host.Outcome.next (State.badFlit_again rfl hk)
  case beyond => exact fun hk => congrArg Host.Outcome.next (State.badFlit_lost rfl hk)
  case frame => exact fun p hp => .of_some (State.lose_frame rfl hp)
  case group => exact fun n he hn => .of_some (State.lose_group rfl he hn)
  case owner => exact fun f he hn hf => .of_some (State.lose_owner rfl he hn hf)
  case acc => exact fun k => .of_some (State.remote_acc hpa k)
  case wake => exact .of_some (State.remote_wake hpa)
  case waiter => exact .of_some (State.remote_waiter hpa)
  case pin => exact fun bar init => .of_some (State.remote_pin hpa bar init)
  case unpin => exact fun bar dirty => .of_some (State.remote_unpin hpa bar dirty)
  case publish => exact fun bar dirty => .of_some (State.remote_publish hpa bar dirty)
  case save => exact fun bar dirty away => .of_some (State.remote_save hpa bar dirty away)
  case forward => exact fun p t => .of_some (State.remote_forward hpa p t)
  case line => exact fun k line hk hl => .of_some (State.remote_line hpa hk hl)
  case above => exact fun h => congrArg Host.Outcome.next (if_pos h)
  case ceiling => exact fun h => congrArg Host.Outcome.next (if_neg (Nat.not_lt.mpr h))
  case silent => exact fun h => ⟨.of_some (State.removeSilent_silent hx h), .of_some (State.removeSilent_silent hx h)⟩
  case live => exact fun h hp => .of_some (State.silence_live hx h hp)
  case new => exact fun hx h128 => .of_some (State.announced_new hm hl hme hg hx h128)
  case member => exact fun x hx => .of_some (State.announced_again hm hl hme hg hx)
  case run => exact fun h => congrArg (fun p => Host.Outcome.next (s.setPl p)) (if_neg h)
  case leaving => exact fun h => congrArg Host.Outcome.next (State.runPower_leaving h2 h)
  case up => exact fun h he => congrArg Host.Outcome.next (State.runPower_up h2 h he)
  case low => exact fun h2 => .of_some (State.powerReached_low hr hd hi h2)
  case hold => exact fun h1 hup => .of_some (State.powerReached_hold hr hd hi h1 hup)
  case lock => exact fun hk => .of_some (State.tdispMsg_lock h0 h512 hk)
  case start => exact fun hk => .of_some (State.tdispMsg_start h0 h512 hk)
  case stop => exact .of_some (State.tdispMsg_stop h0 h512)
  case report => exact .of_some (State.tdispMsg_report h0 h512)
  case unsupported => exact fun hk => congrArg Host.Outcome.next (if_pos hk)
  case ide => exact congrArg Host.Outcome.next (if_pos ⟨rfl, hk, by rw [h]; rfl⟩)
  case unbooted => exact congrArg Host.Outcome.next (if_pos h)
  case configWrite => exact congrArg Host.Outcome.next (State.configRequest_writes h1 hf h0)
  case configRead => exact congrArg Host.Outcome.next (State.configRequest_reads h1 hf)
  case outside =>
    intro f hf ht hk
    have hstream : n / 32 - 1 = 0 ∨ s.pl.ide.contains (n / 32 - 1) = false := hk.imp_left fun h => by omega
    exact registerWrite_outside hoff hn (State.unprotected_outside hf ht hstream) rfl

end Sys2Proof.Machine
end
